-- ==== Sys2Proof/Machine/RegTable.lean ====
section
/-! DEFINITION. The register pages of R520 and R521 and the layout of every block register of every page,
as the home chapters give them: offset, fields, access codes (R6) and reset values. A field marked `view`
shows state that has its one home elsewhere in `State`; it is computed at a read and not stored. -/

namespace Sys2Proof.Machine

/-- The access codes of R6. -/
inductive Acc where
  | ro | rw | wo | w1c | w1s | rc | sc | cm
  deriving DecidableEq, Repr

/-- One field of a register: bits hi to lo, access code, reset value; `view` as above. -/
structure FieldRow where
  hi : Nat
  lo : Nat
  acc : Acc
  reset : Nat
  view : Bool
  deriving DecidableEq, Repr

/-- One block register of a page: its offset and its defined fields; every other bit is reserved (R8). -/
structure RegRow where
  off : Nat
  fields : List FieldRow
  deriving DecidableEq, Repr

/-- The kinds of register page of R521. The NET range has three layouts (R450, R451, R452). -/
inductive PageKind where
  | cap | mgt | sec | rtc | err | trv | sup | fls | tng | prt | cmd | fnl | srv | stp | sem | stk | grd | wsk | tray | ldl | skm | siv | mdl | stn | cut | hbm | ddr | arb | netp | netf | netb
  deriving DecidableEq, Repr

/-- R521: the placed ranges, as first index, number of pages, block type code. -/
def pageRange : PageKind → Nat × Nat × Nat
  | .cap => (0x000, 1, 0x01)
  | .mgt => (0x001, 1, 0x02)
  | .sec => (0x002, 1, 0x03)
  | .rtc => (0x003, 1, 0x04)
  | .err => (0x004, 1, 0x05)
  | .trv => (0x005, 1, 0x06)
  | .sup => (0x006, 1, 0x07)
  | .fls => (0x007, 1, 0x08)
  | .tng => (0x008, 1, 0x09)
  | .prt => (0x010, 16, 0x0A)
  | .cmd => (0x020, 16, 0x0B)
  | .fnl => (0x030, 16, 0x0C)
  | .srv => (0x040, 16, 0x0D)
  | .stp => (0x050, 16, 0x0E)
  | .sem => (0x060, 4, 0x0F)
  | .stk => (0x064, 4, 0x10)
  | .grd => (0x080, 208, 0x11)
  | .wsk => (0x180, 208, 0x12)
  | .tray => (0x280, 208, 0x13)
  | .ldl => (0x380, 32, 0x14)
  | .skm => (0x3A0, 16, 0x15)
  | .siv => (0x3B0, 16, 0x16)
  | .mdl => (0x3C0, 8, 0x17)
  | .stn => (0x3C8, 8, 0x18)
  | .cut => (0x3D0, 8, 0x19)
  | .hbm => (0x400, 8, 0x1A)
  | .ddr => (0x408, 24, 0x1B)
  | .arb => (0x420, 36, 0x1C)
  | .netp => (0x480, 8, 0x1D)
  | .netf => (0x488, 1, 0x1D)
  | .netb => (0x489, 1, 0x1D)

/-- Every kind of page, in index order (R521). -/
def pageKinds : List PageKind :=
  [.cap, .mgt, .sec, .rtc, .err, .trv, .sup, .fls, .tng, .prt, .cmd, .fnl, .srv, .stp, .sem, .stk, .grd, .wsk, .tray, .ldl, .skm, .siv, .mdl, .stn, .cut, .hbm, .ddr, .arb, .netp, .netf, .netb]


/-- Block registers of a CAP page. -/
def regsCAP : List RegRow :=
  [
    -- DEVICE_ID (R535): PART, STEPPING
    ⟨0x040, [⟨31, 16, .ro, 0x4816, false⟩, ⟨15, 8, .ro, 0xB1, false⟩]⟩,
    -- SERIAL_LO (R535): SERIAL
    ⟨0x044, [⟨31, 0, .ro, 0, true⟩]⟩,
    -- SERIAL_HI (R535): SERIAL
    ⟨0x048, [⟨31, 0, .ro, 0, true⟩]⟩,
    -- PAGE_RANGE (R535): PRESENT, LAST
    ⟨0x04C, [⟨31, 16, .ro, 887, false⟩, ⟨15, 0, .ro, 0x057F, false⟩]⟩,
    -- CAP_COUNT (R535): COUNT
    ⟨0x050, [⟨7, 0, .ro, 0, true⟩]⟩,
    -- EVT_ROUTE (R535): PARTITION
    ⟨0x054, [⟨4, 0, .rw, 0x1F, false⟩]⟩]

/-- Block registers of a MGT page. -/
def regsMGT : List RegRow :=
  [
    -- MGT_STATUS (R515): FAIL, SLOT_B, STAGE
    ⟨0x040, [⟨15, 12, .ro, 0, true⟩, ⟨8, 8, .ro, 0, true⟩, ⟨1, 0, .ro, 0, true⟩]⟩,
    -- BOOT_CFG (R515): PREFER_B
    ⟨0x044, [⟨0, 0, .rw, 0, false⟩]⟩,
    -- SVN_CTRL (R515): BURNED, COMMIT
    ⟨0x048, [⟨6, 1, .ro, 0, true⟩, ⟨0, 0, .sc, 0, false⟩]⟩,
    -- DEBUG_CTRL (R515): OPEN
    ⟨0x04C, [⟨0, 0, .w1s, 0, true⟩]⟩,
    -- LOG_STATUS (R515): WRAPPED, HEAD
    ⟨0x050, [⟨31, 31, .ro, 0, true⟩, ⟨7, 0, .ro, 0, true⟩]⟩,
    -- LOG_SEL (R515): INDEX
    ⟨0x054, [⟨7, 0, .rw, 0, false⟩]⟩,
    -- LOG_W0 (R515): WORD
    ⟨0x058, [⟨31, 0, .ro, 0, true⟩]⟩,
    -- LOG_W1 (R515): WORD
    ⟨0x05C, [⟨31, 0, .ro, 0, true⟩]⟩,
    -- LOG_W2 (R515): WORD
    ⟨0x060, [⟨31, 0, .ro, 0, true⟩]⟩,
    -- LOG_W3 (R515): WORD
    ⟨0x064, [⟨31, 0, .ro, 0, true⟩]⟩,
    -- LOG_W4 (R515): WORD
    ⟨0x068, [⟨31, 0, .ro, 0, true⟩]⟩,
    -- LOG_W5 (R515): WORD
    ⟨0x06C, [⟨31, 0, .ro, 0, true⟩]⟩,
    -- LOG_W6 (R515): WORD
    ⟨0x070, [⟨31, 0, .ro, 0, true⟩]⟩,
    -- LOG_W7 (R515): WORD
    ⟨0x074, [⟨31, 0, .ro, 0, true⟩]⟩,
    -- READY_CFG (R553): PORT, IPV6, KEY_ID, EN
    ⟨0x078, [⟨31, 16, .rw, 0, false⟩, ⟨3, 3, .rw, 0, false⟩, ⟨2, 1, .rw, 0, false⟩, ⟨0, 0, .rw, 0, false⟩]⟩,
    -- READY_IP_W0 (R553): WORD
    ⟨0x07C, [⟨31, 0, .rw, 0, false⟩]⟩,
    -- READY_IP_W1 (R553): WORD
    ⟨0x080, [⟨31, 0, .rw, 0, false⟩]⟩,
    -- READY_IP_W2 (R553): WORD
    ⟨0x084, [⟨31, 0, .rw, 0, false⟩]⟩,
    -- READY_IP_W3 (R553): WORD
    ⟨0x088, [⟨31, 0, .rw, 0, false⟩]⟩,
    -- BOOT_MS (R553): MS
    ⟨0x08C, [⟨31, 0, .ro, 0, true⟩]⟩,
    -- RESET_CAUSE (R553): CODE
    ⟨0x090, [⟨15, 0, .ro, 0, true⟩]⟩,
    -- PAD_CFG (R567): DRV_XSPI, DRV_JTAG, DRV_READY
    ⟨0x094, [⟨5, 4, .rw, 2, false⟩, ⟨3, 2, .rw, 1, false⟩, ⟨1, 0, .rw, 1, false⟩]⟩,
    -- SSC_CFG (R573): FLASH_SPREAD
    ⟨0x098, [⟨3, 0, .cm, 6, false⟩]⟩]

/-- Block registers of a SEC page. -/
def regsSEC : List RegRow :=
  [
    -- SEC_STATUS (R514): LOCKED, LOADED, ID_EXHAUSTED, ID_READY
    ⟨0x040, [⟨11, 8, .ro, 0, true⟩, ⟨7, 4, .ro, 0, true⟩, ⟨1, 1, .ro, 0, true⟩, ⟨0, 0, .ro, 0, true⟩]⟩,
    -- KEY_SEL (R514): SLOT
    ⟨0x044, [⟨1, 0, .rw, 0, false⟩]⟩,
    -- KEY_W0 (R514): WORD
    ⟨0x048, [⟨31, 0, .wo, 0, false⟩]⟩,
    -- KEY_W1 (R514): WORD
    ⟨0x04C, [⟨31, 0, .wo, 0, false⟩]⟩,
    -- KEY_W2 (R514): WORD
    ⟨0x050, [⟨31, 0, .wo, 0, false⟩]⟩,
    -- KEY_W3 (R514): WORD
    ⟨0x054, [⟨31, 0, .wo, 0, false⟩]⟩,
    -- KEY_W4 (R514): WORD
    ⟨0x058, [⟨31, 0, .wo, 0, false⟩]⟩,
    -- KEY_W5 (R514): WORD
    ⟨0x05C, [⟨31, 0, .wo, 0, false⟩]⟩,
    -- KEY_W6 (R514): WORD
    ⟨0x060, [⟨31, 0, .wo, 0, false⟩]⟩,
    -- KEY_W7 (R514): WORD
    ⟨0x064, [⟨31, 0, .wo, 0, false⟩]⟩,
    -- KEY_CTRL (R514): CLEAR, LOCK, LOAD
    ⟨0x068, [⟨2, 2, .sc, 0, false⟩, ⟨1, 1, .w1s, 0, true⟩, ⟨0, 0, .sc, 0, false⟩]⟩,
    -- NONCE_W0 (R514): WORD
    ⟨0x06C, [⟨31, 0, .rw, 0, false⟩]⟩,
    -- NONCE_W1 (R514): WORD
    ⟨0x070, [⟨31, 0, .rw, 0, false⟩]⟩,
    -- NONCE_W2 (R514): WORD
    ⟨0x074, [⟨31, 0, .rw, 0, false⟩]⟩,
    -- NONCE_W3 (R514): WORD
    ⟨0x078, [⟨31, 0, .rw, 0, false⟩]⟩,
    -- NONCE_W4 (R514): WORD
    ⟨0x07C, [⟨31, 0, .rw, 0, false⟩]⟩,
    -- NONCE_W5 (R514): WORD
    ⟨0x080, [⟨31, 0, .rw, 0, false⟩]⟩,
    -- NONCE_W6 (R514): WORD
    ⟨0x084, [⟨31, 0, .rw, 0, false⟩]⟩,
    -- NONCE_W7 (R514): WORD
    ⟨0x088, [⟨31, 0, .rw, 0, false⟩]⟩,
    -- ATT_ADDR_LO (R514): ADDR
    ⟨0x08C, [⟨31, 0, .rw, 0, false⟩]⟩,
    -- ATT_ADDR_HI (R514): ADDR
    ⟨0x090, [⟨31, 0, .rw, 0, false⟩]⟩,
    -- ATT_CTRL (R514): RESULT, GO
    ⟨0x094, [⟨31, 28, .ro, 0, true⟩, ⟨0, 0, .sc, 0, false⟩]⟩,
    -- LEAF_NEXT (R514): Q
    ⟨0x098, [⟨31, 0, .ro, 0, true⟩]⟩,
    -- LEAF_RESERVED (R514): VALUE
    ⟨0x09C, [⟨31, 0, .ro, 0, true⟩]⟩,
    -- MEAS_SEL (R514): INDEX
    ⟨0x0A0, [⟨2, 0, .rw, 0, false⟩]⟩,
    -- MEAS_W0 (R514): WORD
    ⟨0x0A4, [⟨31, 0, .ro, 0, true⟩]⟩,
    -- MEAS_W1 (R514): WORD
    ⟨0x0A8, [⟨31, 0, .ro, 0, true⟩]⟩,
    -- MEAS_W2 (R514): WORD
    ⟨0x0AC, [⟨31, 0, .ro, 0, true⟩]⟩,
    -- MEAS_W3 (R514): WORD
    ⟨0x0B0, [⟨31, 0, .ro, 0, true⟩]⟩,
    -- MEAS_W4 (R514): WORD
    ⟨0x0B4, [⟨31, 0, .ro, 0, true⟩]⟩,
    -- MEAS_W5 (R514): WORD
    ⟨0x0B8, [⟨31, 0, .ro, 0, true⟩]⟩,
    -- MEAS_W6 (R514): WORD
    ⟨0x0BC, [⟨31, 0, .ro, 0, true⟩]⟩,
    -- MEAS_W7 (R514): WORD
    ⟨0x0C0, [⟨31, 0, .ro, 0, true⟩]⟩,
    -- EXTEND_W0 (R514): WORD
    ⟨0x0C4, [⟨31, 0, .rw, 0, false⟩]⟩,
    -- EXTEND_W1 (R514): WORD
    ⟨0x0C8, [⟨31, 0, .rw, 0, false⟩]⟩,
    -- EXTEND_W2 (R514): WORD
    ⟨0x0CC, [⟨31, 0, .rw, 0, false⟩]⟩,
    -- EXTEND_W3 (R514): WORD
    ⟨0x0D0, [⟨31, 0, .rw, 0, false⟩]⟩,
    -- EXTEND_W4 (R514): WORD
    ⟨0x0D4, [⟨31, 0, .rw, 0, false⟩]⟩,
    -- EXTEND_W5 (R514): WORD
    ⟨0x0D8, [⟨31, 0, .rw, 0, false⟩]⟩,
    -- EXTEND_W6 (R514): WORD
    ⟨0x0DC, [⟨31, 0, .rw, 0, false⟩]⟩] ++
  [
    -- EXTEND_W7 (R514): WORD
    ⟨0x0E0, [⟨31, 0, .rw, 0, false⟩]⟩,
    -- EXTEND_CTRL (R514): GO
    ⟨0x0E4, [⟨0, 0, .sc, 0, false⟩]⟩,
    -- FAULTS (R514): COUNT
    ⟨0x0E8, [⟨31, 0, .rc, 0, false⟩]⟩,
    -- FAULT_FIRST (R514): VALID, MASTER, PARTITION, TARGET
    ⟨0x0EC, [⟨31, 31, .w1c, 0, false⟩, ⟨27, 16, .ro, 0, false⟩, ⟨12, 8, .ro, 0, false⟩, ⟨3, 0, .ro, 0, false⟩]⟩,
    -- FAULT_ADDR_LO (R514): ADDR
    ⟨0x0F0, [⟨31, 0, .ro, 0, false⟩]⟩,
    -- FAULT_ADDR_HI (R514): ADDR
    ⟨0x0F4, [⟨31, 0, .ro, 0, false⟩]⟩,
    -- ACC_SEL (R514): MASTER, TARGET
    ⟨0x0F8, [⟨27, 16, .rw, 0, false⟩, ⟨3, 0, .rw, 0, false⟩]⟩,
    -- ACC_INFO (R514): PMASK, WR, RD
    ⟨0x0FC, [⟨31, 16, .ro, 0, true⟩, ⟨1, 1, .ro, 0, true⟩, ⟨0, 0, .ro, 0, true⟩]⟩,
    -- PUBKEY_SEL (R514): WORD
    ⟨0x100, [⟨3, 0, .rw, 0, false⟩]⟩,
    -- PUBKEY (R514): WORD
    ⟨0x104, [⟨31, 0, .ro, 0, true⟩]⟩]

/-- Block registers of a RTC page. -/
def regsRTC : List RegRow :=
  [
    -- RTC_STATUS (R517): VBAT_LOW, OSC_STOP, VALID
    ⟨0x040, [⟨2, 2, .ro, 0, true⟩, ⟨1, 1, .ro, 0, true⟩, ⟨0, 0, .ro, 0, true⟩]⟩,
    -- SEC_LO (R517): SECONDS
    ⟨0x044, [⟨31, 0, .ro, 0, true⟩]⟩,
    -- SEC_HI (R517): SECONDS
    ⟨0x048, [⟨31, 0, .ro, 0, true⟩]⟩,
    -- FRAC (R517): FRACTION
    ⟨0x04C, [⟨14, 0, .ro, 0, true⟩]⟩,
    -- SET_LO (R517): SECONDS
    ⟨0x050, [⟨31, 0, .rw, 0, false⟩]⟩,
    -- SET_HI (R517): SECONDS
    ⟨0x054, [⟨31, 0, .rw, 0, false⟩]⟩,
    -- SET_FRAC (R517): FRACTION
    ⟨0x058, [⟨14, 0, .rw, 0, false⟩]⟩,
    -- RTC_CTRL (R517): SET
    ⟨0x05C, [⟨0, 0, .sc, 0, false⟩]⟩,
    -- TRIM (R517): PPM
    ⟨0x060, [⟨15, 0, .rw, 0, false⟩]⟩,
    -- SETS (R517): COUNT
    ⟨0x064, [⟨31, 0, .rc, 0, false⟩]⟩]

/-- Block registers of a ERR page. -/
def regsERR : List RegRow :=
  [
    -- ERR_CFG (R489): WINDOW, REPEAT
    ⟨0x040, [⟨31, 16, .cm, 1024, false⟩, ⟨3, 0, .cm, 3, false⟩]⟩,
    -- LOG_STATUS (R489): WRAPPED, HEAD
    ⟨0x044, [⟨31, 31, .ro, 0, true⟩, ⟨9, 0, .ro, 0, true⟩]⟩,
    -- LOG_SEL (R489): INDEX
    ⟨0x048, [⟨9, 0, .rw, 0, false⟩]⟩,
    -- LOG_W0 (R489): OUTCOME, CLASS, STRUCT, PAGE
    ⟨0x04C, [⟨28, 26, .ro, 0, true⟩, ⟨25, 24, .ro, 0, true⟩, ⟨23, 16, .ro, 0, true⟩, ⟨15, 0, .ro, 0, true⟩]⟩,
    -- LOG_W1 (R489): LOCATION
    ⟨0x050, [⟨31, 0, .ro, 0, true⟩]⟩,
    -- LOG_W2 (R489): SECONDS
    ⟨0x054, [⟨31, 0, .ro, 0, true⟩]⟩,
    -- LOG_W3 (R489): VALID, FRACTION
    ⟨0x058, [⟨15, 15, .ro, 0, true⟩, ⟨14, 0, .ro, 0, true⟩]⟩,
    -- HIST_COUNT (R489): COUNT
    ⟨0x05C, [⟨16, 0, .ro, 0, true⟩]⟩,
    -- HIST_SEL (R489): INDEX
    ⟨0x060, [⟨15, 0, .rw, 0, false⟩]⟩,
    -- HIST_W0 (R489): WORD
    ⟨0x064, [⟨31, 0, .ro, 0, true⟩]⟩,
    -- HIST_W1 (R489): WORD
    ⟨0x068, [⟨31, 0, .ro, 0, true⟩]⟩,
    -- HIST_W2 (R489): WORD
    ⟨0x06C, [⟨31, 0, .ro, 0, true⟩]⟩,
    -- HIST_W3 (R489): WORD
    ⟨0x070, [⟨31, 0, .ro, 0, true⟩]⟩,
    -- TRANSIENTS (R489): COUNT
    ⟨0x074, [⟨31, 0, .rc, 0, false⟩]⟩,
    -- LASTING (R489): COUNT
    ⟨0x078, [⟨31, 0, .rc, 0, false⟩]⟩,
    -- ABANDONED (R489): COUNT
    ⟨0x07C, [⟨31, 0, .rc, 0, false⟩]⟩,
    -- SPARE_CORES (R489): DIE3, DIE2, DIE1, DIE0
    ⟨0x080, [⟨31, 24, .ro, 0, true⟩, ⟨23, 16, .ro, 0, true⟩, ⟨15, 8, .ro, 0, true⟩, ⟨7, 0, .ro, 0, true⟩]⟩,
    -- SPARE_MEM (R489): DDR, HBM
    ⟨0x084, [⟨31, 16, .ro, 64, true⟩, ⟨15, 0, .ro, 16, true⟩]⟩,
    -- HOLES (R489): DDR, HBM
    ⟨0x088, [⟨31, 16, .ro, 0, true⟩, ⟨15, 0, .ro, 0, true⟩]⟩,
    -- TESTING (R489): COUNT
    ⟨0x08C, [⟨7, 0, .ro, 0, true⟩]⟩]

/-- Block registers of a TRV page. -/
def regsTRV : List RegRow :=
  [
    -- TRV_STATUS (R472): THERM, PMB_FAIL, HOT
    ⟨0x040, [⟨5, 5, .ro, 0, true⟩, ⟨4, 4, .ro, 0, true⟩, ⟨3, 0, .ro, 0, true⟩]⟩,
    -- PKG_LIMIT (R472): GUARD, LIMIT
    ⟨0x044, [⟨26, 16, .cm, 20, false⟩, ⟨10, 0, .cm, 1300, false⟩]⟩,
    -- THERM_CFG (R472): HBM_SOFT, T_SOFT
    ⟨0x048, [⟨23, 16, .cm, 88, false⟩, ⟨7, 0, .cm, 95, false⟩]⟩,
    -- CLASS_W0 (R472): W
    ⟨0x04C, [⟨31, 0, .cm, 0x140F0A05, false⟩]⟩,
    -- CLASS_W1 (R472): W
    ⟨0x050, [⟨31, 0, .cm, 0x28231E19, false⟩]⟩,
    -- CLASS_W2 (R472): W
    ⟨0x054, [⟨31, 0, .cm, 0x3C37322D, false⟩]⟩,
    -- CLASS_W3 (R472): W
    ⟨0x058, [⟨31, 0, .cm, 0x504B4641, false⟩]⟩,
    -- HOLD_CFG (R472): PERIODS
    ⟨0x05C, [⟨7, 0, .cm, 4, false⟩]⟩,
    -- DIE_SEL (R472): DIE
    ⟨0x060, [⟨1, 0, .rw, 0, false⟩]⟩,
    -- DIE_BUDGET (R472): ESTIMATE, BUDGET
    ⟨0x064, [⟨31, 16, .ro, 0, true⟩, ⟨15, 0, .ro, 0, true⟩]⟩,
    -- DIE_POOL (R472): POOL, GATE
    ⟨0x068, [⟨31, 16, .ro, 0, true⟩, ⟨2, 0, .ro, 4, true⟩]⟩,
    -- DIE_TEMP (R472): PEAK, TEMP
    ⟨0x06C, [⟨31, 16, .rc, 0, false⟩, ⟨15, 0, .ro, 0, false⟩]⟩,
    -- DIE_VSET (R472): CURRENT, BASE
    ⟨0x070, [⟨31, 16, .ro, 750, false⟩, ⟨15, 0, .cm, 750, false⟩]⟩,
    -- RAIL_SEL (R472): RAIL
    ⟨0x074, [⟨3, 0, .rw, 0, false⟩]⟩,
    -- ENERGY_LO (R472): ENERGY
    ⟨0x078, [⟨31, 0, .ro, 0, true⟩]⟩,
    -- ENERGY_HI (R472): ENERGY
    ⟨0x07C, [⟨31, 0, .ro, 0, true⟩]⟩,
    -- RAIL_POWER (R472): PEAK, POWER
    ⟨0x080, [⟨31, 16, .rc, 0, false⟩, ⟨15, 0, .ro, 0, false⟩]⟩,
    -- PMB_CFG (R472): FAST, PAGE, ADDR
    ⟨0x084, [⟨31, 31, .rw, 0, false⟩, ⟨15, 8, .rw, 0, false⟩, ⟨6, 0, .rw, 0x40, false⟩]⟩,
    -- HOLDS (R472): COUNT
    ⟨0x088, [⟨31, 0, .rc, 0, false⟩]⟩,
    -- GATINGS (R472): COUNT
    ⟨0x08C, [⟨31, 0, .rc, 0, false⟩]⟩,
    -- BORROWS (R472): COUNT
    ⟨0x090, [⟨31, 0, .rc, 0, false⟩]⟩,
    -- LAGGARDS (R472): COUNT
    ⟨0x094, [⟨31, 0, .rc, 0, false⟩]⟩,
    -- V_CHANGES (R472): COUNT
    ⟨0x098, [⟨31, 0, .rc, 0, false⟩]⟩]

/-- Block registers of a SUP page. -/
def regsSUP : List RegRow :=
  [
    -- SUP_SEL (R475): RAIL
    ⟨0x040, [⟨3, 0, .rw, 0, false⟩]⟩,
    -- SUP_STATUS (R475): MIN_MV, WARN
    ⟨0x044, [⟨31, 16, .rc, 0xFFFF, false⟩, ⟨0, 0, .ro, 0, true⟩]⟩,
    -- SUP_LEVELS (R475): RESET_MV, WARN_MV
    ⟨0x048, [⟨31, 16, .ro, 0, true⟩, ⟨15, 0, .ro, 0, true⟩]⟩,
    -- WARNINGS (R475): COUNT
    ⟨0x04C, [⟨31, 0, .rc, 0, false⟩]⟩,
    -- RESETS (R475): COUNT
    ⟨0x050, [⟨31, 0, .rc, 0, false⟩]⟩,
    -- WARN_TICKS (R475): TICKS
    ⟨0x054, [⟨31, 0, .rc, 0, false⟩]⟩,
    -- CLEAR_TICKS (R475): TICKS
    ⟨0x058, [⟨31, 0, .rw, 5000, false⟩]⟩]

/-- Block registers of a FLS page. -/
def regsFLS : List RegRow :=
  [
    -- FLS_STATUS (R411): DIES, NO_PARITY, READ_ONLY, FORMATTED, CLEAN, MAP
    ⟨0x040, [⟨28, 24, .ro, 0, true⟩, ⟨7, 7, .ro, 0, true⟩, ⟨6, 6, .ro, 0, true⟩, ⟨5, 5, .ro, 0, true⟩, ⟨4, 4, .ro, 0, true⟩, ⟨1, 0, .ro, 0, true⟩]⟩,
    -- FLS_CTRL (R411): FORMAT, SHUTDOWN, FLUSH
    ⟨0x044, [⟨2, 2, .sc, 0, true⟩, ⟨1, 1, .sc, 0, true⟩, ⟨0, 0, .sc, 0, true⟩]⟩,
    -- LOGICAL (R411): PAGES
    ⟨0x048, [⟨31, 0, .ro, 0, true⟩]⟩,
    -- GOOD_RAW (R411): PAGES
    ⟨0x04C, [⟨31, 0, .ro, 0, true⟩]⟩,
    -- SLC_TARGET (R411): PAGES
    ⟨0x050, [⟨31, 0, .ro, 0, true⟩]⟩,
    -- SLC_HELD (R411): PAGES
    ⟨0x054, [⟨31, 0, .ro, 0, true⟩]⟩,
    -- BG_CFG (R411): SHARE
    ⟨0x058, [⟨12, 0, .cm, 512, false⟩]⟩,
    -- WL_CFG (R411): SPREAD
    ⟨0x05C, [⟨11, 0, .cm, 200, false⟩]⟩,
    -- PATROL_CFG (R411): RD_LIMIT, DAYS
    ⟨0x060, [⟨31, 16, .cm, 100, false⟩, ⟨6, 0, .cm, 7, false⟩]⟩,
    -- LIFE (R411): SPARE, WEAR, LIFE
    ⟨0x064, [⟨23, 16, .ro, 0, true⟩, ⟨15, 8, .ro, 0, true⟩, ⟨7, 0, .ro, 0, true⟩]⟩,
    -- ERASE_RANGE (R411): MAX, MIN
    ⟨0x068, [⟨31, 16, .ro, 0, true⟩, ⟨15, 0, .ro, 0, true⟩]⟩,
    -- ERASE_MEAN (R411): PE_RATED, MEAN
    ⟨0x06C, [⟨31, 16, .ro, 0, true⟩, ⟨15, 0, .ro, 0, true⟩]⟩,
    -- REBUILD_S (R411): SECONDS
    ⟨0x070, [⟨31, 0, .ro, 0, true⟩]⟩,
    -- HOST_RD (R411): COUNT
    ⟨0x074, [⟨31, 0, .rc, 0, false⟩]⟩,
    -- HOST_WR (R411): COUNT
    ⟨0x078, [⟨31, 0, .rc, 0, false⟩]⟩,
    -- MEDIA_WR (R411): COUNT
    ⟨0x07C, [⟨31, 0, .rc, 0, false⟩]⟩,
    -- RELOCATED (R411): COUNT
    ⟨0x080, [⟨31, 0, .rc, 0, false⟩]⟩,
    -- REFRESHES (R411): COUNT
    ⟨0x084, [⟨31, 0, .rc, 0, false⟩]⟩,
    -- PARITY_RECOV (R411): COUNT
    ⟨0x088, [⟨31, 0, .rc, 0, false⟩]⟩,
    -- LOST_UNITS (R411): COUNT
    ⟨0x08C, [⟨31, 0, .rc, 0, false⟩]⟩,
    -- PATROL_POS (R411): BEHIND, DONE
    ⟨0x090, [⟨31, 31, .ro, 0, true⟩, ⟨13, 0, .ro, 0, true⟩]⟩,
    -- CH_SEL (R411): CHANNEL
    ⟨0x094, [⟨4, 0, .rw, 0, false⟩]⟩,
    -- CH_INFO (R411): RETIRED, LOST, DIES
    ⟨0x098, [⟨31, 16, .ro, 0, true⟩, ⟨12, 8, .ro, 0, true⟩, ⟨4, 0, .ro, 0, true⟩]⟩,
    -- CH_FREE (R411): BLOCKS
    ⟨0x09C, [⟨31, 0, .ro, 0, true⟩]⟩]

/-- Block registers of a TNG page. -/
def regsTNG : List RegRow :=
  [
    -- TNG_STATUS (R369): BUSY, MOVING
    ⟨0x040, [⟨16, 16, .ro, 0, true⟩, ⟨15, 0, .ro, 0, true⟩]⟩,
    -- MOVES (R369): COUNT
    ⟨0x044, [⟨31, 0, .rc, 0, false⟩]⟩,
    -- WB (R369): COUNT
    ⟨0x048, [⟨31, 0, .rc, 0, false⟩]⟩,
    -- HELD (R369): COUNT
    ⟨0x04C, [⟨31, 0, .rc, 0, false⟩]⟩,
    -- PAGE_SEL (R369): PAGE
    ⟨0x050, [⟨26, 0, .rw, 0, false⟩]⟩,
    -- PAGE_INFO (R369): COPY, DIRTY, MOVING, HOLD, HINT, PARTITION, FRAME
    ⟨0x054, [⟨31, 31, .ro, 0, true⟩, ⟨30, 30, .ro, 0, true⟩, ⟨29, 29, .ro, 0, true⟩, ⟨28, 28, .ro, 0, true⟩, ⟨27, 26, .ro, 0, true⟩, ⟨25, 21, .ro, 0x1F, true⟩, ⟨17, 0, .ro, 0, true⟩]⟩]

/-- Block registers of a PRT page. -/
def regsPRT : List RegRow :=
  [
    -- PRT_STATE (R347): OVERSUB, STATE
    ⟨0x040, [⟨4, 4, .ro, 0, true⟩, ⟨2, 0, .ro, 0, true⟩]⟩,
    -- SETUP_LO (R347): ADDR_LO
    ⟨0x044, [⟨31, 0, .rw, 0, false⟩]⟩,
    -- SETUP_HI (R347): ADDR_HI
    ⟨0x048, [⟨31, 0, .rw, 0, false⟩]⟩,
    -- PRT_CTRL (R347): OFFSET, RESULT, FROM, OP, GO
    ⟨0x04C, [⟨31, 24, .ro, 0, false⟩, ⟨19, 16, .ro, 0, false⟩, ⟨8, 4, .rw, 0x1F, false⟩, ⟨2, 1, .rw, 0, false⟩, ⟨0, 0, .sc, 0, false⟩]⟩,
    -- REG_HBM (R347): SPARE, BURST, SHARE
    ⟨0x050, [⟨31, 31, .cm, 1, false⟩, ⟨23, 16, .cm, 16, false⟩, ⟨12, 0, .cm, 0, false⟩]⟩,
    -- REG_DDR (R347): SPARE, BURST, SHARE
    ⟨0x054, [⟨31, 31, .cm, 1, false⟩, ⟨23, 16, .cm, 16, false⟩, ⟨12, 0, .cm, 0, false⟩]⟩,
    -- REG_FLS (R347): SPARE, BURST, SHARE
    ⟨0x058, [⟨31, 31, .cm, 1, false⟩, ⟨23, 16, .cm, 16, false⟩, ⟨12, 0, .cm, 0, false⟩]⟩,
    -- REG_FRONT (R347): SPARE, BURST, SHARE
    ⟨0x05C, [⟨31, 31, .cm, 1, false⟩, ⟨23, 16, .cm, 16, false⟩, ⟨12, 0, .cm, 0, false⟩]⟩,
    -- REG_BACK (R347): SPARE, BURST, SHARE
    ⟨0x060, [⟨31, 31, .cm, 1, false⟩, ⟨23, 16, .cm, 16, false⟩, ⟨12, 0, .cm, 0, false⟩]⟩,
    -- SWITCH_US (R347): US
    ⟨0x064, [⟨31, 0, .ro, 0, false⟩]⟩,
    -- SWITCHES (R347): COUNT
    ⟨0x068, [⟨31, 0, .rc, 0, false⟩]⟩,
    -- CARRIED (R347): COUNT
    ⟨0x06C, [⟨31, 0, .rc, 0, false⟩]⟩,
    -- WAIT_CLEARED (R347): COUNT
    ⟨0x070, [⟨31, 0, .rc, 0, false⟩]⟩,
    -- THROTTLED (R347): COUNT
    ⟨0x074, [⟨31, 0, .rc, 0, false⟩]⟩]

/-- Block registers of a CMD page. -/
def regsCMD : List RegRow :=
  [
    -- INFLIGHT (R164): PEAK, COUNT
    ⟨0x040, [⟨25, 16, .rc, 0, false⟩, ⟨9, 0, .ro, 0, true⟩]⟩,
    -- RERUN_LIMIT (R164): LIMIT
    ⟨0x044, [⟨7, 0, .rw, 15, false⟩]⟩,
    -- CANCEL_TAG_LO (R164): TAG_LO
    ⟨0x048, [⟨31, 0, .rw, 0, false⟩]⟩,
    -- CANCEL_TAG_HI (R164): TAG_HI
    ⟨0x04C, [⟨31, 0, .rw, 0, false⟩]⟩,
    -- CANCEL_CTRL (R164): RESULT, GO
    ⟨0x050, [⟨3, 2, .ro, 0, false⟩, ⟨0, 0, .sc, 0, false⟩]⟩,
    -- REJECTS (R164): COUNT
    ⟨0x054, [⟨31, 0, .rc, 0, false⟩]⟩,
    -- KILLS (R164): COUNT
    ⟨0x058, [⟨31, 0, .rc, 0, false⟩]⟩,
    -- EVT_LOST (R164): COUNT
    ⟨0x05C, [⟨31, 0, .rc, 0, false⟩]⟩]

/-- Block registers of a FNL page. -/
def regsFNL : List RegRow :=
  [
    -- FNL_LIST_LO (R370): LIST_LO
    ⟨0x040, [⟨31, 0, .cm, 0, false⟩]⟩,
    -- FNL_LIST_HI (R370): LIST_HI
    ⟨0x044, [⟨31, 0, .cm, 0, false⟩]⟩,
    -- FNL_CFG (R370): AHEAD, COUNT
    ⟨0x048, [⟨21, 16, .cm, 2, false⟩, ⟨12, 0, .cm, 0, false⟩]⟩,
    -- WIN_USED (R370): FRAMES
    ⟨0x04C, [⟨31, 0, .ro, 0, true⟩]⟩,
    -- WIN_PINNED (R370): FRAMES
    ⟨0x050, [⟨31, 0, .ro, 0, true⟩]⟩,
    -- HIT (R370): COUNT
    ⟨0x054, [⟨31, 0, .rc, 0, false⟩]⟩,
    -- MISS (R370): COUNT
    ⟨0x058, [⟨31, 0, .rc, 0, false⟩]⟩,
    -- EXP_HIT (R370): COUNT
    ⟨0x05C, [⟨31, 0, .rc, 0, false⟩]⟩,
    -- EXP_MISS (R370): COUNT
    ⟨0x060, [⟨31, 0, .rc, 0, false⟩]⟩,
    -- BYPASS (R370): COUNT
    ⟨0x064, [⟨31, 0, .rc, 0, false⟩]⟩,
    -- CURRENT (R370): VALID, EXTENT
    ⟨0x068, [⟨31, 31, .ro, 0, true⟩, ⟨12, 0, .ro, 0, true⟩]⟩]

/-- Block registers of a SRV page. -/
def regsSRV : List RegRow :=
  [
    -- SRV_CFG (R330): PAGE_KIB, HANDLE_LOG2, REQ_LOG2
    ⟨0x040, [⟨31, 16, .rw, 0, false⟩, ⟨12, 8, .rw, 10, false⟩, ⟨4, 0, .rw, 10, false⟩]⟩,
    -- SRV_CTRL (R330): EN
    ⟨0x044, [⟨0, 0, .rw, 0, true⟩]⟩,
    -- HBM_POOL_LO (R330): BASE
    ⟨0x048, [⟨31, 0, .rw, 0, false⟩]⟩,
    -- HBM_POOL_HI (R330): BASE
    ⟨0x04C, [⟨31, 0, .rw, 0, false⟩]⟩,
    -- HBM_FRAMES (R330): COUNT
    ⟨0x050, [⟨31, 0, .rw, 0, false⟩]⟩,
    -- DDR_POOL_LO (R330): BASE
    ⟨0x054, [⟨31, 0, .rw, 0, false⟩]⟩,
    -- DDR_POOL_HI (R330): BASE
    ⟨0x058, [⟨31, 0, .rw, 0, false⟩]⟩,
    -- DDR_FRAMES (R330): COUNT
    ⟨0x05C, [⟨31, 0, .rw, 0, false⟩]⟩,
    -- SPILL (R330): MAX, LOW
    ⟨0x060, [⟨31, 16, .rw, 64, false⟩, ⟨15, 0, .rw, 0, false⟩]⟩,
    -- CHUNK (R330): LEN
    ⟨0x064, [⟨12, 0, .rw, 0, false⟩]⟩,
    -- LIVE (R330): COUNT
    ⟨0x068, [⟨16, 0, .ro, 0, true⟩]⟩,
    -- HBM_FREE (R330): COUNT
    ⟨0x06C, [⟨31, 0, .ro, 0, true⟩]⟩,
    -- DDR_FREE (R330): COUNT
    ⟨0x070, [⟨31, 0, .ro, 0, true⟩]⟩,
    -- CANCEL_USE (R330): PEAK, USED
    ⟨0x074, [⟨28, 16, .rc, 0, false⟩, ⟨12, 0, .ro, 0, true⟩]⟩,
    -- ADMITS (R330): COUNT
    ⟨0x078, [⟨31, 0, .rc, 0, false⟩]⟩,
    -- ENDS (R330): COUNT
    ⟨0x07C, [⟨31, 0, .rc, 0, false⟩]⟩,
    -- DEFERRED (R330): COUNT
    ⟨0x080, [⟨31, 0, .rc, 0, false⟩]⟩,
    -- PREFIX_HITS (R330): COUNT
    ⟨0x084, [⟨31, 0, .rc, 0, false⟩]⟩,
    -- PREFIX_MISSES (R330): COUNT
    ⟨0x088, [⟨31, 0, .rc, 0, false⟩]⟩,
    -- SPILLS (R330): COUNT
    ⟨0x08C, [⟨31, 0, .rc, 0, false⟩]⟩,
    -- COW_COPIES (R330): COUNT
    ⟨0x090, [⟨31, 0, .rc, 0, false⟩]⟩,
    -- HANDLE_LO (R330): HANDLE
    ⟨0x094, [⟨31, 0, .rw, 0, false⟩]⟩,
    -- HANDLE_HI (R330): HANDLE
    ⟨0x098, [⟨31, 0, .rw, 0, false⟩]⟩,
    -- HANDLE_CTRL (R330): BUSY, RESULT, DROP
    ⟨0x09C, [⟨3, 3, .ro, 0, true⟩, ⟨2, 1, .ro, 0, false⟩, ⟨0, 0, .sc, 0, false⟩]⟩]

/-- Block registers of a STP page. -/
def regsSTP : List RegRow :=
  [
    -- STP_STATUS (R328): BUSY, MODEL
    ⟨0x040, [⟨16, 16, .ro, 0, true⟩, ⟨15, 0, .ro, 0, false⟩]⟩,
    -- STEPS (R328): COUNT
    ⟨0x044, [⟨31, 0, .rc, 0, false⟩]⟩,
    -- ROWS (R328): COUNT
    ⟨0x048, [⟨31, 0, .rc, 0, false⟩]⟩,
    -- SIT_OUTS (R328): COUNT
    ⟨0x04C, [⟨31, 0, .rc, 0, false⟩]⟩,
    -- DRAFTED (R328): COUNT
    ⟨0x050, [⟨31, 0, .rc, 0, false⟩]⟩,
    -- ACCEPTED (R328): COUNT
    ⟨0x054, [⟨31, 0, .rc, 0, false⟩]⟩,
    -- PREFILL_ROWS (R328): COUNT
    ⟨0x058, [⟨31, 0, .rc, 0, false⟩]⟩,
    -- EMPTY_STEPS (R328): COUNT
    ⟨0x05C, [⟨31, 0, .rc, 0, false⟩]⟩,
    -- STEP_TICKS (R328): TICKS
    ⟨0x060, [⟨31, 0, .ro, 0, false⟩]⟩]

/-- Block registers of a SEM page. -/
def regsSEM : List RegRow :=
  [
    -- SEM_SEL (R180): INDEX
    ⟨0x040, [⟨13, 0, .rw, 0, false⟩]⟩,
    -- SEM_VALUE (R180): VALUE
    ⟨0x044, [⟨31, 0, .rw, 0, true⟩]⟩,
    -- SEM_RESV (R180): RESERVED
    ⟨0x048, [⟨22, 0, .ro, 0, true⟩]⟩,
    -- SEM_FLAGS (R180): PARTITION, POISON, SAT_HI, SAT_LO
    ⟨0x04C, [⟨20, 16, .ro, 0x1F, true⟩, ⟨2, 2, .ro, 0, true⟩, ⟨1, 1, .w1c, 0, true⟩, ⟨0, 0, .w1c, 0, true⟩]⟩,
    -- LEND_TICKS (R180): LIMIT
    ⟨0x050, [⟨31, 0, .rw, 0x0007A120, false⟩]⟩,
    -- REPORT_TICKS (R180): LIMIT
    ⟨0x054, [⟨31, 0, .rw, 0x1DCD6500, false⟩]⟩,
    -- SAT_FIRST (R180): VALID, INDEX
    ⟨0x058, [⟨31, 31, .w1c, 0, false⟩, ⟨13, 0, .ro, 0, false⟩]⟩,
    -- FAULTS (R180): COUNT
    ⟨0x05C, [⟨31, 0, .rc, 0, false⟩]⟩,
    -- SATS (R180): COUNT
    ⟨0x060, [⟨31, 0, .rc, 0, false⟩]⟩,
    -- REMOTE_IN (R180): COUNT
    ⟨0x064, [⟨31, 0, .rc, 0, false⟩]⟩,
    -- LENDS (R180): COUNT
    ⟨0x068, [⟨31, 0, .rc, 0, false⟩]⟩,
    -- SEM_CORR (R180): COUNT
    ⟨0x06C, [⟨31, 0, .rc, 0, false⟩]⟩]

/-- Block registers of a STK page. -/
def regsSTK : List RegRow :=
  [
    -- STK_USE (R83): STAGING, USED
    ⟨0x040, [⟨27, 16, .ro, 0, true⟩, ⟨11, 0, .ro, 0, true⟩]⟩,
    -- STK_HOLDS (R83): COUNT
    ⟨0x044, [⟨31, 0, .rc, 0, false⟩]⟩,
    -- STK_CORR (R83): COUNT
    ⟨0x048, [⟨31, 0, .rc, 0, false⟩]⟩,
    -- STK_SPARE (R83): LEFT, USED
    ⟨0x04C, [⟨15, 8, .ro, 0, true⟩, ⟨7, 0, .ro, 0, true⟩]⟩]

/-- Block registers of a GRD page. -/
def regsGRD : List RegRow :=
  [
    -- CORE_STATE (R74): PHYS, PARTITION, STATE
    ⟨0x040, [⟨31, 24, .ro, 0, true⟩, ⟨20, 16, .ro, 0x1F, true⟩, ⟨1, 0, .ro, 0, true⟩]⟩,
    -- COLMAP (R75): BYP3, COL3, BYP2, COL2, BYP1, COL1, BYP0, COL0
    ⟨0x044, [⟨31, 31, .ro, 0, true⟩, ⟨29, 24, .ro, 0, true⟩, ⟨23, 23, .ro, 0, true⟩, ⟨21, 16, .ro, 0, true⟩, ⟨15, 15, .ro, 0, true⟩, ⟨13, 8, .ro, 0, true⟩, ⟨7, 7, .ro, 0, true⟩, ⟨5, 0, .ro, 0, true⟩]⟩,
    -- PACE_COUNT (R76): COUNT
    ⟨0x048, [⟨31, 0, .ro, 0, false⟩]⟩,
    -- PACE_CAL (R76): VALID, TICKS
    ⟨0x04C, [⟨31, 31, .ro, 0, false⟩, ⟨23, 0, .ro, 0, false⟩]⟩,
    -- G_STEPS0 (R77): STEPS
    ⟨0x050, [⟨31, 0, .ro, 0, false⟩]⟩,
    -- G_TICKS0 (R77): TICKS
    ⟨0x054, [⟨31, 0, .ro, 0, false⟩]⟩,
    -- G_STEPS1 (R77): STEPS
    ⟨0x058, [⟨31, 0, .ro, 0, false⟩]⟩,
    -- G_TICKS1 (R77): TICKS
    ⟨0x05C, [⟨31, 0, .ro, 0, false⟩]⟩,
    -- G_STEPS2 (R77): STEPS
    ⟨0x060, [⟨31, 0, .ro, 0, false⟩]⟩,
    -- G_TICKS2 (R77): TICKS
    ⟨0x064, [⟨31, 0, .ro, 0, false⟩]⟩,
    -- G_STEPS3 (R77): STEPS
    ⟨0x068, [⟨31, 0, .ro, 0, false⟩]⟩,
    -- G_TICKS3 (R77): TICKS
    ⟨0x06C, [⟨31, 0, .ro, 0, false⟩]⟩,
    -- GRD_CTRL (R78): CNT_CLR, CNT_EN
    ⟨0x070, [⟨1, 1, .sc, 0, false⟩, ⟨0, 0, .rw, 1, false⟩]⟩,
    -- WDOG_LIMIT (R78): LIMIT
    ⟨0x074, [⟨23, 0, .cm, 0x00F42400, false⟩]⟩]

/-- Block registers of a WSK page. -/
def regsWSK : List RegRow :=
  [
    -- WSK_STATUS (R81): FLUSH, BUSY
    ⟨0x040, [⟨1, 1, .ro, 0, true⟩, ⟨0, 0, .ro, 0, true⟩]⟩,
    -- WSK_STEPS (R81): STEPS
    ⟨0x044, [⟨31, 0, .ro, 0, false⟩]⟩,
    -- WSK_TICKS (R81): TICKS
    ⟨0x048, [⟨31, 0, .ro, 0, false⟩]⟩,
    -- WSK_NAN (R81): COUNT
    ⟨0x04C, [⟨31, 0, .rc, 0, false⟩]⟩]

/-- Block registers of a TRY page. -/
def regsTRY : List RegRow :=
  [
    -- TRY_USE (R82): CHAIN_KIB, USED_KIB
    ⟨0x040, [⟨27, 16, .ro, 0, true⟩, ⟨12, 0, .ro, 0, true⟩]⟩,
    -- TRY_PEAK (R82): PEAK_KIB
    ⟨0x044, [⟨12, 0, .rc, 0, false⟩]⟩,
    -- TRY_CORR (R82): COUNT
    ⟨0x048, [⟨31, 0, .rc, 0, false⟩]⟩,
    -- TRY_SPARE (R82): LEFT, USED
    ⟨0x04C, [⟨15, 8, .ro, 0, true⟩, ⟨7, 0, .ro, 0, true⟩]⟩]

/-- Block registers of a LDL page. -/
def regsLDL : List RegRow :=
  [
    -- LDL_STATUS (R207): PARTITION, STALLED, BUSY
    ⟨0x040, [⟨20, 16, .ro, 0x1F, true⟩, ⟨1, 1, .ro, 0, true⟩, ⟨0, 0, .ro, 0, true⟩]⟩,
    -- ROWS_READ (R207): COUNT
    ⟨0x044, [⟨31, 0, .rc, 0, false⟩]⟩,
    -- HOT_HITS (R207): COUNT
    ⟨0x048, [⟨31, 0, .rc, 0, false⟩]⟩,
    -- COALESCED (R207): COUNT
    ⟨0x04C, [⟨31, 0, .rc, 0, false⟩]⟩,
    -- INVALID (R207): COUNT
    ⟨0x050, [⟨31, 0, .rc, 0, false⟩]⟩,
    -- MISSING (R207): COUNT
    ⟨0x054, [⟨31, 0, .rc, 0, false⟩]⟩,
    -- STALL_USE (R207): PEAK, USED
    ⟨0x058, [⟨24, 16, .rc, 0, false⟩, ⟨8, 0, .ro, 0, true⟩]⟩,
    -- STALL_FULL (R207): COUNT
    ⟨0x05C, [⟨31, 0, .rc, 0, false⟩]⟩,
    -- SLOT_SEL (R207): INDEX
    ⟨0x060, [⟨11, 0, .rw, 0, false⟩]⟩,
    -- SLOT_VERSION (R207): VERSION
    ⟨0x064, [⟨31, 0, .ro, 0, true⟩]⟩,
    -- SLOT_DESC_LO (R207): DESC_LO
    ⟨0x068, [⟨31, 0, .ro, 0, true⟩]⟩,
    -- SLOT_DESC_HI (R207): DESC_HI
    ⟨0x06C, [⟨31, 0, .ro, 0, true⟩]⟩,
    -- SLOT_USERS (R207): OLD, CURRENT
    ⟨0x070, [⟨25, 16, .ro, 0, true⟩, ⟨9, 0, .ro, 0, true⟩]⟩]

/-- Block registers of a SKM page. -/
def regsSKM : List RegRow :=
  [
    -- SKM_STATUS (R240): PARTITION, ACTIVE
    ⟨0x040, [⟨20, 16, .ro, 0x1F, true⟩, ⟨4, 0, .ro, 0, true⟩]⟩,
    -- BEAM_CFG (R240): WIDTH
    ⟨0x044, [⟨4, 0, .cm, 8, false⟩]⟩,
    -- QUERIES (R240): COUNT
    ⟨0x048, [⟨31, 0, .rc, 0, false⟩]⟩,
    -- EXPANSIONS (R240): COUNT
    ⟨0x04C, [⟨31, 0, .rc, 0, false⟩]⟩,
    -- KEYS (R240): COUNT
    ⟨0x050, [⟨31, 0, .rc, 0, false⟩]⟩,
    -- DOUBLINGS (R240): COUNT
    ⟨0x054, [⟨31, 0, .rc, 0, false⟩]⟩,
    -- FILTER_SHORT (R240): COUNT
    ⟨0x058, [⟨31, 0, .rc, 0, false⟩]⟩,
    -- NAN_KEYS (R240): COUNT
    ⟨0x05C, [⟨31, 0, .rc, 0, false⟩]⟩,
    -- VISIT_FULL (R240): COUNT
    ⟨0x060, [⟨31, 0, .rc, 0, false⟩]⟩,
    -- REFINE_READS (R240): COUNT
    ⟨0x064, [⟨31, 0, .rc, 0, false⟩]⟩,
    -- SLOT_SEL (R240): INDEX
    ⟨0x068, [⟨7, 0, .rw, 0, false⟩]⟩,
    -- SLOT_VERSION (R240): VERSION
    ⟨0x06C, [⟨31, 0, .ro, 0, true⟩]⟩,
    -- SLOT_DESC_LO (R240): DESC_LO
    ⟨0x070, [⟨31, 0, .ro, 0, true⟩]⟩,
    -- SLOT_DESC_HI (R240): DESC_HI
    ⟨0x074, [⟨31, 0, .ro, 0, true⟩]⟩,
    -- SLOT_SEQ (R240): SEQ
    ⟨0x078, [⟨31, 0, .ro, 0, true⟩]⟩,
    -- SLOT_SIDE (R240): COUNT
    ⟨0x07C, [⟨24, 0, .ro, 0, true⟩]⟩,
    -- SLOT_USERS (R240): OLD, CURRENT
    ⟨0x080, [⟨25, 16, .ro, 0, true⟩, ⟨9, 0, .ro, 0, true⟩]⟩]

/-- Block registers of a SIV page. -/
def regsSIV : List RegRow :=
  [
    -- SIV_STATUS (R261): PARTITION, SKM, BUSY
    ⟨0x040, [⟨20, 16, .ro, 0x1F, true⟩, ⟨1, 1, .ro, 0, true⟩, ⟨0, 0, .ro, 0, true⟩]⟩,
    -- ROWS (R261): COUNT
    ⟨0x044, [⟨31, 0, .rc, 0, false⟩]⟩,
    -- KEYS (R261): COUNT
    ⟨0x048, [⟨31, 0, .rc, 0, false⟩]⟩,
    -- PASSES (R261): COUNT
    ⟨0x04C, [⟨31, 0, .rc, 0, false⟩]⟩,
    -- NAN (R261): COUNT
    ⟨0x050, [⟨31, 0, .rc, 0, false⟩]⟩,
    -- DUPS (R261): COUNT
    ⟨0x054, [⟨31, 0, .rc, 0, false⟩]⟩,
    -- SAMPLES (R261): COUNT
    ⟨0x058, [⟨31, 0, .rc, 0, false⟩]⟩,
    -- SKM_SETS (R261): COUNT
    ⟨0x05C, [⟨31, 0, .rc, 0, false⟩]⟩,
    -- WORK_USE (R261): USED
    ⟨0x060, [⟨11, 0, .ro, 0, true⟩]⟩]

/-- Block registers of a MDL page. -/
def regsMDL : List RegRow :=
  [
    -- MDL_STATUS (R292): PARTITION, PACK, BUSY
    ⟨0x040, [⟨20, 16, .ro, 0x1F, true⟩, ⟨1, 1, .ro, 0, true⟩, ⟨0, 0, .ro, 0, true⟩]⟩,
    -- BYTES (R292): COUNT
    ⟨0x044, [⟨31, 0, .rc, 0, false⟩]⟩,
    -- TOKENS (R292): COUNT
    ⟨0x048, [⟨31, 0, .rc, 0, false⟩]⟩,
    -- INVALID_SEQS (R292): COUNT
    ⟨0x04C, [⟨31, 0, .rc, 0, false⟩]⟩,
    -- TRUNCATIONS (R292): COUNT
    ⟨0x050, [⟨31, 0, .rc, 0, false⟩]⟩,
    -- SLOT_SEL (R292): INDEX
    ⟨0x054, [⟨9, 0, .rw, 0, false⟩]⟩,
    -- SLOT_KIND (R292): KIND
    ⟨0x058, [⟨1, 0, .cm, 0, true⟩]⟩,
    -- SLOT_VERSION (R292): VERSION
    ⟨0x05C, [⟨31, 0, .cm, 0, true⟩]⟩,
    -- SLOT_PTR_LO (R292): PTR_LO
    ⟨0x060, [⟨31, 0, .cm, 0, true⟩]⟩,
    -- SLOT_PTR_HI (R292): PTR_HI
    ⟨0x064, [⟨31, 0, .cm, 0, true⟩]⟩,
    -- SLOT_USERS (R292): OLD, CURRENT
    ⟨0x068, [⟨25, 16, .ro, 0, true⟩, ⟨9, 0, .ro, 0, true⟩]⟩,
    -- SLOT_CHECK (R292): FAIL, OFFSET, SLOT
    ⟨0x06C, [⟨31, 31, .w1c, 0, false⟩, ⟨23, 16, .ro, 0, false⟩, ⟨9, 0, .ro, 0, false⟩]⟩]

/-- Block registers of a STN page. -/
def regsSTN : List RegRow :=
  [
    -- STN_STATUS (R293): PARTITION, BUSY
    ⟨0x040, [⟨20, 16, .ro, 0x1F, true⟩, ⟨0, 0, .ro, 0, true⟩]⟩,
    -- TOKENS (R293): COUNT
    ⟨0x044, [⟨31, 0, .rc, 0, false⟩]⟩,
    -- BYTES_OUT (R293): COUNT
    ⟨0x048, [⟨31, 0, .rc, 0, false⟩]⟩,
    -- STOPS (R293): COUNT
    ⟨0x04C, [⟨31, 0, .rc, 0, false⟩]⟩,
    -- REPLACED (R293): COUNT
    ⟨0x050, [⟨31, 0, .rc, 0, false⟩]⟩]

/-- Block registers of a CUT page. -/
def regsCUT : List RegRow :=
  [
    -- CUT_STATUS (R293): PARTITION, BUSY
    ⟨0x040, [⟨20, 16, .ro, 0x1F, true⟩, ⟨0, 0, .ro, 0, true⟩]⟩,
    -- MASKS (R293): COUNT
    ⟨0x044, [⟨31, 0, .rc, 0, false⟩]⟩,
    -- RUNS_READ (R293): COUNT
    ⟨0x048, [⟨31, 0, .rc, 0, false⟩]⟩,
    -- EMPTY_MASKS (R293): COUNT
    ⟨0x04C, [⟨31, 0, .rc, 0, false⟩]⟩,
    -- MALFORMED (R293): COUNT
    ⟨0x050, [⟨31, 0, .rc, 0, false⟩]⟩]

/-- Block registers of a HBM page. -/
def regsHBM : List RegRow :=
  [
    -- HBM_STATUS (R371): FALLBACK, TRAINED, PRESENT
    ⟨0x040, [⟨2, 2, .ro, 0, true⟩, ⟨1, 1, .ro, 0, true⟩, ⟨0, 0, .ro, 0, true⟩]⟩,
    -- HBM_TEMP (R371): PEAK, TEMP
    ⟨0x044, [⟨15, 8, .rc, 0, false⟩, ⟨7, 0, .ro, 0, false⟩]⟩,
    -- HBM_CAP (R371): RETIRED, USABLE_MIB
    ⟨0x048, [⟨31, 16, .ro, 0, true⟩, ⟨15, 0, .ro, 0, true⟩]⟩,
    -- HBM_RD (R371): COUNT
    ⟨0x04C, [⟨31, 0, .rc, 0, false⟩]⟩,
    -- HBM_WR (R371): COUNT
    ⟨0x050, [⟨31, 0, .rc, 0, false⟩]⟩,
    -- HBM_RETRAIN (R371): COUNT
    ⟨0x054, [⟨31, 0, .rc, 0, false⟩]⟩]

/-- Block registers of a DDR page. -/
def regsDDR : List RegRow :=
  [
    -- DDR_STATUS (R372): MODULE_GIB, RANKS, RATE, TRAINED, PRESENT
    ⟨0x040, [⟨31, 20, .ro, 0, true⟩, ⟨7, 6, .ro, 0, true⟩, ⟨5, 5, .ro, 0, true⟩, ⟨1, 1, .ro, 0, true⟩, ⟨0, 0, .ro, 0, true⟩]⟩,
    -- DDR_CFG (R372): SPREAD
    ⟨0x044, [⟨3, 0, .cm, 6, false⟩]⟩,
    -- DDR_RD (R372): COUNT
    ⟨0x048, [⟨31, 0, .rc, 0, false⟩]⟩,
    -- DDR_WR (R372): COUNT
    ⟨0x04C, [⟨31, 0, .rc, 0, false⟩]⟩,
    -- DDR_RETRAIN (R372): COUNT
    ⟨0x050, [⟨31, 0, .rc, 0, false⟩]⟩]

/-- Block registers of a ARB page. -/
def regsARB : List RegRow :=
  [
    -- ARB_STATUS (R385): GRANT_PORT, PICK_HELD, GRANTED
    ⟨0x040, [⟨12, 8, .ro, 0, true⟩, ⟨1, 1, .ro, 0, true⟩, ⟨0, 0, .ro, 0, true⟩]⟩,
    -- CLASS_WEIGHT (R385): W
    ⟨0x044, [⟨31, 0, .cm, 0x4A86AC88, false⟩]⟩,
    -- WDOG_LIMIT (R385): LIMIT
    ⟨0x048, [⟨23, 0, .cm, 0x000F4240, false⟩]⟩,
    -- PORT_SEL (R385): PORT
    ⟨0x04C, [⟨4, 0, .rw, 0, false⟩]⟩,
    -- PORT_INFO (R385): OUT, LOSSES, BACKOFF, HEAD_AGE, DEPTH
    ⟨0x050, [⟨31, 31, .ro, 0, true⟩, ⟨30, 27, .ro, 0, true⟩, ⟨26, 16, .ro, 0, true⟩, ⟨13, 6, .ro, 0, true⟩, ⟨5, 0, .ro, 0, true⟩]⟩,
    -- PORT_CTRL (R385): RESTORE
    ⟨0x054, [⟨0, 0, .sc, 0, false⟩]⟩,
    -- GRANTS (R385): COUNT
    ⟨0x058, [⟨31, 0, .rc, 0, false⟩]⟩,
    -- BACKOFFS (R385): COUNT
    ⟨0x05C, [⟨31, 0, .rc, 0, false⟩]⟩,
    -- STALE (R385): COUNT
    ⟨0x060, [⟨31, 0, .rc, 0, false⟩]⟩,
    -- BYPASS (R385): COUNT
    ⟨0x064, [⟨31, 0, .rc, 0, false⟩]⟩,
    -- BITES (R385): COUNT
    ⟨0x068, [⟨31, 0, .rc, 0, false⟩]⟩]

/-- Block registers of a NETP page. -/
def regsNETP : List RegRow :=
  [
    -- PORT_CFG (R450): MACSEC_EN, PFC_PRIO, PFC_EN, MODE
    ⟨0x040, [⟨8, 8, .cm, 0, false⟩, ⟨6, 4, .cm, 3, false⟩, ⟨3, 3, .cm, 0, false⟩, ⟨1, 0, .cm, 0, false⟩]⟩,
    -- PORT_STATUS (R450): LANES_OK, RATE, LINK
    ⟨0x044, [⟨31, 28, .ro, 0xF, true⟩, ⟨15, 12, .ro, 0, true⟩, ⟨3, 0, .ro, 0, true⟩]⟩,
    -- SUB_SEL (R450): SUB
    ⟨0x048, [⟨1, 0, .rw, 0, false⟩]⟩,
    -- SUB_MTU (R450): MTU
    ⟨0x04C, [⟨13, 0, .cm, 1500, false⟩]⟩,
    -- SUB_VLAN (R450): REPLAY, TAGGED, PCP, VID
    ⟨0x050, [⟨31, 16, .cm, 0, false⟩, ⟨15, 15, .cm, 0, false⟩, ⟨14, 12, .cm, 0, false⟩, ⟨11, 0, .cm, 0, false⟩]⟩,
    -- GW_MAC_LO (R450): GW
    ⟨0x054, [⟨31, 0, .cm, 0, false⟩]⟩,
    -- GW_MAC_HI (R450): GW
    ⟨0x058, [⟨15, 0, .cm, 0, false⟩]⟩,
    -- MAC_LO (R450): MAC
    ⟨0x05C, [⟨31, 0, .ro, 0, true⟩]⟩,
    -- MAC_HI (R450): MAC
    ⟨0x060, [⟨15, 0, .ro, 0, true⟩]⟩,
    -- FEC_CORR (R450): COUNT
    ⟨0x064, [⟨31, 0, .rc, 0, false⟩]⟩,
    -- FEC_UNCORR (R450): COUNT
    ⟨0x068, [⟨31, 0, .rc, 0, false⟩]⟩,
    -- RX_FRAMES (R450): COUNT
    ⟨0x06C, [⟨31, 0, .rc, 0, false⟩]⟩,
    -- TX_FRAMES (R450): COUNT
    ⟨0x070, [⟨31, 0, .rc, 0, false⟩]⟩,
    -- RX_DROP (R450): COUNT
    ⟨0x074, [⟨31, 0, .rc, 0, false⟩]⟩,
    -- CE_MARKED (R450): COUNT
    ⟨0x078, [⟨31, 0, .rc, 0, false⟩]⟩,
    -- MACSEC_DROP (R450): COUNT
    ⟨0x07C, [⟨31, 0, .rc, 0, false⟩]⟩,
    -- RETRAIN (R450): COUNT
    ⟨0x080, [⟨31, 0, .rc, 0, false⟩]⟩]

/-- Block registers of a NETF page. -/
def regsNETF : List RegRow :=
  [
    -- ADDR_SEL (R451): VALID, INDEX
    ⟨0x040, [⟨31, 31, .cm, 0, false⟩, ⟨2, 0, .rw, 0, false⟩]⟩,
    -- ADDR_W0 (R451): WORD
    ⟨0x044, [⟨31, 0, .cm, 0, false⟩]⟩,
    -- ADDR_W1 (R451): WORD
    ⟨0x048, [⟨31, 0, .cm, 0, false⟩]⟩,
    -- ADDR_W2 (R451): WORD
    ⟨0x04C, [⟨31, 0, .cm, 0, false⟩]⟩,
    -- ADDR_W3 (R451): WORD
    ⟨0x050, [⟨31, 0, .cm, 0, false⟩]⟩,
    -- QP_ERRORS (R451): COUNT
    ⟨0x054, [⟨31, 0, .rc, 0, false⟩]⟩,
    -- RNR_NAKS (R451): COUNT
    ⟨0x058, [⟨31, 0, .rc, 0, false⟩]⟩,
    -- CNP_SENT (R451): COUNT
    ⟨0x05C, [⟨31, 0, .rc, 0, false⟩]⟩,
    -- CNP_RECV (R451): COUNT
    ⟨0x060, [⟨31, 0, .rc, 0, false⟩]⟩,
    -- MGMT_OK (R451): COUNT
    ⟨0x064, [⟨31, 0, .rc, 0, false⟩]⟩,
    -- MGMT_DROP (R451): COUNT
    ⟨0x068, [⟨31, 0, .rc, 0, false⟩]⟩,
    -- STRAY (R451): COUNT
    ⟨0x06C, [⟨31, 0, .rc, 0, false⟩]⟩]

/-- Block registers of a NETB page. -/
def regsNETB : List RegRow :=
  [
    -- DEVICE_ID (R452): ID
    ⟨0x040, [⟨15, 0, .rw, 0xFFFF, false⟩]⟩,
    -- FAB_PREFIX_LO (R452): PREFIX
    ⟨0x044, [⟨31, 0, .rw, 0, false⟩]⟩,
    -- FAB_PREFIX_HI (R452): PREFIX
    ⟨0x048, [⟨31, 0, .rw, 0, false⟩]⟩,
    -- FAB_CFG (R452): RETRY_LIMIT, PATHS
    ⟨0x04C, [⟨23, 16, .cm, 16, false⟩, ⟨14, 0, .cm, 256, false⟩]⟩,
    -- FAB_RTO (R452): MIN
    ⟨0x050, [⟨31, 0, .cm, 0x0000C350, false⟩]⟩,
    -- FAB_RATE (R452): RATE_MIN, AI
    ⟨0x054, [⟨23, 16, .cm, 1, false⟩, ⟨15, 0, .cm, 20, false⟩]⟩,
    -- CONN_USE (R452): PEAK, USED
    ⟨0x058, [⟨31, 16, .rc, 0, false⟩, ⟨15, 0, .ro, 0, true⟩]⟩,
    -- ITEM_USE (R452): USED
    ⟨0x05C, [⟨16, 0, .ro, 0, true⟩]⟩,
    -- RETX (R452): COUNT
    ⟨0x060, [⟨31, 0, .rc, 0, false⟩]⟩,
    -- NACKS (R452): COUNT
    ⟨0x064, [⟨31, 0, .rc, 0, false⟩]⟩,
    -- DUPS (R452): COUNT
    ⟨0x068, [⟨31, 0, .rc, 0, false⟩]⟩,
    -- PEERS_DOWN (R452): COUNT
    ⟨0x06C, [⟨31, 0, .rc, 0, false⟩]⟩]

/-- The block registers of each kind of page. -/
def regRows : PageKind → List RegRow
  | .cap => regsCAP
  | .mgt => regsMGT
  | .sec => regsSEC
  | .rtc => regsRTC
  | .err => regsERR
  | .trv => regsTRV
  | .sup => regsSUP
  | .fls => regsFLS
  | .tng => regsTNG
  | .prt => regsPRT
  | .cmd => regsCMD
  | .fnl => regsFNL
  | .srv => regsSRV
  | .stp => regsSTP
  | .sem => regsSEM
  | .stk => regsSTK
  | .grd => regsGRD
  | .wsk => regsWSK
  | .tray => regsTRY
  | .ldl => regsLDL
  | .skm => regsSKM
  | .siv => regsSIV
  | .mdl => regsMDL
  | .stn => regsSTN
  | .cut => regsCUT
  | .hbm => regsHBM
  | .ddr => regsDDR
  | .arb => regsARB
  | .netp => regsNETP
  | .netf => regsNETF
  | .netb => regsNETB

/-- Defined positions of ERR_STATUS, ERR_MASK and EVENT_EN of each kind of page (R526), as bit positions. -/
def errBits : PageKind → List Nat
  | .cap => []
  | .mgt => [4, 3, 2, 1, 0]  -- R518,R576: 4 CLOCK_LOST, 3 SVN_FULL, 2 DEBUG_OPEN, 1 SLOT_FALLBACK, 0 CE
  | .sec => [3, 2, 1, 0]  -- R518: 3 UE, 2 ID_LOW, 1 ATT_FAIL, 0 ACCESS_FAULT
  | .rtc => [2, 1, 0]  -- R518: 2 SET, 1 OSC_STOP, 0 VBAT_LOW
  | .err => [4, 3, 2, 1, 0]  -- R490: 4 HOLE, 3 HIST_FULL, 2 EXHAUSTED, 1 SPARE_LOW, 0 REPAIR
  | .trv => [5, 4, 3, 2, 1, 0]  -- R473: 5 TRIP, 4 PMBUS, 3 LIMIT, 2 THERMAL, 1 OVERRUN, 0 LAGGARD
  | .sup => [2, 1, 0]  -- R476: 2 ISLAND_RESET, 1 DIE_RESET, 0 WARNING
  | .fls => [7, 6, 5, 4, 3, 2, 1, 0]  -- R412: 7 LIFE_LOW, 6 READ_ONLY, 5 DIE_LOST, 4 UNIT_LOST, 3 REBUILD, 2 POPULATION, 1 UE, 0 CE
  | .tng => [2, 1, 0]  -- R373: 2 ABANDONED, 1 UE, 0 CE
  | .prt => [2, 1, 0]  -- R348: 2 OVERSUB, 1 RUN_FAIL, 0 SWITCH_DONE
  | .cmd => [3, 2, 1, 0]  -- R165: 3 BAD_COUNT, 2 LIST_FETCH, 1 RING_FULL, 0 REJECT
  | .fnl => [2, 1]  -- R373: 2 LIST_REJECT, 1 WINDOW_FULL
  | .srv => [7, 6, 5, 4, 3, 2, 1, 0]  -- R331: 7 CFG_REJECT, 6 POOL_LOW, 5 PEER_NO_ACK, 4 CANCEL_FULL, 3 REGISTRY_FULL, 2 OUT_OF_PAGES, 1 UE, 0 CE
  | .stp => [2, 1, 0]  -- R329: 2 STEP_FAIL, 1 UE, 0 CE
  | .sem => [4, 3, 2, 1, 0]  -- R181: 4 UE, 3 CE, 2 REMOTE_FAULT, 1 FAULT, 0 SAT
  | .stk => [1, 0]  -- R84: 1 UE, 0 CE
  | .grd => [4, 3, 2, 1, 0]  -- R80: 4 RETIRE, 3 COL_FAULT, 2 WDOG, 1 UE, 0 CE
  | .wsk => [1, 0]  -- R84: 1 UE, 0 CE
  | .tray => [1, 0]  -- R84: 1 UE, 0 CE
  | .ldl => [3, 2, 1, 0]  -- R208: 3 STALL_FULL, 2 FAULT, 1 UE, 0 CE
  | .skm => [3, 2, 1, 0]  -- R241: 3 SIDE_HIGH, 2 FAULT, 1 UE, 0 CE
  | .siv => [2, 1, 0]  -- R262: 2 FAULT, 1 UE, 0 CE
  | .mdl => [3, 2, 1, 0]  -- R294: 3 SLOT_REJECT, 2 FAULT, 1 UE, 0 CE
  | .stn => [2, 1, 0]  -- R294: 2 FAULT, 1 UE, 0 CE
  | .cut => [3, 2, 1, 0]  -- R294: 3 MALFORMED, 2 FAULT, 1 UE, 0 CE
  | .hbm => [3, 2, 1, 0]  -- R373: 3 RETRAIN, 2 FALLBACK, 1 UE, 0 CE
  | .ddr => [3, 2, 1, 0]  -- R373: 3 RETRAIN, 2 POPULATION, 1 UE, 0 CE
  | .arb => [3, 2, 1, 0]  -- R386: 3 UE, 2 PORT_OUT, 1 BITE, 0 CE
  | .netp => [4, 3, 2, 1, 0]  -- R453: 4 PN_HIGH, 3 FEC_UE, 2 DEGRADE, 1 LINK, 0 CE
  | .netf => [4, 1, 0]  -- R453: 4 UE, 1 AUTH, 0 QP_ERROR
  | .netb => [4, 3, 2, 1, 0]  -- R453: 4 UE, 3 LAG, 2 NACK_FAULT, 1 PEER_DOWN, 0 CE

/-- Position of the bit named CE on each kind of page, where it has one (R527, counter 0x038). -/
def ceBit : PageKind → Option Nat
  | .cap => none
  | .mgt => some 0
  | .sec => none
  | .rtc => none
  | .err => none
  | .trv => none
  | .sup => none
  | .fls => some 0
  | .tng => some 0
  | .prt => none
  | .cmd => none
  | .fnl => none
  | .srv => some 0
  | .stp => some 0
  | .sem => some 3
  | .stk => some 0
  | .grd => some 0
  | .wsk => some 0
  | .tray => some 0
  | .ldl => some 0
  | .skm => some 0
  | .siv => some 0
  | .mdl => some 0
  | .stn => some 0
  | .cut => some 0
  | .hbm => some 0
  | .ddr => some 0
  | .arb => some 0
  | .netp => some 0
  | .netf => none
  | .netb => some 0

/-- Position of the bit named UE on each kind of page, where it has one (R527, counter 0x03C). -/
def ueBit : PageKind → Option Nat
  | .cap => none
  | .mgt => none
  | .sec => some 3
  | .rtc => none
  | .err => none
  | .trv => none
  | .sup => none
  | .fls => some 1
  | .tng => some 1
  | .prt => none
  | .cmd => none
  | .fnl => none
  | .srv => some 1
  | .stp => some 1
  | .sem => some 4
  | .stk => some 1
  | .grd => some 1
  | .wsk => some 1
  | .tray => some 1
  | .ldl => some 1
  | .skm => some 1
  | .siv => some 1
  | .mdl => some 1
  | .stn => some 1
  | .cut => some 1
  | .hbm => some 1
  | .ddr => some 1
  | .arb => some 3
  | .netp => none
  | .netf => some 4
  | .netb => some 4

/-! Offsets of the common header (R523) and of the block registers, by name. -/

abbrev oHDR_PAGE_ID : Nat := 0x000
abbrev oHDR_PAGE_VER : Nat := 0x004
abbrev oHDR_CAP_NEXT : Nat := 0x008
abbrev oHDR_PAGE_INDEX : Nat := 0x00C
abbrev oHDR_STATUS : Nat := 0x010
abbrev oHDR_CONTROL : Nat := 0x014
abbrev oHDR_ERR_STATUS : Nat := 0x018
abbrev oHDR_ERR_MASK : Nat := 0x01C
abbrev oHDR_EVENT_EN : Nat := 0x020
abbrev oHDR_SHADOW_COMMIT : Nat := 0x024
abbrev oHDR_EVENTS : Nat := 0x028
abbrev oHDR_SUPPRESSED : Nat := 0x02C
abbrev oHDR_REG_FAULTS : Nat := 0x030
abbrev oHDR_COMMITS : Nat := 0x034
abbrev oHDR_CE : Nat := 0x038
abbrev oHDR_UE : Nat := 0x03C
abbrev oCAP_DEVICE_ID : Nat := 0x040
abbrev oCAP_SERIAL_LO : Nat := 0x044
abbrev oCAP_SERIAL_HI : Nat := 0x048
abbrev oCAP_PAGE_RANGE : Nat := 0x04C
abbrev oCAP_CAP_COUNT : Nat := 0x050
abbrev oCAP_EVT_ROUTE : Nat := 0x054
abbrev oMGT_MGT_STATUS : Nat := 0x040
abbrev oMGT_BOOT_CFG : Nat := 0x044
abbrev oMGT_SVN_CTRL : Nat := 0x048
abbrev oMGT_DEBUG_CTRL : Nat := 0x04C
abbrev oMGT_LOG_STATUS : Nat := 0x050
abbrev oMGT_LOG_SEL : Nat := 0x054
abbrev oMGT_LOG_W0 : Nat := 0x058
abbrev oMGT_LOG_W1 : Nat := 0x05C
abbrev oMGT_LOG_W2 : Nat := 0x060
abbrev oMGT_LOG_W3 : Nat := 0x064
abbrev oMGT_LOG_W4 : Nat := 0x068
abbrev oMGT_LOG_W5 : Nat := 0x06C
abbrev oMGT_LOG_W6 : Nat := 0x070
abbrev oMGT_LOG_W7 : Nat := 0x074
abbrev oMGT_READY_CFG : Nat := 0x078
abbrev oMGT_READY_IP_W0 : Nat := 0x07C
abbrev oMGT_READY_IP_W1 : Nat := 0x080
abbrev oMGT_READY_IP_W2 : Nat := 0x084
abbrev oMGT_READY_IP_W3 : Nat := 0x088
abbrev oMGT_BOOT_MS : Nat := 0x08C
abbrev oMGT_RESET_CAUSE : Nat := 0x090
abbrev oMGT_PAD_CFG : Nat := 0x094
abbrev oMGT_SSC_CFG : Nat := 0x098
abbrev oSEC_SEC_STATUS : Nat := 0x040
abbrev oSEC_KEY_SEL : Nat := 0x044
abbrev oSEC_KEY_W0 : Nat := 0x048
abbrev oSEC_KEY_W1 : Nat := 0x04C
abbrev oSEC_KEY_W2 : Nat := 0x050
abbrev oSEC_KEY_W3 : Nat := 0x054
abbrev oSEC_KEY_W4 : Nat := 0x058
abbrev oSEC_KEY_W5 : Nat := 0x05C
abbrev oSEC_KEY_W6 : Nat := 0x060
abbrev oSEC_KEY_W7 : Nat := 0x064
abbrev oSEC_KEY_CTRL : Nat := 0x068
abbrev oSEC_NONCE_W0 : Nat := 0x06C
abbrev oSEC_NONCE_W1 : Nat := 0x070
abbrev oSEC_NONCE_W2 : Nat := 0x074
abbrev oSEC_NONCE_W3 : Nat := 0x078
abbrev oSEC_NONCE_W4 : Nat := 0x07C
abbrev oSEC_NONCE_W5 : Nat := 0x080
abbrev oSEC_NONCE_W6 : Nat := 0x084
abbrev oSEC_NONCE_W7 : Nat := 0x088
abbrev oSEC_ATT_ADDR_LO : Nat := 0x08C
abbrev oSEC_ATT_ADDR_HI : Nat := 0x090
abbrev oSEC_ATT_CTRL : Nat := 0x094
abbrev oSEC_LEAF_NEXT : Nat := 0x098
abbrev oSEC_LEAF_RESERVED : Nat := 0x09C
abbrev oSEC_MEAS_SEL : Nat := 0x0A0
abbrev oSEC_MEAS_W0 : Nat := 0x0A4
abbrev oSEC_MEAS_W1 : Nat := 0x0A8
abbrev oSEC_MEAS_W2 : Nat := 0x0AC
abbrev oSEC_MEAS_W3 : Nat := 0x0B0
abbrev oSEC_MEAS_W4 : Nat := 0x0B4
abbrev oSEC_MEAS_W5 : Nat := 0x0B8
abbrev oSEC_MEAS_W6 : Nat := 0x0BC
abbrev oSEC_MEAS_W7 : Nat := 0x0C0
abbrev oSEC_EXTEND_W0 : Nat := 0x0C4
abbrev oSEC_EXTEND_W1 : Nat := 0x0C8
abbrev oSEC_EXTEND_W2 : Nat := 0x0CC
abbrev oSEC_EXTEND_W3 : Nat := 0x0D0
abbrev oSEC_EXTEND_W4 : Nat := 0x0D4
abbrev oSEC_EXTEND_W5 : Nat := 0x0D8
abbrev oSEC_EXTEND_W6 : Nat := 0x0DC
abbrev oSEC_EXTEND_W7 : Nat := 0x0E0
abbrev oSEC_EXTEND_CTRL : Nat := 0x0E4
abbrev oSEC_FAULTS : Nat := 0x0E8
abbrev oSEC_FAULT_FIRST : Nat := 0x0EC
abbrev oSEC_FAULT_ADDR_LO : Nat := 0x0F0
abbrev oSEC_FAULT_ADDR_HI : Nat := 0x0F4
abbrev oSEC_ACC_SEL : Nat := 0x0F8
abbrev oSEC_ACC_INFO : Nat := 0x0FC
abbrev oSEC_PUBKEY_SEL : Nat := 0x100
abbrev oSEC_PUBKEY : Nat := 0x104
abbrev oRTC_RTC_STATUS : Nat := 0x040
abbrev oRTC_SEC_LO : Nat := 0x044
abbrev oRTC_SEC_HI : Nat := 0x048
abbrev oRTC_FRAC : Nat := 0x04C
abbrev oRTC_SET_LO : Nat := 0x050
abbrev oRTC_SET_HI : Nat := 0x054
abbrev oRTC_SET_FRAC : Nat := 0x058
abbrev oRTC_RTC_CTRL : Nat := 0x05C
abbrev oRTC_TRIM : Nat := 0x060
abbrev oRTC_SETS : Nat := 0x064
abbrev oERR_ERR_CFG : Nat := 0x040
abbrev oERR_LOG_STATUS : Nat := 0x044
abbrev oERR_LOG_SEL : Nat := 0x048
abbrev oERR_LOG_W0 : Nat := 0x04C
abbrev oERR_LOG_W1 : Nat := 0x050
abbrev oERR_LOG_W2 : Nat := 0x054
abbrev oERR_LOG_W3 : Nat := 0x058
abbrev oERR_HIST_COUNT : Nat := 0x05C
abbrev oERR_HIST_SEL : Nat := 0x060
abbrev oERR_HIST_W0 : Nat := 0x064
abbrev oERR_HIST_W1 : Nat := 0x068
abbrev oERR_HIST_W2 : Nat := 0x06C
abbrev oERR_HIST_W3 : Nat := 0x070
abbrev oERR_TRANSIENTS : Nat := 0x074
abbrev oERR_LASTING : Nat := 0x078
abbrev oERR_ABANDONED : Nat := 0x07C
abbrev oERR_SPARE_CORES : Nat := 0x080
abbrev oERR_SPARE_MEM : Nat := 0x084
abbrev oERR_HOLES : Nat := 0x088
abbrev oERR_TESTING : Nat := 0x08C
abbrev oTRV_TRV_STATUS : Nat := 0x040
abbrev oTRV_PKG_LIMIT : Nat := 0x044
abbrev oTRV_THERM_CFG : Nat := 0x048
abbrev oTRV_CLASS_W0 : Nat := 0x04C
abbrev oTRV_CLASS_W1 : Nat := 0x050
abbrev oTRV_CLASS_W2 : Nat := 0x054
abbrev oTRV_CLASS_W3 : Nat := 0x058
abbrev oTRV_HOLD_CFG : Nat := 0x05C
abbrev oTRV_DIE_SEL : Nat := 0x060
abbrev oTRV_DIE_BUDGET : Nat := 0x064
abbrev oTRV_DIE_POOL : Nat := 0x068
abbrev oTRV_DIE_TEMP : Nat := 0x06C
abbrev oTRV_DIE_VSET : Nat := 0x070
abbrev oTRV_RAIL_SEL : Nat := 0x074
abbrev oTRV_ENERGY_LO : Nat := 0x078
abbrev oTRV_ENERGY_HI : Nat := 0x07C
abbrev oTRV_RAIL_POWER : Nat := 0x080
abbrev oTRV_PMB_CFG : Nat := 0x084
abbrev oTRV_HOLDS : Nat := 0x088
abbrev oTRV_GATINGS : Nat := 0x08C
abbrev oTRV_BORROWS : Nat := 0x090
abbrev oTRV_LAGGARDS : Nat := 0x094
abbrev oTRV_V_CHANGES : Nat := 0x098
abbrev oSUP_SUP_SEL : Nat := 0x040
abbrev oSUP_SUP_STATUS : Nat := 0x044
abbrev oSUP_SUP_LEVELS : Nat := 0x048
abbrev oSUP_WARNINGS : Nat := 0x04C
abbrev oSUP_RESETS : Nat := 0x050
abbrev oSUP_WARN_TICKS : Nat := 0x054
abbrev oSUP_CLEAR_TICKS : Nat := 0x058
abbrev oFLS_FLS_STATUS : Nat := 0x040
abbrev oFLS_FLS_CTRL : Nat := 0x044
abbrev oFLS_LOGICAL : Nat := 0x048
abbrev oFLS_GOOD_RAW : Nat := 0x04C
abbrev oFLS_SLC_TARGET : Nat := 0x050
abbrev oFLS_SLC_HELD : Nat := 0x054
abbrev oFLS_BG_CFG : Nat := 0x058
abbrev oFLS_WL_CFG : Nat := 0x05C
abbrev oFLS_PATROL_CFG : Nat := 0x060
abbrev oFLS_LIFE : Nat := 0x064
abbrev oFLS_ERASE_RANGE : Nat := 0x068
abbrev oFLS_ERASE_MEAN : Nat := 0x06C
abbrev oFLS_REBUILD_S : Nat := 0x070
abbrev oFLS_HOST_RD : Nat := 0x074
abbrev oFLS_HOST_WR : Nat := 0x078
abbrev oFLS_MEDIA_WR : Nat := 0x07C
abbrev oFLS_RELOCATED : Nat := 0x080
abbrev oFLS_REFRESHES : Nat := 0x084
abbrev oFLS_PARITY_RECOV : Nat := 0x088
abbrev oFLS_LOST_UNITS : Nat := 0x08C
abbrev oFLS_PATROL_POS : Nat := 0x090
abbrev oFLS_CH_SEL : Nat := 0x094
abbrev oFLS_CH_INFO : Nat := 0x098
abbrev oFLS_CH_FREE : Nat := 0x09C
abbrev oTNG_TNG_STATUS : Nat := 0x040
abbrev oTNG_MOVES : Nat := 0x044
abbrev oTNG_WB : Nat := 0x048
abbrev oTNG_HELD : Nat := 0x04C
abbrev oTNG_PAGE_SEL : Nat := 0x050
abbrev oTNG_PAGE_INFO : Nat := 0x054
abbrev oPRT_PRT_STATE : Nat := 0x040
abbrev oPRT_SETUP_LO : Nat := 0x044
abbrev oPRT_SETUP_HI : Nat := 0x048
abbrev oPRT_PRT_CTRL : Nat := 0x04C
abbrev oPRT_REG_HBM : Nat := 0x050
abbrev oPRT_REG_DDR : Nat := 0x054
abbrev oPRT_REG_FLS : Nat := 0x058
abbrev oPRT_REG_FRONT : Nat := 0x05C
abbrev oPRT_REG_BACK : Nat := 0x060
abbrev oPRT_SWITCH_US : Nat := 0x064
abbrev oPRT_SWITCHES : Nat := 0x068
abbrev oPRT_CARRIED : Nat := 0x06C
abbrev oPRT_WAIT_CLEARED : Nat := 0x070
abbrev oPRT_THROTTLED : Nat := 0x074
abbrev oCMD_INFLIGHT : Nat := 0x040
abbrev oCMD_RERUN_LIMIT : Nat := 0x044
abbrev oCMD_CANCEL_TAG_LO : Nat := 0x048
abbrev oCMD_CANCEL_TAG_HI : Nat := 0x04C
abbrev oCMD_CANCEL_CTRL : Nat := 0x050
abbrev oCMD_REJECTS : Nat := 0x054
abbrev oCMD_KILLS : Nat := 0x058
abbrev oCMD_EVT_LOST : Nat := 0x05C
abbrev oFNL_FNL_LIST_LO : Nat := 0x040
abbrev oFNL_FNL_LIST_HI : Nat := 0x044
abbrev oFNL_FNL_CFG : Nat := 0x048
abbrev oFNL_WIN_USED : Nat := 0x04C
abbrev oFNL_WIN_PINNED : Nat := 0x050
abbrev oFNL_HIT : Nat := 0x054
abbrev oFNL_MISS : Nat := 0x058
abbrev oFNL_EXP_HIT : Nat := 0x05C
abbrev oFNL_EXP_MISS : Nat := 0x060
abbrev oFNL_BYPASS : Nat := 0x064
abbrev oFNL_CURRENT : Nat := 0x068
abbrev oSRV_SRV_CFG : Nat := 0x040
abbrev oSRV_SRV_CTRL : Nat := 0x044
abbrev oSRV_HBM_POOL_LO : Nat := 0x048
abbrev oSRV_HBM_POOL_HI : Nat := 0x04C
abbrev oSRV_HBM_FRAMES : Nat := 0x050
abbrev oSRV_DDR_POOL_LO : Nat := 0x054
abbrev oSRV_DDR_POOL_HI : Nat := 0x058
abbrev oSRV_DDR_FRAMES : Nat := 0x05C
abbrev oSRV_SPILL : Nat := 0x060
abbrev oSRV_CHUNK : Nat := 0x064
abbrev oSRV_LIVE : Nat := 0x068
abbrev oSRV_HBM_FREE : Nat := 0x06C
abbrev oSRV_DDR_FREE : Nat := 0x070
abbrev oSRV_CANCEL_USE : Nat := 0x074
abbrev oSRV_ADMITS : Nat := 0x078
abbrev oSRV_ENDS : Nat := 0x07C
abbrev oSRV_DEFERRED : Nat := 0x080
abbrev oSRV_PREFIX_HITS : Nat := 0x084
abbrev oSRV_PREFIX_MISSES : Nat := 0x088
abbrev oSRV_SPILLS : Nat := 0x08C
abbrev oSRV_COW_COPIES : Nat := 0x090
abbrev oSRV_HANDLE_LO : Nat := 0x094
abbrev oSRV_HANDLE_HI : Nat := 0x098
abbrev oSRV_HANDLE_CTRL : Nat := 0x09C
abbrev oSTP_STP_STATUS : Nat := 0x040
abbrev oSTP_STEPS : Nat := 0x044
abbrev oSTP_ROWS : Nat := 0x048
abbrev oSTP_SIT_OUTS : Nat := 0x04C
abbrev oSTP_DRAFTED : Nat := 0x050
abbrev oSTP_ACCEPTED : Nat := 0x054
abbrev oSTP_PREFILL_ROWS : Nat := 0x058
abbrev oSTP_EMPTY_STEPS : Nat := 0x05C
abbrev oSTP_STEP_TICKS : Nat := 0x060
abbrev oSEM_SEM_SEL : Nat := 0x040
abbrev oSEM_SEM_VALUE : Nat := 0x044
abbrev oSEM_SEM_RESV : Nat := 0x048
abbrev oSEM_SEM_FLAGS : Nat := 0x04C
abbrev oSEM_LEND_TICKS : Nat := 0x050
abbrev oSEM_REPORT_TICKS : Nat := 0x054
abbrev oSEM_SAT_FIRST : Nat := 0x058
abbrev oSEM_FAULTS : Nat := 0x05C
abbrev oSEM_SATS : Nat := 0x060
abbrev oSEM_REMOTE_IN : Nat := 0x064
abbrev oSEM_LENDS : Nat := 0x068
abbrev oSEM_SEM_CORR : Nat := 0x06C
abbrev oSTK_STK_USE : Nat := 0x040
abbrev oSTK_STK_HOLDS : Nat := 0x044
abbrev oSTK_STK_CORR : Nat := 0x048
abbrev oSTK_STK_SPARE : Nat := 0x04C
abbrev oGRD_CORE_STATE : Nat := 0x040
abbrev oGRD_COLMAP : Nat := 0x044
abbrev oGRD_PACE_COUNT : Nat := 0x048
abbrev oGRD_PACE_CAL : Nat := 0x04C
abbrev oGRD_G_STEPS0 : Nat := 0x050
abbrev oGRD_G_TICKS0 : Nat := 0x054
abbrev oGRD_G_STEPS1 : Nat := 0x058
abbrev oGRD_G_TICKS1 : Nat := 0x05C
abbrev oGRD_G_STEPS2 : Nat := 0x060
abbrev oGRD_G_TICKS2 : Nat := 0x064
abbrev oGRD_G_STEPS3 : Nat := 0x068
abbrev oGRD_G_TICKS3 : Nat := 0x06C
abbrev oGRD_GRD_CTRL : Nat := 0x070
abbrev oGRD_WDOG_LIMIT : Nat := 0x074
abbrev oWSK_WSK_STATUS : Nat := 0x040
abbrev oWSK_WSK_STEPS : Nat := 0x044
abbrev oWSK_WSK_TICKS : Nat := 0x048
abbrev oWSK_WSK_NAN : Nat := 0x04C
abbrev oTRY_TRY_USE : Nat := 0x040
abbrev oTRY_TRY_PEAK : Nat := 0x044
abbrev oTRY_TRY_CORR : Nat := 0x048
abbrev oTRY_TRY_SPARE : Nat := 0x04C
abbrev oLDL_LDL_STATUS : Nat := 0x040
abbrev oLDL_ROWS_READ : Nat := 0x044
abbrev oLDL_HOT_HITS : Nat := 0x048
abbrev oLDL_COALESCED : Nat := 0x04C
abbrev oLDL_INVALID : Nat := 0x050
abbrev oLDL_MISSING : Nat := 0x054
abbrev oLDL_STALL_USE : Nat := 0x058
abbrev oLDL_STALL_FULL : Nat := 0x05C
abbrev oLDL_SLOT_SEL : Nat := 0x060
abbrev oLDL_SLOT_VERSION : Nat := 0x064
abbrev oLDL_SLOT_DESC_LO : Nat := 0x068
abbrev oLDL_SLOT_DESC_HI : Nat := 0x06C
abbrev oLDL_SLOT_USERS : Nat := 0x070
abbrev oSKM_SKM_STATUS : Nat := 0x040
abbrev oSKM_BEAM_CFG : Nat := 0x044
abbrev oSKM_QUERIES : Nat := 0x048
abbrev oSKM_EXPANSIONS : Nat := 0x04C
abbrev oSKM_KEYS : Nat := 0x050
abbrev oSKM_DOUBLINGS : Nat := 0x054
abbrev oSKM_FILTER_SHORT : Nat := 0x058
abbrev oSKM_NAN_KEYS : Nat := 0x05C
abbrev oSKM_VISIT_FULL : Nat := 0x060
abbrev oSKM_REFINE_READS : Nat := 0x064
abbrev oSKM_SLOT_SEL : Nat := 0x068
abbrev oSKM_SLOT_VERSION : Nat := 0x06C
abbrev oSKM_SLOT_DESC_LO : Nat := 0x070
abbrev oSKM_SLOT_DESC_HI : Nat := 0x074
abbrev oSKM_SLOT_SEQ : Nat := 0x078
abbrev oSKM_SLOT_SIDE : Nat := 0x07C
abbrev oSKM_SLOT_USERS : Nat := 0x080
abbrev oSIV_SIV_STATUS : Nat := 0x040
abbrev oSIV_ROWS : Nat := 0x044
abbrev oSIV_KEYS : Nat := 0x048
abbrev oSIV_PASSES : Nat := 0x04C
abbrev oSIV_NAN : Nat := 0x050
abbrev oSIV_DUPS : Nat := 0x054
abbrev oSIV_SAMPLES : Nat := 0x058
abbrev oSIV_SKM_SETS : Nat := 0x05C
abbrev oSIV_WORK_USE : Nat := 0x060
abbrev oMDL_MDL_STATUS : Nat := 0x040
abbrev oMDL_BYTES : Nat := 0x044
abbrev oMDL_TOKENS : Nat := 0x048
abbrev oMDL_INVALID_SEQS : Nat := 0x04C
abbrev oMDL_TRUNCATIONS : Nat := 0x050
abbrev oMDL_SLOT_SEL : Nat := 0x054
abbrev oMDL_SLOT_KIND : Nat := 0x058
abbrev oMDL_SLOT_VERSION : Nat := 0x05C
abbrev oMDL_SLOT_PTR_LO : Nat := 0x060
abbrev oMDL_SLOT_PTR_HI : Nat := 0x064
abbrev oMDL_SLOT_USERS : Nat := 0x068
abbrev oMDL_SLOT_CHECK : Nat := 0x06C
abbrev oSTN_STN_STATUS : Nat := 0x040
abbrev oSTN_TOKENS : Nat := 0x044
abbrev oSTN_BYTES_OUT : Nat := 0x048
abbrev oSTN_STOPS : Nat := 0x04C
abbrev oSTN_REPLACED : Nat := 0x050
abbrev oCUT_CUT_STATUS : Nat := 0x040
abbrev oCUT_MASKS : Nat := 0x044
abbrev oCUT_RUNS_READ : Nat := 0x048
abbrev oCUT_EMPTY_MASKS : Nat := 0x04C
abbrev oCUT_MALFORMED : Nat := 0x050
abbrev oHBM_HBM_STATUS : Nat := 0x040
abbrev oHBM_HBM_TEMP : Nat := 0x044
abbrev oHBM_HBM_CAP : Nat := 0x048
abbrev oHBM_HBM_RD : Nat := 0x04C
abbrev oHBM_HBM_WR : Nat := 0x050
abbrev oHBM_HBM_RETRAIN : Nat := 0x054
abbrev oDDR_DDR_STATUS : Nat := 0x040
abbrev oDDR_DDR_CFG : Nat := 0x044
abbrev oDDR_DDR_RD : Nat := 0x048
abbrev oDDR_DDR_WR : Nat := 0x04C
abbrev oDDR_DDR_RETRAIN : Nat := 0x050
abbrev oARB_ARB_STATUS : Nat := 0x040
abbrev oARB_CLASS_WEIGHT : Nat := 0x044
abbrev oARB_WDOG_LIMIT : Nat := 0x048
abbrev oARB_PORT_SEL : Nat := 0x04C
abbrev oARB_PORT_INFO : Nat := 0x050
abbrev oARB_PORT_CTRL : Nat := 0x054
abbrev oARB_GRANTS : Nat := 0x058
abbrev oARB_BACKOFFS : Nat := 0x05C
abbrev oARB_STALE : Nat := 0x060
abbrev oARB_BYPASS : Nat := 0x064
abbrev oARB_BITES : Nat := 0x068
abbrev oNETP_PORT_CFG : Nat := 0x040
abbrev oNETP_PORT_STATUS : Nat := 0x044
abbrev oNETP_SUB_SEL : Nat := 0x048
abbrev oNETP_SUB_MTU : Nat := 0x04C
abbrev oNETP_SUB_VLAN : Nat := 0x050
abbrev oNETP_GW_MAC_LO : Nat := 0x054
abbrev oNETP_GW_MAC_HI : Nat := 0x058
abbrev oNETP_MAC_LO : Nat := 0x05C
abbrev oNETP_MAC_HI : Nat := 0x060
abbrev oNETP_FEC_CORR : Nat := 0x064
abbrev oNETP_FEC_UNCORR : Nat := 0x068
abbrev oNETP_RX_FRAMES : Nat := 0x06C
abbrev oNETP_TX_FRAMES : Nat := 0x070
abbrev oNETP_RX_DROP : Nat := 0x074
abbrev oNETP_CE_MARKED : Nat := 0x078
abbrev oNETP_MACSEC_DROP : Nat := 0x07C
abbrev oNETP_RETRAIN : Nat := 0x080
abbrev oNETF_ADDR_SEL : Nat := 0x040
abbrev oNETF_ADDR_W0 : Nat := 0x044
abbrev oNETF_ADDR_W1 : Nat := 0x048
abbrev oNETF_ADDR_W2 : Nat := 0x04C
abbrev oNETF_ADDR_W3 : Nat := 0x050
abbrev oNETF_QP_ERRORS : Nat := 0x054
abbrev oNETF_RNR_NAKS : Nat := 0x058
abbrev oNETF_CNP_SENT : Nat := 0x05C
abbrev oNETF_CNP_RECV : Nat := 0x060
abbrev oNETF_MGMT_OK : Nat := 0x064
abbrev oNETF_MGMT_DROP : Nat := 0x068
abbrev oNETF_STRAY : Nat := 0x06C
abbrev oNETB_DEVICE_ID : Nat := 0x040
abbrev oNETB_FAB_PREFIX_LO : Nat := 0x044
abbrev oNETB_FAB_PREFIX_HI : Nat := 0x048
abbrev oNETB_FAB_CFG : Nat := 0x04C
abbrev oNETB_FAB_RTO : Nat := 0x050
abbrev oNETB_FAB_RATE : Nat := 0x054
abbrev oNETB_CONN_USE : Nat := 0x058
abbrev oNETB_ITEM_USE : Nat := 0x05C
abbrev oNETB_RETX : Nat := 0x060
abbrev oNETB_NACKS : Nat := 0x064
abbrev oNETB_DUPS : Nat := 0x068
abbrev oNETB_PEERS_DOWN : Nat := 0x06C

end Sys2Proof.Machine
end

