-- ==== Sys2Proof/Config.lean ====
section
/-! DEFINITION. What the spec leaves open and one device fixes: free values, as constants without a body, so that no
proof can see a value of one. A use is counted by `State.freeCtr` where each use may differ; a value that the spec
says is the same for the same operands takes those operands. Log entry 1. -/

namespace Sys2Proof.Config

/-- The n-th undefined byte (R123, R150, R154, R156, R367). -/
opaque freeByte : Nat → Byte

/-- The n-th open choice: which frame, block, engine or order, where the spec names no choice (R116, R170, R583). -/
opaque freeNat : Nat → Nat

/-- How far a whisk function's result lies from the exact value, in units in the last place (R67): for function `f`
(0 exp2, 1 log2, 2 reciprocal, 3 reciprocal square root, 4 exp) and operand bits. Every part gives the same bits for
the same input, so it takes the operand and no counter. -/
opaque whiskUlp : Nat → Word → Fin 5

/-- Byte i of the HSS signature made with leaf q over a message (R505): the private seeds are in OTP and only the
security block reads them. -/
opaque signatureByte : Nat → List Byte → Nat → Byte

/-- The hash h of a connection (R441), from local partition, peer device and peer partition. -/
opaque connHash : Nat → Nat → Nat → Nat

/-- Bytes one controller or MAC moves in one cycle of its own clock (R338), by kind: 0 HBM stack, 1 DDR5 channel,
2 back egress, 3 flash channel, 4 front egress. -/
opaque peakBytesPerCycle : Nat → Nat

/-- UCODE of PAGE_VER (R524), by block type and by the version words of the boot slot: the spec does not place the
version in the bundle. -/
opaque ucode : Nat → Nat → Half

/-- The SDR, HDR and error answer order of simultaneous landing arrivals under ARRIVAL (R41): a key by which the
arrived values are ordered. -/
opaque arrivalKey : Nat → Nat → Nat

/-- One output of the causal convolution of R127 and R143, from the taps of its column as they are stored and the H + 1 values
of the column, oldest first: the spec states neither the order of the taps nor that of the roundings. -/
opaque convolve : List Word → List Word → Word

/-- Which griddle operand format CHAIN_FMT is for an ATTEND whose CHAIN is 0: the spec names none. -/
opaque attendFmt : Nat

/-- The element code stored for a NaN in a block whose scale byte 0xFF says so (R43, R96): the spec gives the scale byte and no code. By
bits of an element. -/
opaque nanCode : Nat → Nat

/-- What ACC_INFO shows of a master other than a core, or of any master's rights (R494, R514): the spec names neither the PMASK of
a shared engine nor who holds which right. By master and target. -/
opaque accInfo : Nat → Nat → Word

/-- The E8M0 scale of block i of a row whose stored element bytes are these, where the spec gives no place for the scales: operands
of an ATTEND in an MX format (R580) and MX streams (R87). It takes the bytes alone, so that a re-run finds the same scales (R18 to R20). -/
opaque blockScale : List Byte → Nat → Byte

/-- What a scaled element is before a prologue that has no DEQUANT stage: R93 demands the stage and states no value without it. By the
element's value times its scales. -/
opaque undequantized : Word → Word

/-- Column i of the first GATE operand behind a pair-mode GATE: the chained intermediate keeps N columns (R143) and R94 gives values to
the first N / 2 only. By the values there are. -/
opaque gateTail : List Word → Nat → Word

/-- AUX of an old node in the image that INDEX_MERGE writes for inner product, where AUX_BASE is ignored (R215, R233): by the node's code. -/
opaque mergedAux : List Byte → Word

/-- Canonical NaNs that one output of the convolution makes from operands without NaN (R81): the spec does not state its operations. By taps
and values. -/
opaque convolveNans : List Word → List Word → Nat

end Sys2Proof.Config
end

