-- ==== Sys2Proof/Syntax.lean ====
section
/-! DEFINITION. The commands the block takes (98_reader, 95_what_each_step_holds): one constructor for each row of the
opcode table, with the operands the outside world, or a unit of the block acting on its own, supplies. A quantity
that the device measures (a temperature, an energy, a count of ticks) is an operand of the row that samples it. -/

namespace Sys2Proof

/-- The capsule header of R139 but for OPCODE, which the row fixes. `flags` is the 16-bit word at 0x04,
`energy` the byte at 0x06, `rsv` the byte at 0x07. -/
structure CapHdr where
  version : Byte
  length : Half
  flags : Half
  energy : Byte
  rsv : Byte
  tag : Dword
  seed : Dword
  wait0 : Word
  wait1 : Word
  wait2 : Word
  wait3 : Word
  signal0 : Word
  signal1 : Word
  signal2 : Word
  signal3 : Word
  info : Dword
  deriving DecidableEq, Repr

/-- A command in flight, named by its acceptance sequence number (R432) and, for a record of a forward list that a
STEP runs (R298), the record's number in the list plus 1; 0 names the command itself. -/
structure CmdRef where
  seq : Nat
  sub : Nat
  deriving DecidableEq, Repr

/-- A request offered to an arbiter port (R375, R376): class, master ID (R492), partition (R493), bytes, and the
command or the page move it belongs to. -/
structure ArbReq where
  cls : Fin 8
  master : BitVec 12
  part : Fin 32
  bytes : Nat
  write : Bool
  cmd : Option CmdRef
  move : Option Nat
  deriving DecidableEq, Repr

/-- A flash block: channel, die, block number. -/
structure BlockId where
  ch : Nat
  die : Nat
  blk : Nat
  deriving DecidableEq, Repr

/-- One patrol read (R405): whether the page needed read retry, whether its bit errors passed 3/4 of the LDPC
correction capacity, and the calendar seconds since the previous patrol step. -/
structure PatrolSample where
  retry : Bool
  high : Bool
  seconds : Nat
  deriving DecidableEq, Repr

/-- What one core's pace meter and counters measured over a strobe period (R57, R77, R81): ticks, and for each
griddle and for the whisk the steps advanced and the ticks busy. -/
structure CoreSample where
  ticks : Nat
  steps : List Nat
  busy : List Nat
  wskSteps : Nat
  wskTicks : Nat
  deriving DecidableEq, Repr

/-- What one core-rail regulator answered over PMBus in a period (R456): whether it answered within three attempts,
whether its VOUT_MODE is ULINEAR16, the exponent n of its resolution 2^-n V, and its STATUS_WORD. -/
structure RegulatorSample where
  answers : Bool
  ulinear : Bool
  exponent : Nat
  status : Half
  deriving DecidableEq, Repr

/-- What the trivet reads at a strobe edge (R458, R459): energy of each rail in the period in µJ, temperature of each
die in 1/16 °C, temperature of each stack in °C, whether a griddle of each die ran a pass in the period, the cores'
samples and the regulators' answers. Lists run over rails, dies, stacks, dies, physical cores and core rails. DESIGN CHOICE (log entry 39). -/
structure StrobeSample where
  energy : List Nat
  dieTemp : List Int
  stackTemp : List Nat
  ran : List Bool
  cores : List CoreSample
  regulators : List RegulatorSample
  deriving DecidableEq, Repr

/-- A structure that can fail (R478, R481). `sram` is a row of the SRAM of the unit with register page `page`;
`griddle` a MAC cell, feeder or drain of a griddle; `coreUnit` a tile sequencer or whisk; `bridge` a link's wire; `store` an entry of a
partition's suspension store (R341). -/
inductive ErrSite where
  | sram (page row : Nat)
  | semWord (sem : Half)
  | stockpot (die : Fin 4) (off : Nat)
  | griddle (core : Fin 208) (g : Fin 4)
  | coreUnit (core : Fin 208)
  | hbm (phys : Nat)
  | ddr (phys : Nat)
  | lane (port : Fin 8) (lane : Fin 4)
  | bridge (link wire : Nat)
  | arbQueue (arb : Fin 36) (port : Fin 32)
  | store (part : Fin 16) (sem : Half)
  deriving DecidableEq, Repr

/-- What a targeted self-test found (R481): every pattern passed, a lasting fault, or, for a griddle, a lasting
fault confined to one column (R72). -/
inductive TestResult where
  | pass
  | fail
  | failColumn (col : Fin 64)
  deriving DecidableEq, Repr

/-- The masters that reach register pages (R530): management over Chabu, I3C, and a control core acting for the
partition it serves. -/
inductive RegMaster where
  | mgmt
  | i3c
  | control (core : Fin 16) (part : Fin 16)
  deriving DecidableEq, Repr

/-- What training found of one HBM stack (R352): it trained at 8.0 Gb/s, at 6.4 Gb/s, or at neither. -/
inductive HbmTrain where
  | full
  | fallback
  | failed
  deriving DecidableEq, Repr

/-- A DDR5 module's SPD (R350, R351, R545): serial number, capacity in GB, ranks, the highest rate it allows in MT/s, whether it is an
MRDIMM, and the modules that answer on the channel's sideband bus. -/
structure Spd where
  serial : Nat
  gb : Nat
  ranks : Nat
  rate : Nat
  mrdimm : Bool
  modules : Nat
  deriving DecidableEq, Repr

/-- A flash die's parameter page (R388) and the blocks its maker marked bad: whether the die, its interface and its
page layout are of the kinds R388 supports, the die type, planes, TLC pages and SLC pages of a block, blocks, rated
TLC endurance, bad blocks. -/
structure FlashDie where
  supported : Bool
  kind : Nat
  planes : Nat
  tlcPages : Nat
  slcPages : Nat
  blocks : Nat
  peRated : Nat
  bad : List Nat
  deriving DecidableEq, Repr

/-- The clocked islands that retrain (R56): an HBM stack, a DDR5 channel, an Ethernet port, a flash channel. -/
inductive Island where
  | hbm (stack : Fin 8)
  | ddr (ch : Fin 24)
  | eth (port : Fin 8)
  | flash (ch : Fin 32)
  deriving DecidableEq, Repr

/-- A JTAG TAP instruction (R516): boundary scan, or any other. -/
inductive TapIns where
  | boundaryScan
  | other (code : Nat)
  deriving DecidableEq, Repr

/-- An ARP request (R418): whether it was broadcast, the sender's MAC and IPv4 address, the address asked for. -/
structure ArpQuery where
  broadcast : Bool
  senderMac : BitVec 48
  senderIp : Word
  targetIp : Word
  deriving DecidableEq, Repr

/-- A neighbour solicitation (R418): the asker's address and the address asked for. -/
structure NsQuery where
  sender : BitVec 128
  target : BitVec 128
  deriving DecidableEq, Repr

/-- An ICMP or ICMPv6 echo request (R418). An IPv4 address stands in the low 32 bits. -/
structure EchoQuery where
  v6 : Bool
  src : BitVec 128
  dst : BitVec 128
  payload : List Byte
  deriving DecidableEq, Repr

/-- The far end of a management datagram: IP version, address, UDP port. -/
structure Endpoint where
  v6 : Bool
  ip : BitVec 128
  port : Half
  deriving DecidableEq, Repr

/-- A management datagram (R428) as it arrived, but for OP, which the row fixes. -/
structure MgmtReq where
  src : Endpoint
  dst : Endpoint
  magic : Half
  version : Byte
  resp : Byte
  keyId : Byte
  status : Byte
  rsv7 : Byte
  seq : Dword
  reqId : Word
  length : Half
  rsv16 : Half
  addr : Dword
  body : List Byte
  tag : List Byte
  deriving DecidableEq, Repr

/-- A fabric packet's header (R432) but for TYPE, which the row fixes, and LENGTH, which is the payload's; `ce` is
the IP header's congestion mark. -/
structure FabHdr where
  flags : Byte
  srcDev : Half
  dstDev : Half
  srcPart : BitVec 4
  rerun : Byte
  psn : Word
  comm : Half
  tag : Dword
  accSeq : Word
  item : Word
  addr : Dword
  sem : Half
  collSeq : Half
  itemBytes : Word
  ce : Bool
  deriving DecidableEq, Repr

/-- The payload of an ACK (R433). -/
structure AckBody where
  cum : Word
  trig : Word
  ce : Half
  pkts : Half
  sack : BitVec 256
  deriving DecidableEq, Repr

/-- A connection (R434): the local partition, the peer device, and the peer partition (16 where the packets name no
communicator and the peer's own table maps them, R435). -/
structure ConnId where
  part : Fin 16
  dev : Half
  peer : Fin 17
  deriving DecidableEq, Repr

/-- Why a received frame or datagram is one that no protocol takes (R418, R419, R420, R422, R429, R434, R448). -/
inductive StrayWhy where
  | wrongMac
  | oversize (bytes : Nat)
  | wrongPort
  | wrongNetwork
  | macsec (an : Nat) (pn : Nat)
  | badQp (qp : Fin 4096)
  | noContext
  deriving DecidableEq, Repr


/-- The commands of the block: one constructor per row of the opcode table, in the order of the table. DESIGN CHOICE (log entry 100). -/
inductive Instr where
  /-- SEND_CAPSULE (R424). A RoCEv2 SEND message carrying one command capsule arrives on a partition's queue pair and is offered to the command intake. -/
  | sendCapsule (qp : Fin 4096) (psn : BitVec 24) (ce : Bool) (bytes : List Byte)
  /-- INTAKE_ENTRY (R136). The intake finds a new entry in a partition's intake ring while there is in-flight room, consumes it and reads the named capsule. -/
  | intakeEntry (p : Fin 16)
  /-- LIST_RECORD_ACCEPT (R578). When in-flight room frees, the intake accepts the next record of the earliest list capsule that still has records to accept. -/
  | listRecordAccept (p : Fin 16)
  /-- NOP (R142). A NOP command is accepted and completes with no output. -/
  | nop (p : Fin 16) (h : CapHdr) (body : List Byte)
  /-- PRODUCT (R143). A PRODUCT command is accepted for a matrix product with an optional chain block, pointer list or split-K range. -/
  | product (p : Fin 16) (h : CapHdr) (body : List Byte)
  /-- ATTEND (R145). An ATTEND command is accepted for attention, or for its combine form over partials. -/
  | attend (p : Fin 16) (h : CapHdr) (body : List Byte)
  /-- GATHER (R190). A GATHER command is accepted to read table rows by index, with optional pooling or expert dispatch. -/
  | gather (p : Fin 16) (h : CapHdr) (body : List Byte)
  /-- SCATTER_ADD (R197). A SCATTER_ADD command is accepted to combine updates into table rows through an update log. -/
  | scatterAdd (p : Fin 16) (h : CapHdr) (body : List Byte)
  /-- SEARCH (R222). A SEARCH command is accepted to run graph or flat vector search with filters and refinement. -/
  | search (p : Fin 16) (h : CapHdr) (body : List Byte)
  /-- SELECT (R250). A SELECT command is accepted for top-k, argmax, argmin, sort or sampling over rows of keys. -/
  | select (p : Fin 16) (h : CapHdr) (body : List Byte)
  /-- TOKENIZE (R271). A TOKENIZE command is accepted to turn UTF-8 bytes into token IDs, optionally on a text stream. -/
  | tokenize (p : Fin 16) (h : CapHdr) (body : List Byte)
  /-- DETOKENIZE (R276). A DETOKENIZE command is accepted to turn tokens into streamed text with stop-string matching. -/
  | detokenize (p : Fin 16) (h : CapHdr) (body : List Byte)
  /-- PACK (R288). A PACK command is accepted to build a prompt from a template and ordered passages within a token budget. -/
  | pack (p : Fin 16) (h : CapHdr) (body : List Byte)
  /-- STEP_GENERATE (R313). A STEP with ACTION 0 is accepted to run one generation step of a model. -/
  | stepGenerate (p : Fin 16) (h : CapHdr) (body : List Byte)
  /-- STEP_ADMIT (R311). A STEP with ACTION 1 is accepted to admit a list of requests at the model's next boundary. -/
  | stepAdmit (p : Fin 16) (h : CapHdr) (body : List Byte)
  /-- STEP_CANCEL (R312). A STEP with ACTION 2 is accepted to cancel live requests by tag. -/
  | stepCancel (p : Fin 16) (h : CapHdr) (body : List Byte)
  /-- COPY (R368). A COPY command is accepted to move bytes locally or to another device's tiered range. -/
  | copy (p : Fin 16) (h : CapHdr) (body : List Byte)
  /-- MIGRATE (R360). A MIGRATE command is accepted to make, drop or discard window copies or set placement hints on pages. -/
  | migrate (p : Fin 16) (h : CapHdr) (body : List Byte)
  /-- COLLECT (R446). A COLLECT command is accepted for an all-gather, reduce-scatter, all-to-all or node reduce-scatter on a communicator. -/
  | collect (p : Fin 16) (h : CapHdr) (body : List Byte)
  /-- SEMOP (R169). A SEMOP command is accepted to add, subtract or set a local or remote semaphore at commit. -/
  | semop (p : Fin 16) (h : CapHdr) (body : List Byte)
  /-- TABLE_SWITCH (R184). A TABLE_SWITCH command is accepted to replace the descriptor and version of a table or index slot. -/
  | tableSwitch (p : Fin 16) (h : CapHdr) (body : List Byte)
  /-- INDEX_MERGE (R233). An INDEX_MERGE command is accepted to build a new index image without tombstoned vectors and with side entries merged. -/
  | indexMerge (p : Fin 16) (h : CapHdr) (body : List Byte)
  /-- LIST_CAPSULE (R141). A list capsule is accepted, naming records in device memory that the intake then accepts in list order. -/
  | listCapsule (p : Fin 16) (h : CapHdr) (body : List Byte)
  /-- COMMAND_ISSUE (R148). An accepted command issues once its waits, span overlaps, staging reservation and energy class all allow it. -/
  | commandIssue (c : CmdRef)
  /-- COMMAND_COMMIT (R151). When all of a command's work is complete, it writes outputs, clears pending spans, applies TAKEs and signals, and writes its records. -/
  | commandCommit (c : CmdRef)
  /-- TABLE_SWITCH_DRAIN (R184). When no in-flight command still holds a switched slot's previous version, the switch's commit orders 4 and 5 proceed. -/
  | tableSwitchDrain (c : CmdRef)
  /-- RECORD_WRITE (R577). A waiting completion, text or end record is written to the host ring once its slots are free and the ring is not blocked. -/
  | recordWrite (p : Fin 16)
  /-- CANCEL (R159). A write of 1 to CMD.CANCEL_CTRL.GO cancels the earliest in-flight command with the given tag and reports RESULT. -/
  | cancel (p : Fin 16)
  /-- TAKE_UNIT (R114). A ready griddle takes the next deal unit of the oldest eligible command, including a landing tile whose semaphore is set. -/
  | takeUnit (core : Fin 208) (griddle : Fin 4)
  /-- HALO_COPY (R128). Once a stripe's last H rows are complete, the core copies them to the next stripe's halo slot and increases its halo semaphore. -/
  | haloCopy (c : CmdRef) (entry stripe : Nat)
  /-- PASS_WATCHDOG (R79). A pass that does not complete within WDOG_LIMIT ticks quiesces its griddle, kills its commands and starts self-test. -/
  | passWatchdog (core : Fin 208) (griddle : Fin 4)
  /-- SEM_VALUE_WRITE (R169). A write of SEM.SEM_VALUE sets the selected semaphore's value and clears its flags. -/
  | semValueWrite (die : Fin 4) (value : Word)
  /-- LEND (R177). A waiting core whose wait count reaches LEND_TICKS lends its power share to its die's pool. -/
  | lend (core : Fin 208)
  /-- LONG_WAIT (R177). A waiting core whose wait count reaches REPORT_TICKS raises LONG_WAIT once per wait. -/
  | longWait (core : Fin 208)
  /-- TEXT_SLOT_COMMIT (R265). A SHADOW_COMMIT of an MDL page checks the new image header and changes the selected text slot or records SLOT_REJECT. -/
  | textSlotCommit (engine : Fin 8)
  /-- STEP_BOUNDARY (R319). A generation step completes and its boundary resolves cancels, writes tokens, releases pages, admits, spills, signals and writes records. -/
  | stepBoundary (p : Fin 16) (model : Nat)
  /-- PREFILL_PASS_START (R326). A prefill pass of one chunk of a PREFILL request starts once its pages can be allocated and no other pass of the model is in flight. -/
  | prefillPassStart (p : Fin 16) (request : Nat)
  /-- PREFILL_PASS_COMMIT (R326). A prefill pass completes and commits its chunk's positions into the request's LENGTH. -/
  | prefillPassCommit (p : Fin 16) (request : Nat)
  /-- HANDLE_DROP (R310). A write of 1 to SRV.HANDLE_CTRL.DROP marks a prefix handle deleted and schedules its page references for release. -/
  | handleDrop (p : Fin 16)
  /-- SERVING_ENABLE (R584). A write of 1 to SRV.SRV_CTRL.EN checks the serving configuration and starts serving or sets CFG_REJECT. -/
  | servingEnable (p : Fin 16)
  /-- SERVING_DISABLE (R330). Clearing SRV.SRV_CTRL.EN ends every live request with CANCELLED and empties the request table, registry and pools. -/
  | servingDisable (p : Fin 16)
  /-- PRT_RUN (R344). GO with OP 1 checks the setup block, suspends FROM if named, and brings the partition through RESUMING toward ACTIVE. -/
  | prtRun (p : Fin 16)
  /-- PRT_SUSPEND (R343). GO with OP 2 stops the intake, carries issued commands and starts suspending the partition. -/
  | prtSuspend (p : Fin 16)
  /-- PRT_RELEASE (R346). GO with OP 3 ends carried commands, empties slots, zeroes shares and makes a suspended partition FREE. -/
  | prtRelease (p : Fin 16)
  /-- SUSPEND_COMMITS_DONE (R343). Once commits past order 2 are complete, arrival semaphores are saved, semaphores cleared and unissued commands ended. -/
  | suspendCommitsDone (p : Fin 16)
  /-- WRITEBACK_DONE (R343). Once dirty window pages are written back, the window is released, cores are zeroed and the partition becomes SUSPENDED. -/
  | writebackDone (p : Fin 16)
  /-- PRELOAD_DONE (R344). Once every preload range is in the window, carried and accepted commands issue and the partition becomes ACTIVE with SWITCH_DONE. -/
  | preloadDone (p : Fin 16)
  /-- SHADOW_COMMIT (R10). A write of 1 to SHADOW_COMMIT applies every pending CM field of a page at once. -/
  | shadowCommit (page : Nat)
  /-- STREAM_LIST_COMMIT (R363). A commit of FNL_CFG reads and checks the funnel's stream list, or rejects it with LIST_REJECT. -/
  | streamListCommit (p : Fin 16)
  /-- PORT_MODE_COMMIT (R415). A commit of NET.PORT_CFG.MODE divides the port into sub-ports and retrains its islands. -/
  | portModeCommit (port : Fin 8)
  /-- FUNNEL_FILL_START (R364). A queued stream fill takes a window frame once one becomes evictable and starts a page move. -/
  | funnelFillStart (p : Fin 16)
  /-- PAGE_COPY_DONE (R361). When a page's copy is complete, writes are held, marked blocks are recopied, the translation switches and held writes are released. -/
  | pageCopyDone (page : Nat)
  /-- OLD_FRAME_RELEASE (R361). Once no read that started before a move's switch remains, the old frame is released. -/
  | oldFrameRelease (page : Nat)
  /-- ARB_REQUEST (R380). A request arrives at an arbiter port queue and is granted at once if the arbiter is idle with no held pick. -/
  | arbRequest (arb : Fin 36) (port : Fin 32) (req : ArbReq) (cycles : Nat)
  /-- ARB_GRANT_DONE (R379). A grant completes, the held pick is granted, ages rise and the winner of the following grant is picked. -/
  | arbGrantDone (arb : Fin 36) (cycles : Nat)
  /-- ARB_WATCHDOG (R382). A grant not complete within WDOG_LIMIT ticks is ended, the port reset and its commands killed. -/
  | arbWatchdog (arb : Fin 36) (ticks : Nat)
  /-- PORT_RESTORE (R383). A write of 1 to ARB.PORT_CTRL.RESTORE returns the selected port to service. -/
  | portRestore (arb : Fin 36)
  /-- WORD_LINE_PROGRAMMED (R394). A flash word line program completes and the buffered units in it become durable. -/
  | wordLineProgrammed (ch : Fin 32) (die : Fin 16)
  /-- WRITE_BUFFER_TIMEOUT (R394). A unit that has waited 10 ms in a write buffer forces its word line to be programmed with padding. -/
  | writeBufferTimeout (ch : Fin 32) (die : Fin 16)
  /-- FLASH_FLUSH (R394). A write of 1 to FLS.FLS_CTRL.FLUSH programs every buffered unit and dirty map page. -/
  | flashFlush
  /-- FLASH_SHUTDOWN (R394). A write of 1 to FLS.FLS_CTRL.SHUTDOWN flushes, saves patrol state and writes a clean marker. -/
  | flashShutdown
  /-- FLASH_FORMAT (R389). A write of 1 to FLS.FLS_CTRL.FORMAT erases good blocks, records bad ones and fixes the logical capacity. -/
  | flashFormat
  /-- MAP_LOAD_DONE (R395). The flash maps finish loading from the map blocks and MAP becomes ready. -/
  | mapLoadDone
  /-- MAP_REBUILD_DONE (R396). The flash map rebuild from block summaries and page metadata completes and MAP becomes ready. -/
  | mapRebuildDone (seconds : Nat)
  /-- RECLAIM (R403). A channel whose free blocks fall below 2 % starts reclaiming the closed block with the fewest live units. -/
  | reclaim (ch : Fin 32)
  /-- WEAR_LEVEL (R404). When a channel's erase-count spread exceeds SPREAD, the live units of its youngest block are relocated. -/
  | wearLevel (ch : Fin 32)
  /-- FOLD (R402). While SLC data is at or above the target, folding copies the oldest SLC data to TLC. -/
  | fold (ch : Fin 32)
  /-- RELOCATION_DONE (R399). A relocated unit's program becomes durable and its map entry moves to the new location if unchanged. -/
  | relocationDone (ch : Fin 32) (lua : Nat)
  /-- OLD_BLOCK_ERASE (R399). Once every live unit has left a block and no earlier read remains, the block is erased. -/
  | oldBlockErase (blk : BlockId)
  /-- READ_VERIFY (R401). When every block of a band has closed, each page is read once and parity is released or live units relocated. -/
  | readVerify (ch : Fin 32) (band : Nat) (failed : List BlockId)
  /-- PATROL_STEP (R405). The paced patrol reads the next programmed page and queues its block for refresh when needed. -/
  | patrolStep (sample : PatrolSample)
  /-- PROGRAM_FAILURE (R408). A flash program fails, the block is retired and its units are programmed elsewhere. -/
  | programFailure (blk : BlockId)
  /-- ERASE_FAILURE (R408). A flash erase fails and the block is retired. -/
  | eraseFailure (blk : BlockId)
  /-- UNIT_LOST (R408). A closed-block read fails after every retry, the reader ends with DATA_ERROR and the unit is marked lost. -/
  | unitLost (lua : Nat)
  /-- DIE_LOST (R408). A flash die stops answering, its open bands are rebuilt from parity and its closed units marked lost. -/
  | dieLost (ch : Fin 32) (die : Fin 16)
  /-- LINK_UP (R417). A sub-port's link comes up and raises LINK. -/
  | linkUp (sub : Fin 32)
  /-- LINK_DOWN (R417). A sub-port's link goes down; front packets in flight are lost, and back traffic is retransmitted on other links. -/
  | linkDown (sub : Fin 32)
  /-- ARP_REQUEST (R418). A broadcast ARP request for a sub-port's own address is answered. -/
  | arpRequest (sub : Fin 32) (q : ArpQuery)
  /-- NEIGHBOR_SOLICITATION (R418). An IPv6 neighbour solicitation for a sub-port's own address is answered. -/
  | neighborSolicitation (sub : Fin 32) (q : NsQuery)
  /-- ICMP_ECHO (R418). An ICMP or ICMPv6 echo request to the device is answered. -/
  | icmpEcho (sub : Fin 32) (q : EchoQuery)
  /-- PFC_FRAME (R427). An IEEE 802.1Qbb PFC frame for PFC_PRIO pauses a front port's sending when PFC is enabled. -/
  | pfcFrame (port : Fin 8) (prio : Fin 8) (quanta : Half)
  /-- CNP_RECEIVED (R427). A CNP on the records QP throttles that QP's sending rate. -/
  | cnpReceived (qp : Fin 4096)
  /-- ROCE_RDMA_WRITE (R423). An RDMA WRITE is checked against R_Key and windows and placed at its device address. -/
  | roceRdmaWrite (qp : Fin 4096) (psn : BitVec 24) (ce : Bool) (rkey : Word) (va : Dword) (data : List Byte)
  /-- ROCE_RDMA_READ (R423). An RDMA READ request is checked and answered with the translated device bytes. -/
  | roceRdmaRead (qp : Fin 4096) (psn : BitVec 24) (ce : Bool) (rkey : Word) (va : Dword) (len : Word)
  /-- ROCE_ACK (R426). An ACK or NAK arrives for the device's RDMA WRITEs on a queue pair. -/
  | roceAck (qp : Fin 4096) (psn : BitVec 24) (nak : Option (BitVec 5))
  /-- ROCE_RNR_NAK (R426). An RNR NAK arrives and the device retries within RNR_RETRY. -/
  | roceRnrNak (qp : Fin 4096) (psn : BitVec 24)
  /-- ROCE_ACK_TIMEOUT (R426). The ACK timeout expires and the device retransmits, or the QP enters ERROR when RETRY is spent. -/
  | roceAckTimeout (qp : Fin 4096)
  /-- MGMT_READ_REG (R430). A management READ_REG request reads up to 256 consecutive registers. -/
  | mgmtReadReg (req : MgmtReq)
  /-- MGMT_WRITE_REG (R430). A management WRITE_REG request writes up to 256 consecutive registers in ascending order. -/
  | mgmtWriteReg (req : MgmtReq)
  /-- MGMT_READ_MEM (R430). A management READ_MEM request reads up to 1,024 bytes of device memory. -/
  | mgmtReadMem (req : MgmtReq)
  /-- MGMT_WRITE_MEM (R430). A management WRITE_MEM request writes up to 1,024 bytes of device memory. -/
  | mgmtWriteMem (req : MgmtReq)
  /-- QP_SET (R422). A management QP_SET writes a queue pair's context and state. -/
  | qpSet (req : MgmtReq)
  /-- QP_GET (R422). A management QP_GET returns a queue pair's context. -/
  | qpGet (req : MgmtReq)
  /-- FABRIC_SET (R444). A management FABRIC_SET writes or removes a fabric table mapping. -/
  | fabricSet (req : MgmtReq)
  /-- COMM_SET (R443). A management COMM_SET writes a communicator record. -/
  | commSet (req : MgmtReq)
  /-- SA_SET (R449). A management SA_SET unwraps and installs a MACsec secure association. -/
  | saSet (req : MgmtReq)
  /-- IDENTIFY (R430). A management IDENTIFY returns the device ID, serial number and DEVICE_ID. -/
  | identify (req : MgmtReq)
  /-- READY_MESSAGE (R551). The tagged ready message is sent from each up front sub-port at READY and again every second until a valid request arrives. -/
  | readyMessage
  /-- FABRIC_DATA (R436). A fabric DATA packet is mapped, placed, and counted toward its item record, raising the arrival semaphore when the item is complete. -/
  | fabricData (h : FabHdr) (payload : List Byte)
  /-- FABRIC_ACK (R438). A fabric ACK updates acknowledgements, round-trip estimate and presumed losses of a connection. -/
  | fabricAck (h : FabHdr) (ack : AckBody) (rtt : Nat)
  /-- FABRIC_NACK (R433). A fabric NACK ends the sending command or schedules a resend, according to its code. -/
  | fabricNack (h : FabHdr) (psn : Word) (code : Byte)
  /-- FABRIC_SEMOP (R175). A remote semaphore operation is checked against the mapped window and applied at most once. -/
  | fabricSemop (h : FabHdr) (op : Byte) (n : Word)
  /-- FABRIC_SEM_REPLY (R174). A SEM_REPLY completes the sending SEMOP with OK or ACCESS_FAULT. -/
  | fabricSemReply (h : FabHdr) (result : Byte)
  /-- CANCEL_NOTICE (R323). A pipeline stage receiving a cancel notice sets CANCEL_PENDING and acknowledges. -/
  | cancelNotice (h : FabHdr) (stage : Byte)
  /-- CANCEL_ACK (R322). A stage's acknowledgement of a cancel notice is recorded for resolution at the boundary. -/
  | cancelAck (h : FabHdr) (stage : Byte)
  /-- CANCEL_CONFIRM (R323). A CONFIRM tells a pipeline stage to cancel the request at its next boundary. -/
  | cancelConfirm (h : FabHdr) (stage : Byte)
  /-- CANCEL_DEFER (R323). A DEFER tells a pipeline stage to drain the request at its next boundary. -/
  | cancelDefer (h : FabHdr) (stage : Byte)
  /-- FABRIC_LAG (R134). A received LAG notice raises an event and the trivet applies the laggard voltage rule to all dies. -/
  | fabricLag (h : FabHdr) (lambda : Word) (count : Half)
  /-- FABRIC_RELEASE (R437). A RELEASE packet deletes the item records of a sender's command. -/
  | fabricRelease (h : FabHdr)
  /-- FABRIC_RTO (R439). A packet's retransmission timeout expires and it is resent with RETX. -/
  | fabricRto (conn : ConnId) (psn : Word)
  /-- ACK_DELAY_TIMER (R438). 2,048 ticks after an unacknowledged arrival, the receiver sends an ACK. -/
  | ackDelayTimer (conn : ConnId)
  /-- NACK_RESEND_TIMER (R436). 2,048 ticks after a NACK BUSY or WAIT, the sender resends the packet. -/
  | nackResendTimer (conn : ConnId) (psn : Word)
  /-- CONNECTION_IDLE (R434). A connection context with no traffic and nothing unacknowledged for 500,000,000 ticks closes. -/
  | connectionIdle (conn : ConnId)
  /-- RATE_UPDATE (R442). Once per smoothed round trip, a connection's sending rate is adjusted from its CE fraction. -/
  | rateUpdate (conn : ConnId)
  /-- STROBE_EDGE (R57). A 1,024 Hz strobe edge latches pace-meter counts, returns lent quarters and starts the trivet's period. -/
  | strobeEdge (sample : StrobeSample)
  /-- PACE_CAL_TIMEOUT (R57). When no strobe edge arrives for 4 expected periods, PACE_CAL.VALID clears. -/
  | paceCalTimeout (core : Fin 208)
  /-- LAGGARD_CHECK (R131). Every 128 strobe periods, laggard cores and dies are reported and laggard dies get a voltage raise or reduced share. The rates are
  read off R58's counters in State; `coreRates : Unit` carries nothing. -/
  | laggardCheck (coreRates : Unit)
  /-- THERMAL_TRIP (R467). A die at 115 °C or a stack at 105 °C for 4 consecutive periods trips the device. -/
  | thermalTrip
  /-- SUPPLY_WARNING (R469). A rail falls below its warning level; griddles start no new pass and WARN is set. -/
  | supplyWarning (rail : Fin 12) (mv : Nat)
  /-- SUPPLY_RECOVER (R468). A rail stays above its warning level plus 20 mV for CLEAR_TICKS; passes resume and reset dies rejoin. -/
  | supplyRecover (rail : Fin 12) (minMv ticks : Nat)
  /-- CORE_RAIL_RESET (R470). A core rail reaches its reset level and its die resets, killing its commands and zeroing its SRAM. -/
  | coreRailReset (die : Fin 4) (mv : Nat)
  /-- ISLAND_RAIL_RESET (R471). An island rail reaches its reset level and its islands are reset and retrained. -/
  | islandRailReset (rail : Fin 12) (mv : Nat)
  /-- DEVICE_RAIL_RESET (R541). Rail 4, 5, 6 or 11 reaches its reset level and the whole device resets as by POR_N. -/
  | deviceRailReset (rail : Fin 12)
  /-- CLOCK_LOST (R569). A reference clock stops for 1 µs; its ports go down or its islands enter safe self-refresh. -/
  | clockLost (clk : Fin 3)
  /-- CLOCK_RESTORED (R569). A lost reference clock has run again for 1 ms and its sub-ports or islands are retrained. -/
  | clockRestored (clk : Fin 3)
  /-- CORRECTED_ERROR (R478). A corrected error is delivered as correct data and starts a targeted self-test. -/
  | correctedError (site : ErrSite)
  /-- UNCORRECTED_ERROR (R478). An uncorrected error poisons its granule, kills or ends the commands using it and starts a self-test. -/
  | uncorrectedError (site : ErrSite) (users : List CmdRef)
  /-- SELF_TEST_DONE (R480). A targeted self-test ends, the fault is judged transient or lasting, and any repair is started. -/
  | selfTestDone (site : ErrSite) (result : TestResult)
  /-- KEY_LOAD (R498). KEY_CTRL.LOAD over I3C loads a management key slot and resets its replay state. -/
  | keyLoad
  /-- KEY_LOCK (R498). KEY_CTRL.LOCK locks the selected key slot until POR_N. -/
  | keyLock
  /-- KEY_CLEAR (R514). KEY_CTRL.CLEAR empties the selected key slot unless it is locked. -/
  | keyClear
  /-- ATTESTATION_GO (R508). ATT_CTRL.GO captures the nonce and address and starts an attestation report. -/
  | attestationGo
  /-- ATTESTATION_DONE (R509). A signed attestation report is written to memory and RESULT becomes OK or EXHAUSTED. -/
  | attestationDone
  /-- MEASUREMENT_EXTEND (R504). EXTEND_CTRL.GO extends M7 with the written digest. -/
  | measurementExtend
  /-- SVN_COMMIT (R503). SVN_CTRL.COMMIT burns the running SVN into the OTP floor. -/
  | svnCommit
  /-- DEBUG_OPEN (R516). DEBUG_CTRL.OPEN opens the JTAG port, extends M6 and logs the opening. -/
  | debugOpen
  /-- CALENDAR_SET (R511). RTC_CTRL.SET loads the calendar at the next crystal edge and makes it valid. -/
  | calendarSet
  /-- SEC_LO_LATCH (R511). A read of RTC.SEC_LO latches SEC_HI and FRAC together. -/
  | secLoLatch
  /-- ENERGY_LO_LATCH (R472). A read of TRV.ENERGY_LO latches ENERGY_HI. -/
  | energyLoLatch
  /-- VBAT_LOW (R510). VBAT falls below 1.8 V and the calendar becomes invalid. -/
  | vbatLow
  /-- OSC_STOP (R510). No crystal edge arrives for 4 ms and the calendar becomes invalid. -/
  | oscStop
  /-- COUNTER_CLEAR (R78). GRD_CTRL.CNT_CLR clears the griddle step and tick counters of a core. -/
  | counterClear (core : Fin 208)
  /-- HEADER_COUNTER_CLEAR (R525). CONTROL.CNT_CLR clears a page's six header counters. -/
  | headerCounterClear (page : Nat)
  /-- REGISTER_WRITE (R6). A register write with no behaviour of its own stores, sets or clears fields by their access codes. -/
  | registerWrite (m : RegMaster) (page off : Nat) (value : Word)
  /-- I3C_ENTDAA (R534). The device takes its I3C dynamic address by ENTDAA. -/
  | i3cEntdaa (addr : BitVec 7)
  /-- I3C_PRIVATE_WRITE (R534). An I3C private write sets a register address and writes up to 64 consecutive registers. -/
  | i3cPrivateWrite (bytes : List Byte)
  /-- I3C_PRIVATE_READ (R534). An I3C private read returns up to 64 consecutive registers from the set address. -/
  | i3cPrivateRead (words : Nat)
  /-- POR_N_ASSERT (R544). POR_N goes low and holds the device in power-on whole-device reset. -/
  | porNAssert
  /-- WARM_N_ASSERT (R544). WARM_N goes low and holds the device in warm whole-device reset. -/
  | warmNAssert
  /-- RESET_RELEASE (R547). Whole-device reset ends and bring-up starts with reading the boot flash. -/
  | resetRelease
  /-- BOOT_VERIFIED (R501). Boot slot verification ends; the firmware runs, repairs are replayed, or the device halts. -/
  | bootVerified (slotA slotB : Option (List Byte))
  /-- HBM_TRAINED (R352). HBM stack training completes at 8.0 or 6.4 Gb/s, or fails and halts the device. -/
  | hbmTrained (results : List HbmTrain)
  /-- DDR_TRAINED (R351). DDR5 SPD reading and training complete, or the DDR5 zone is left at capacity 0. -/
  | ddrTrained (spds : List (Option Spd))
  /-- TIER_CLEAR_DONE (R548). The zero clear of HBM or DDR5 completes and management accesses to the tier proceed. -/
  | tierClearDone (ddr : Bool)
  /-- READY_RISE (R547). Once repairs, memory and flash map are done, READY rises and the I3C ready interrupt is raised. -/
  | readyRise (ms : Nat)
  /-- FLASH_CHANNELS_TRAINED (R389). Flash parameter pages have been read and the channels trained, so the population is judged and the map load or rebuild starts, or the flash zone is left at capacity 0 with MAP 0. -/
  | flashChannelsTrained (dies : List (List FlashDie))
  /-- RETRAIN (R56). An island that was reset or is being retrained finishes retraining, the waiting requesters proceed through its FIFOs, and RETRAIN is counted and raised. -/
  | retrain (island : Island)
  /-- REFRESH (R405). A flash block queued for refresh starts having its live units relocated when background channel time allows. -/
  | refresh (ch : Fin 32)
  /-- STRAY (R419). A received frame or datagram that no protocol of the device takes (wrong MAC, oversize, wrong UDP port or network, failed MACsec check, QP in RESET or ERROR) is dropped and counted. -/
  | stray (sub : Fin 32) (why : StrayWhy)
  /-- INVALID_REQUEST (R421). A RoCEv2 packet outside the supported set arrives and is answered with NAK Invalid Request, and its QP enters ERROR. -/
  | invalidRequest (qp : Fin 4096) (psn : BitVec 24)
  /-- TAP_INSTRUCTION (R516). A JTAG TAP instruction arrives and either runs boundary scan or acts as BYPASS until the debug port is opened. -/
  | tapInstruction (ins : TapIns)
  deriving DecidableEq, Repr

end Sys2Proof
end

