-- ==== Sys2Proof/Machine/State.lean ====
section
/-! DEFINITION. The state of the block as plain data: every register, store, queue, counter, mode and pin the spec
gives it, the queue of waiting commands, and the messages sent. Sparse stores are lists of key and value in rising
key order that list no default entry. -/

namespace Sys2Proof.Machine

/-- A sparse table: entries in rising key order, none equal to what an unlisted key reads as. -/
abbrev Tab (α : Type) := List (Nat × α)

/-- Memory: cells in rising key order, none zero. A key names a physical byte: the HBM-zone address of an HBM byte,
the DDR5-zone address of a DDR5 byte, the die-q stockpot address of a stockpot byte (R353). An unlisted byte reads 0:
the bring-up clears (R548) and the zeroing of R70 and R470 leave it so. -/
abbrev Mem := List Host.Cell

/-- The stops the model has. The spec answers every command by an effect on state, so no meaning raises one. -/
inductive Fault where
  /-- Raised by no meaning. Safe: a run that stops proves nothing further. -/
  | stopped
  deriving DecidableEq, Repr

/-- The refusals the model has. -/
inductive Refusal where
  /-- A command without a meaning; raised by `exec` alone. Safe: the run ends. -/
  | notModelled (mnemonic : String)
  deriving DecidableEq, Repr

/-- One semaphore (R167): value, reserved amount, sticky flags, POISON. -/
structure Sem where
  value : Nat
  resv : Nat
  satHi : Bool
  satLo : Bool
  poison : Bool
  deriving DecidableEq, Repr

/-- The states of a core slot (R74), in the order of their codes. -/
inductive CoreSt where
  | spare | enabled | retired | quiesced
  deriving DecidableEq, Repr

/-- A deal unit in a griddle's hand: the command, the unit's place in its queue order (or its landing tile), and
whether it was stolen (R114, R115). -/
structure UnitRef where
  cmd : CmdRef
  index : Nat
  landing : Bool
  stolen : Bool
  deriving DecidableEq, Repr

/-- A physical core: its slot's state, owner (31: none), bypassed column of each griddle (R75), unit in hand of each griddle and the unit
each has taken beyond it while it runs the last block of the first (R62), griddles quiesced by a bite (R79), whether its present wait was
reported (R177), quarters of its share now lent (R178), griddles gated as a borrower (R464), and the core that replaced it (R484; 0xFF: none
was left). `trayOf` is the partition whose values stand in its tray and its whisk registers (none: they are zero, R70), `trayUsed` and
`trayChain` the tray space in use in KiB (R82); `snap` is G_STEPS and G_TICKS of its griddles at the last laggard check, `rates` what that
check found (R58, R131). -/
structure Core where
  st : CoreSt
  owner : Nat
  byp : List (Option Nat)
  hand : List (Option UnitRef)
  next : List (Option UnitRef)
  stopped : List Nat
  reported : Bool
  lent : Nat
  borrowGate : Nat
  substitute : Option Nat
  trayOf : Option Nat
  trayUsed : Nat
  trayChain : Nat
  snap : List Nat
  rates : List Rat
  deriving DecidableEq, Repr

/-- The trivet's and supervisor's record of one compute die (R132, R457, R459, R460, R462): budget B, k, p_base,
gate G, whether the firmware has lowered its share as a laggard's, the laggard period of its last adjustment (counted from 1; 0: none yet),
laggard correction in mV, whether the die is in reset, whether its griddles start no new pass (R469), consecutive periods at the trip level
(R467), whether derated. -/
structure Die where
  budget : Rat
  k : Rat
  pBase : Option Rat
  gate : Nat
  lowered : Bool
  adjusted : Nat
  lagMv : Nat
  inReset : Bool
  held : Bool
  tripPeriods : Nat
  derated : Bool
  deriving DecidableEq, Repr

/-- One rail (R455): energy counted in µJ (R458), the energies of its last 8 periods (newest first), its warning level
in effect in mV (R457), whether it is below warning, whether at reset level, whether its regulator failed (R456), and
what the regulator last answered. -/
structure Rail where
  energy : Nat
  recent : List Nat
  warnMv : Nat
  warn : Bool
  down : Bool
  pmbFail : Bool
  resolution : Nat
  deriving DecidableEq, Repr

/-- Where an issued command's units of one die still stand in its queue (R113): units lo to hi - 1 of queue order. -/
structure DieRange where
  die : Nat
  lo : Nat
  hi : Nat
  deriving DecidableEq, Repr

/-- The stage of a command's life (R137, R148, R151, R157): accepted and waiting to issue; issued; past commit
order 2 and held there (SCATTER_ADD interrupted by a die reset, R152); past order 4 and waiting for an answer (a remote
SEMOP, R174) or for a drain (TABLE_SWITCH, R184); ended, with its completion waiting for the host ring (R577). -/
inductive Phase where
  | waiting | issued | applying | answering | draining | ended
  deriving DecidableEq, Repr

/-- A command in flight. `outs` are its output regions, `spans` its pending spans (R149), `takes` its reservations, `staging` what it
holds of each die's stockpot share; `slotPtr` and `slotVersion` the slot it captured; `reads` the pages it holds read references on,
`fills` those it waits for; `ranges` its units still queued, `taken` the units or rows done so far; `landing` the landing tiles not yet
taken, `landSems` every tile's arrival semaphore; `halo` each halo semaphore with its unit; `fetched` and `sent` what it has received
from and sent to other devices; `spoiled` the pending spans that an RDMA WRITE has met (R150). `clouds` are ranges that were written after
its issue without a wait of its own for them (R12, R138); `desc` is the descriptor it captured at issue (R185, R212), `log` the update log of
a SCATTER_ADD (the words of an update that has been applied are gone) and `drops` its invalid and missing positions (R152); `landSlots` are the landing tiles that have a slot (R109), `haloRows` the
units whose first rows stand in their halo slot (R128), `units` the units of each entry and how many of
them lie side by side in a row block, `placed` the units taken, each with the die that took it (R585). -/
structure Cmd where
  ref : CmdRef
  part : Nat
  hdr : CapHdr
  opcode : Nat
  body : List Byte
  phase : Phase
  carried : Bool
  reruns : Nat
  outs : List (Nat × Nat)
  spans : List (Nat × Nat)
  takes : List (Nat × Nat)
  staging : List (Nat × Nat)
  slotPtr : Nat
  slotVersion : Nat
  reads : List Nat
  fills : List Nat
  ranges : List DieRange
  taken : Nat
  landing : List Nat
  landSems : List Nat
  halo : List (Nat × Nat)
  tileM : Nat
  tileN : Nat
  tileK : Nat
  parts : Nat
  status : Nat
  detail : Nat
  stage : Nat
  flags : Nat
  count : Nat
  heldPeriods : Nat
  borrowed : Nat
  fetched : List Nat
  sent : List (Nat × Nat)
  collSeq : Nat
  spoiled : List (Nat × Nat)
  clouds : List (Nat × Nat)
  desc : List Byte
  log : List (Nat × List Word)
  drops : Nat × Nat
  landSlots : List Nat
  haloRows : List Nat
  units : List (Nat × Nat)
  placed : List (Nat × Nat)
  deriving DecidableEq, Repr

/-- A list capsule in flight (R141, R578): its acceptance number and partition, tag, QUIET flag, next record's address, records
accepted, records in all. -/
structure ListCap where
  seq : Nat
  part : Nat
  tag : Nat
  quiet : Bool
  next : Nat
  accepted : Nat
  total : Nat
  deriving DecidableEq, Repr

/-- One record on its way to a host ring (R161, R163): its slots of 32 bytes with PHASE still 0, and the command
whose in-flight slot its writing frees. -/
structure Rec where
  slots : List (List Byte)
  frees : Option CmdRef
  deriving DecidableEq, Repr

/-- A host ring's device side (R160, R577): slots written, consumed count in force, records waiting, the one held
RING_FULL event's INFO. -/
structure Ring where
  written : Nat
  consumed : Nat
  waiting : List Rec
  heldFull : Option Nat
  deriving DecidableEq, Repr

/-- The states of a partition (R333), in the order of their codes. -/
inductive PState where
  | free | active | suspending | suspended | resuming
  deriving DecidableEq, Repr

/-- A value of the suspension store (R341): semaphore, value, owning command. -/
structure Saved where
  sem : Nat
  value : Nat
  cmd : CmdRef
  bad : Bool
  deriving DecidableEq, Repr

/-- An entry of the cancel table (R321): request tag, model and index, the ACTION 2 command and the number of its entry that
waits for it, the stages that acknowledged its notice, whether CONFIRM or DEFER arrived, and whether it stands here for a notice
received as a pipeline stage (R323). -/
structure CancelEntry where
  tag : Nat
  model : Nat
  request : Nat
  cmd : CmdRef
  entry : Nat
  acks : List Nat
  confirmed : Bool
  deferred : Bool
  notified : Bool
  deriving DecidableEq, Repr

/-- A request of a step's batch (R313): its index, its first row, its draft tokens as read at issue. -/
structure BatchRow where
  req : Nat
  row : Nat
  draft : List Nat
  deriving DecidableEq, Repr

/-- A prompt chunk carried by a step or a pass (R325): request, first position, positions. -/
structure Chunk where
  req : Nat
  start : Nat
  len : Nat
  deriving DecidableEq, Repr

/-- Pages that the issue of a step or pass took (R303, R308): page numbers allocated, directory words written with the values they had
before, the directory words that name a private copy only from the commit on, each with that copy, and the shared pages that then lose a
reference. -/
structure Taken where
  frames : List Nat
  undo : List (Nat × Nat)
  renames : List (Nat × Nat)
  shared : List Nat
  deriving DecidableEq, Repr

/-- An ACTION 0 step that has issued and not committed (R313): its command, batch, chunks, requests that sat out and those of them
that wait for pages, the text slots captured (slot, KIND, VERSION, pointer: R266), and what its issue took. -/
structure StepRun where
  model : Nat
  cmd : CmdRef
  batch : List BatchRow
  chunks : List Chunk
  satOut : List Nat
  pageWait : List Nat
  slots : List (Nat × Nat × Nat × Nat)
  taken : Taken
  deriving DecidableEq, Repr

/-- A prefill pass in flight (R326): model, the name its records carry, its chunk, and what its issue took. -/
structure PassRun where
  model : Nat
  cmd : CmdRef
  chunk : Chunk
  taken : Taken
  deriving DecidableEq, Repr

/-- A partition's serving engine (R330): enabled, frames in use of each pool, cancel table, next ADMIT_SEQ, dropped handles whose
references wait for a boundary (directory, length, model), steps and passes in progress, for each model the request its
next batch starts with (R313), for each model the request whose passes follow one another (R326), the last token of each request that has generated one (R301), requests that published (R309), the LENGTH of each request after its admission (R325), the handle-table entry that each sharer was admitted on (R306). `config`
holds SRV_CFG and the pool registers, by offset, as they stood when serving was enabled: writes to them take effect only while EN
is 0. -/
structure Serving where
  enabled : Bool
  config : List (Nat × Nat)
  hbmUsed : List Nat
  ddrUsed : List Nat
  cancels : List CancelEntry
  admitted : Nat
  drops : List (Nat × Nat × Nat)
  steps : List StepRun
  passes : List PassRun
  turn : List (Nat × Nat)
  filling : List (Nat × Nat)
  last : List (Nat × Nat)
  published : List Nat
  admitLens : List (Nat × Nat)
  sharing : List (Nat × Nat)
  deriving DecidableEq, Repr

/-- A partition. `setup` is its 256-byte setup block kept from its RUN (R335; empty while FREE). `from'` and `op` are those
of the state change in progress. -/
structure Part where
  st : PState
  setup : List Byte
  changing : Option (Nat × Nat)
  stage : Nat
  intakePos : Nat
  intakePhase : Bool
  intakeCount : Nat
  ring : Ring
  store : List Saved
  stream : List (Nat × Nat)
  current : Option Nat
  fillQueue : List Nat
  behind : List Nat
  srv : Serving
  windows : Bool
  deriving DecidableEq, Repr

/-- A window copy of a page (R355): partition, HBM frame, dirty 4 KiB blocks in rising order, pinned, the slots of its
expert holds (R365), read stamp. -/
structure WinCopy where
  part : Nat
  frame : Nat
  dirty : List Nat
  pinned : Bool
  hold : List Nat
  stamp : Nat
  deriving DecidableEq, Repr

/-- A move of a page in progress (R361): what it is for (0 fill into a window, 1 retirement, 2 a MIGRATE's copy), the
partition, the destination frame, the blocks written meanwhile, whether the fill pins, the slots of its expert holds, the
command it is made for, and whether its copy is complete and waits for that command's commit. -/
structure Move where
  kind : Nat
  part : Nat
  frame : Nat
  marked : List Nat
  pin : Bool
  hold : List Nat
  cmd : Option CmdRef
  done : Bool
  deriving DecidableEq, Repr

/-- The record of one page of the tiered range: hint (none: its zone's default, R357), window copies (one for each
partition at most, R337, R355), moves in progress, old frames with the readers they wait for (R361, order 6). -/
structure Page where
  hint : Option Nat
  copies : List WinCopy
  moves : List Move
  old : List (Nat × List CmdRef)
  deriving DecidableEq, Repr

/-- A stalled scatter update (R200): the ladle that holds it, the command, the moving page, and the row's address and new bytes. -/
structure Stall where
  ladle : Nat
  cmd : CmdRef
  page : Nat
  addr : Nat
  bytes : List Byte
  deriving DecidableEq, Repr

/-- A request queued at an arbiter port (R377): the request, its age, whether it has been counted as throttled. -/
structure Queued where
  req : ArbReq
  age : Nat
  order : Nat
  throttled : Bool
  deriving DecidableEq, Repr

/-- An arbiter port (R375, R381, R383). -/
structure ArbPort where
  queue : List Queued
  losses : Nat
  backoff : Nat
  out : Bool
  lastBite : Option Nat
  deriving DecidableEq, Repr

/-- An arbiter: its ports, the grant in service (port and request), the tick limit of that grant (R384), the held pick's port, whether the pick went as
spare bandwidth (for STALE, R379), whether it has been counted stale, arrival counter, and the token-bucket credits of R338, in
1/4096 byte, by partition. -/
structure Arb where
  ports : Tab ArbPort
  grant : Option (Nat × Queued)
  limit : Nat
  pick : Option Nat
  pickSpare : Bool
  stale : Bool
  arrivals : Nat
  credits : Tab Int
  deriving DecidableEq, Repr

/-- A flash unit (R390): LUA, KIND, SEQ, the bytes that are not zero, and whether it was marked lost (R408). -/
structure FUnit where
  lua : Nat
  kind : Nat
  seq : Nat
  data : Tab Byte
  lost : Bool
  deriving DecidableEq, Repr

/-- The life of a flash block (R392): free, open, closed, retired, marked bad by its maker. -/
inductive BlkSt where
  | free | open | closed | retired | bad
  deriving DecidableEq, Repr

/-- A flash block: state, MODE of its summary, erase count, reads since erase, band (and whether a band of
relocations: 2n + 1), units in program order, waiting for refresh, why its live units leave it (0: they do not; 1 reclaim,
2 wear levelling, 3 fold, 4 refresh, 5 band or failure), commands reading it when a map entry left it (R399). -/
structure Blk where
  st : BlkSt
  mode : Nat
  erases : Nat
  reads : Nat
  band : Nat
  units : List FUnit
  refresh : Bool
  leaving : Nat
  readers : List CmdRef
  deriving DecidableEq, Repr

/-- A relocation in progress (R399): the unit as read, the block it leaves, its index there. -/
structure Reloc where
  unit : FUnit
  blk : Nat
  index : Nat
  deriving DecidableEq, Repr

/-- A flash channel: its write buffer (oldest first), relocations in progress, dies lost, blocks retired in service,
next band number, and the parameter pages read. -/
structure FlashCh where
  dies : List FlashDie
  buffer : List FUnit
  relocs : List Reloc
  lost : List Nat
  retired : Nat
  nextBand : Nat
  deriving DecidableEq, Repr

/-- The flash media manager (R388 to R410); `hostWr` holds bytes written by hosts and not yet in HOST_WR: channel, partition, bytes. Blocks and the map are keyed by `blkKey` and by LUA. -/
structure Flash where
  chans : Tab FlashCh
  blocks : Tab Blk
  map : Tab (Nat × Nat)
  lostUnits : List Nat
  seq : Nat
  formatted : Bool
  marker : Option Nat
  markerFresh : Bool
  mapState : Nat
  readOnly : Bool
  logical : Nat
  goodRaw : Nat
  marginAtFormat : Nat
  rebuildS : Nat
  patrolDone : Nat
  patrolPos : Nat
  patrolElapsed : Nat
  patrolSaved : Nat × Nat
  lifeSeen : Nat
  hostWr : List (Nat × Nat × Nat)
  deriving DecidableEq, Repr

/-- A queue pair (R422): its 64-byte context, and the requester and responder state the context does not hold:
records sent and not acknowledged (PSN and message), retries left, packets reassembled. -/
structure Qp where
  ctx : List Byte
  unacked : List (Nat × Nat × List Byte)
  retries : Nat
  rnr : Nat
  cnpStrobe : Option Nat
  throttle : Rat
  alpha : Rat
  deriving DecidableEq, Repr

/-- A fabric packet at its sender (R439): its number once sent, type, header, payload, the command it belongs to, the sub-port of its
last send, packets sent after it that have been acknowledged, whether it waits to be resent after a NACK (R436), and the
connection's count of packets at its last send. -/
structure Sent where
  psn : Nat
  type : Nat
  hdr : FabHdr
  body : List Byte
  cmd : Option CmdRef
  sub : Nat
  later : Nat
  waiting : Bool
  order : Nat
  deriving DecidableEq, Repr

/-- A sending connection (R434 to R442): its context, next PSN, whether SYN is still set, packets sent and not acknowledged (rising
PSN), packets not yet sent, smoothed round trip, RTOs in a row, whether its peer is unreachable, the sub-port to avoid and for how many
packets (R439), packets sent in all, and the rate with its window. -/
structure TxConn where
  conn : ConnId
  backlog : List Sent
  next : Nat
  syn : Bool
  outstanding : List Sent
  srtt : Nat
  rtos : Nat
  down : Bool
  avoid : Nat × Nat
  sentCount : Nat
  rate : Rat
  alpha : Rat
  winCe : Nat
  winAcked : Nat
  deriving DecidableEq, Repr

/-- A receiving connection (R434, R438): the sender, the communicator that its last packet named (0xFFFF: none; packets that name
none are numbered apart from those that do), CUM_PSN, PSNs received above it, packets and CE marks since the
last ACK, the packet that prompts the next ACK. -/
structure RxConn where
  conn : ConnId
  comm : Nat
  cum : Nat
  sack : List Nat
  pkts : Nat
  ce : Nat
  trig : Nat
  deriving DecidableEq, Repr

/-- An item record (R436): key (SRC_DEV, SRC_PART, ACC_SEQ, ITEM), bytes counted, RERUN, complete, and a SEMOP's recorded result. -/
structure Item where
  dev : Nat
  part : Nat
  accSeq : Nat
  item : Nat
  count : Nat
  rerun : Nat
  complete : Bool
  result : Option Nat
  deriving DecidableEq, Repr

/-- A communicator record (R443) and the state of its collectives (R134, R445): collectives issued, arrivals in the
window, last arrivals by rank, and the ticks of the window's waits from the second-last arrival to the last and of the intervals between its
collectives, by the engine's pace meter. -/
structure Comm where
  part : Nat
  members : Nat
  rank : Nat
  list : Nat
  valid : Bool
  issued : Nat
  window : Nat
  last : Tab Nat
  waitTicks : Nat
  gapTicks : Nat
  deriving DecidableEq, Repr

/-- A collective in progress at this device (R445, R446): communicator, number, command, and the items that are whole with their
bytes. It stands from the command's first issue to its end. -/
structure Coll where
  comm : Nat
  num : Nat
  cmd : CmdRef
  arrived : List (Nat × Nat)
  deriving DecidableEq, Repr

/-- A MACsec secure association (R448, R449); `noted` once its packet number has passed 2^62. -/
structure Sa where
  an : Nat
  ssci : Word
  salt : List Byte
  nextPn : Nat
  sci : Dword
  key : List Byte
  noted : Bool
  deriving DecidableEq, Repr

/-- A sub-port: link up, lanes in use, MACsec associations sent with and received with, the association number sent with,
paused by PFC. -/
structure SubPort where
  up : Bool
  lanes : Nat
  tx : List Sa
  rx : List Sa
  txAn : Nat
  paused : Bool
  deriving DecidableEq, Repr

/-- The front and back networks. `owed` holds the commands that addressed a peer and owe it a RELEASE (R437),
with the communicator they named. -/
structure Net where
  qps : Tab Qp
  subs : Tab SubPort
  lanesBad : Tab (List Nat)
  txConns : List TxConn
  rxConns : List RxConn
  items : List Item
  fabric : Tab Nat
  comms : Tab Comm
  colls : List Coll
  owed : List (CmdRef × ConnId × Nat)
  rotor : Nat
  deriving DecidableEq, Repr

/-- An entry of the error log (R489). -/
structure LogEntry where
  outcome : Nat
  cls : Nat
  struct_ : Nat
  page : Nat
  location : Nat
  time : Nat
  deriving DecidableEq, Repr

/-- A targeted self-test in progress (R480): the site, the log entries that share its outcome, whether its fault was
uncorrected, and whether it tests a post-package repair (R483). -/
structure Test where
  site : ErrSite
  entries : List Nat
  started : Bool
  uncorrected : Bool
  ppr : Bool
  deriving DecidableEq, Repr

/-- A passed test remembered for R482: the site and the strobe count at which it passed. -/
structure Passed where
  site : ErrSite
  strobe : Nat
  deriving DecidableEq, Repr

/-- A record of the repair history (R487). -/
structure Hist where
  kind : Nat
  factory : Bool
  replay : Bool
  page : Nat
  location : Nat
  seconds : Nat
  deriving DecidableEq, Repr

/-- Errors and repair (19): the log of 1,024 entries (by index), the next entry's number, tests, passed tests, the
repair history oldest first, retired frames (frame to reserve frame), reserve frames left, holes, spare rows used by
page. -/
structure Errors where
  log : Tab LogEntry
  logged : Nat
  tests : List Test
  passes : List Passed
  hist : List Hist
  hbmMap : Tab Nat
  ddrMap : Tab Nat
  hbmReserve : List Nat
  ddrReserve : List Nat
  hbmHoles : List Nat
  ddrHoles : List Nat
  rows : Tab Nat
  noSpare : List ErrSite
  wires : Tab Nat
  retired : Tab Nat
  poison : List Nat
  deriving DecidableEq, Repr

/-- A management key slot (R498, R429, R431): key, locked, highest accepted SEQ, SEQs accepted within 64 of it, kept
responses by REQ_ID, newest first. -/
structure KeySlot where
  key : Option (List Byte)
  locked : Bool
  highest : Nat
  accepted : List Nat
  kept : List (Nat × List Byte)
  deriving DecidableEq, Repr

/-- An attestation in progress (R508): the nonce and address captured at GO. -/
structure AttRun where
  nonce : List Byte
  addr : Nat
  deriving DecidableEq, Repr

/-- The security block and management complex (20): key slots, measurements, leaf state, attestation, OTP, debug
port, management log (entries of 32 bytes, newest last, and the number ever written). -/
structure Security where
  slots : Tab KeySlot
  keyWords : List Word
  meas : Tab (List Byte)
  leafNext : Nat
  leafReserved : Nat
  leafSeq : Nat
  leafReady : Bool
  exhausted : Bool
  att : Option AttRun
  attResult : Nat
  rootHash : List Byte
  svnFloor : Nat
  burned : Nat
  lifecycle : Nat
  runningSvn : Nat
  pubkey : List Byte
  debugOpen : Bool
  log : Tab (List Byte)
  logged : Nat
  deriving DecidableEq, Repr

/-- The calendar (R510 to R512). The latch holds SEC_HI and FRAC at the last read of SEC_LO. -/
structure Calendar where
  seconds : Nat
  fraction : Nat
  valid : Bool
  vbatLow : Bool
  oscStop : Bool
  trimAcc : Int
  latchHi : Nat
  latchFrac : Nat
  lossLogged : Bool
  deriving DecidableEq, Repr

/-- Start-up and pins (22): whether POR_N and WARM_N are low, a trip stands, bring-up stage of MGT_STATUS, boot slot,
failure code, trained and cleared flags, READY, FAULT_N and THERM_N as driven, cause of the last reset and its INFO,
milliseconds to READY, whether the ready message is answered, training results kept for reuse. -/
structure Startup where
  porLow : Bool
  warmLow : Bool
  tripped : Bool
  inReset : Bool
  halted : Bool
  stage : Nat
  slotB : Bool
  fail : Nat
  hbmDone : Bool
  ddrDone : Bool
  flashDone : Bool
  hbmCleared : Bool
  ddrCleared : Bool
  ready : Bool
  faultLow : Bool
  thermLow : Bool
  cause : Nat
  causeInfo : Nat
  bootMs : Nat
  answered : Bool
  reused : Bool
  components : List (Nat × List Byte)
  clocksLost : List Nat
  deriving DecidableEq, Repr

/-- What is fixed in a part at manufacture or fitted on its board (R3, R51, R418, R534, R535). -/
structure Fitted where
  h384 : Bool
  serial : Nat
  macBase : Nat
  provisional : Nat
  deriving DecidableEq, Repr

/-- Memory tiers as trained (R350 to R354), and each stack's consecutive periods at its trip level (R467). -/
structure Tiers where
  hbmTrained : List Bool
  hbmFallback : List Bool
  ddrSpds : List (Option Spd)
  ddrTrained : Bool
  ddrRate : Nat
  stackTrip : List Nat
  deriving DecidableEq, Repr

/-- A table or index slot (R183, R210): VERSION, descriptor pointer, GATHER commits since the last hot refresh; the
previous version a switch waits to drain; whether die resets made the ladles ignore hot sets (R470), by die. -/
structure Slot where
  version : Nat
  ptr : Nat
  gathers : Nat
  ignoreHot : List Nat
  deriving DecidableEq, Repr

/-- A text slot (R264). -/
structure TextSlot where
  kind : Nat
  version : Nat
  ptr : Nat
  deriving DecidableEq, Repr

/-- A message the device sent, in the order sent. -/
inductive Tx where
  /-- An RDMA WRITE on a queue pair: host address and bytes (R425). -/
  | rdmaWrite (qp : Nat) (psn : Nat) (addr : Nat) (bytes : List Byte)
  /-- A RoCEv2 acknowledgement (syndrome 0) or NAK with its syndrome. -/
  | roceAck (qp : Nat) (psn : Nat) (syndrome : Nat)
  | readResponse (qp : Nat) (psn : Nat) (bytes : List Byte)
  | cnp (qp : Nat)
  | mgmt (sub : Nat) (dst : Endpoint) (bytes : List Byte)
  | fabric (conn : ConnId) (type : Nat) (h : FabHdr) (body : List Byte) (sub udp : Nat)
  | arpReply (sub : Nat) (mac : BitVec 48) (ip : Word)
  | neighborAdvert (sub : Nat) (target : BitVec 128)
  | echoReply (sub : Nat) (v6 : Bool) (dst : BitVec 128) (payload : List Byte)
  | ibi (data : Byte)
  | i3cData (words : List Word)
  | i3cNack
  | pmbus (rail mv : Nat)
  | tap (bypass : Bool)
  deriving DecidableEq, Repr

/-- The state of the block. `pending` is the queue of waiting commands, `tx` the messages sent, `freeCtr` the index of
the next free value (Config; log entry 1); these three are the model's own. `buckets` are the token buckets of the flash channels and of the
front ports (R338), `lagChecked` the laggard periods checked (R131). -/
structure State where
  pending : List Instr
  tx : List Tx
  freeCtr : Nat
  fitted : Fitted
  start : Startup
  regs : Tab Word
  shadow : Tab Word
  eventOnce : List Nat
  strobes : Nat
  mem : Mem
  pages : Tab Page
  tiers : Tiers
  sems : Tab Sem
  cores : Tab Core
  dies : Tab Die
  medianRate : Rat
  rails : Tab Rail
  cmds : List Cmd
  lists : List ListCap
  nextSeq : Nat
  parts : Tab Part
  changeQueue : List (Nat × Nat × Nat)
  tables : Tab Slot
  indexes : Tab Slot
  texts : Tab TextSlot
  stalls : List Stall
  arbs : Tab Arb
  flash : Flash
  net : Net
  errors : Errors
  sec : Security
  cal : Calendar
  i3cAddr : Option (BitVec 7)
  i3cPtr : Nat
  energyLatch : Nat
  readStamp : Nat
  residue : Tab Nat
  buckets : Tab Int
  lagChecked : Nat
  deriving DecidableEq, Repr

/-- The media manager of an empty flash tier. DESIGN CHOICE (log entry 3). -/
def Flash.empty : Flash :=
  ⟨[], [], [], [], 0, false, none, false, 0, false, 0, 0, 0, 0, 0, 0, 0, (0, 0), 0, []⟩

/-- The networks with no link, context, connection or record. -/
def Net.empty : Net := ⟨[], [], [], [], [], [], [], [], [], [], 0⟩

/-- No error logged, no repair made; the 16 reserve frames of HBM and the 64 of DDR5 (R486), these last numbered beyond the
frames of the DDR5 zone. DESIGN CHOICE (log entry 3). -/
def Errors.empty (hbmFrames : Nat) : Errors :=
  ⟨[], 0, [], [], [], [], [], List.range' (hbmFrames - 16) 16, List.range' 0x400000 64, [], [], [], [], [], [], []⟩

/-- No key, no measurement, no attestation. OTP is as log entry 3 names it. DESIGN CHOICE (log entry 3). -/
def Security.blank : Security :=
  ⟨[], List.replicate 8 0#32, [], 0, 0, 0, false, false, none, 0, List.replicate 32 0#8, 0, 0, 3, 0,
    List.replicate 60 0#8, false, [], 0⟩

/-- The calendar of a part whose VBAT has just been fitted (log entry 3). DESIGN CHOICE (log entry 3). -/
def Calendar.unset : Calendar := ⟨0, 0, false, false, false, 0, 0, 0, false⟩

/-- The pins and the bring-up just after POR_N rises: out of whole-device reset, before order 1 of R547 is done. DESIGN CHOICE (log entry 2). -/
def Startup.atRelease : Startup :=
  ⟨false, false, false, false, false, 0, false, 0, false, false, false, false, false, false, false, false, 0x0210, 0, 0,
    false, false, [], []⟩

/-- The block right after a power-on reset (R533, R541, R545, R547; log entries 2 and 3). DESIGN CHOICE (log entries 2, 3, 6). -/
def State.reset : State where
  pending := []
  tx := []
  freeCtr := 0
  fitted := ⟨true, 1, 0x020000000000, 1⟩
  start := Startup.atRelease
  regs := []
  shadow := []
  eventOnce := []
  strobes := 0
  mem := []
  pages := []
  tiers := ⟨[], [], [], false, 0, []⟩
  sems := []
  cores := []
  dies := []
  medianRate := 0
  rails := []
  cmds := []
  lists := []
  nextSeq := 0
  parts := []
  changeQueue := []
  tables := []
  indexes := []
  texts := []
  stalls := []
  arbs := []
  flash := Flash.empty
  net := Net.empty
  errors := Errors.empty 196608
  sec := Security.blank
  cal := Calendar.unset
  i3cAddr := none
  i3cPtr := 0
  energyLatch := 0
  readStamp := 0
  residue := []
  buckets := []
  lagChecked := 0

end Sys2Proof.Machine
end

