-- ==== Sys2Proof/Machine/Ops.lean ====
section
/-! DEFINITION. The named operations the meanings share: sparse tables, little-endian fields (R5), the address map and
translation (R353 to R355), reads and writes of device memory with poison, pending spans, dirty marks and windows, and the
accessors of State. -/

namespace Sys2Proof.Machine

/-! ### Sparse tables -/

/-- What key `i` reads as, where an unlisted key reads `d`. -/
def tabGet {α : Type} (d : α) : Tab α → Nat → α
  | [], _ => d
  | (k, v) :: t, i => if i = k then v else if i < k then d else tabGet d t i

/-- `t` with key `i` reading `v`, in canonical form: rising keys, no entry equal to the default. -/
def tabPut {α : Type} [DecidableEq α] (d : α) : Tab α → Nat → α → Tab α
  | [], i, v => if v = d then [] else [(i, v)]
  | (k, w) :: t, i, v =>
    if i < k then (if v = d then (k, w) :: t else (i, v) :: (k, w) :: t)
    else if i = k then (if v = d then t else (i, v) :: t)
    else (k, w) :: tabPut d t i v

/-- Every key of `t` is above `b`, keys rise, and no entry reads the default. -/
def tabAbove {α : Type} [DecidableEq α] (d : α) : Nat → Tab α → Bool
  | _, [] => true
  | b, (k, v) :: t => decide (b ≤ k) && decide (v ≠ d) && tabAbove d (k + 1) t

/-- The canonical form of a table. -/
def tabWf {α : Type} [DecidableEq α] (d : α) (t : Tab α) : Bool := tabAbove d 0 t

/-- What a listed key holds, or none. -/
def tabFind {α : Type} : Tab α → Nat → Option α
  | [], _ => none
  | (k, v) :: t, i => if i = k then some v else tabFind t i

/-- `t` without key `i`. -/
def tabDrop {α : Type} (t : Tab α) (i : Nat) : Tab α := t.filter (fun e => e.1 ≠ i)

/-- `t` with key `i` listed as `v`, whatever `v` is. -/
def tabSet {α : Type} : Tab α → Nat → α → Tab α
  | [], i, v => [(i, v)]
  | (k, w) :: t, i, v =>
    if i < k then (i, v) :: (k, w) :: t else if i = k then (i, v) :: t else (k, w) :: tabSet t i v

/-! ### Bytes, words and fields -/

/-- The number little-endian bytes spell (R5). -/
def leNat : List Byte → Nat
  | [] => 0
  | b :: bs => b.toNat + 256 * leNat bs

/-- `n` little-endian bytes of `v`. -/
def leBytes : Nat → Nat → List Byte
  | 0, _ => []
  | n + 1, v => BitVec.ofNat 8 v :: leBytes n (v / 256)

/-- The number big-endian bytes spell. -/
def beNat (bs : List Byte) : Nat := bs.foldl (fun a b => a * 256 + b.toNat) 0

/-- `n` big-endian bytes of `v`. -/
def beBytes (n v : Nat) : List Byte := (leBytes n v).reverse

/-- The little-endian field of `n` bytes at offset `off`; bytes beyond the end read 0. -/
def fld (bs : List Byte) (off n : Nat) : Nat := leNat ((bs.drop off).take n)

/-- The big-endian field of `n` bytes at offset `off`. -/
def fldBe (bs : List Byte) (off n : Nat) : Nat := beNat ((bs.drop off).take n)

/-- Bits hi to lo of a number. -/
def bits (v hi lo : Nat) : Nat := v / 2 ^ lo % 2 ^ (hi + 1 - lo)

/-- Bit b of a number. -/
def bit (v b : Nat) : Bool := v / 2 ^ b % 2 = 1

/-- 1 for true. -/
def b2n (b : Bool) : Nat := if b then 1 else 0

/-- ⌈a / b⌉. -/
def ceilDiv (a b : Nat) : Nat := (a + b - 1) / b

/-- a rounded up to a multiple of b. -/
def roundUp (a b : Nat) : Nat := ceilDiv a b * b

/-- The first n bytes, with zeros where there are fewer. -/
def padTo (n : Nat) (bs : List Byte) : List Byte := bs.take n ++ List.replicate (n - bs.length) 0#8

/-- `bs` with the bytes from offset `off` replaced by `new`. -/
def patch (bs : List Byte) (off : Nat) (new : List Byte) : List Byte :=
  bs.take off ++ new ++ bs.drop (off + new.length)

/-- The n-th element or a default. -/
def nth {α : Type} (d : α) (l : List α) (n : Nat) : α := l.getD n d

/-- `l` with element n replaced, extended by `d` where shorter. -/
def setNth {α : Type} (d : α) : List α → Nat → α → List α
  | [], 0, v => [v]
  | [], n + 1, v => d :: setNth d [] n v
  | _ :: t, 0, v => v :: t
  | h :: t, n + 1, v => h :: setNth d t n v

/-- A number inserted into a rising list. -/
def insertNat : List Nat → Nat → List Nat
  | [], n => [n]
  | h :: t, n => if n < h then n :: h :: t else if n = h then h :: t else h :: insertNat t n

/-- A 32-bit saturating sum, for counters that the spec calls saturating. -/
def satAdd32 (a n : Nat) : Nat := min (a + n) 0xFFFFFFFF

/-- [lo, hi) ranges that share a number. -/
def overlaps (a b : Nat × Nat) : Bool := a.1 < b.2 && b.1 < a.2

/-- Range [a, a+n) within [lo, lo+m). -/
def within (a n lo m : Nat) : Bool := lo ≤ a && a + n ≤ lo + m

/-! ### The address map (R353) -/

def pageBytes : Nat := 0x200000
def hbmBase : Nat := 0
def hbmSize : Nat := 0x80_0000_0000
def ddrBase : Nat := 0x100_0000_0000
def ddrSize : Nat := 0x800_0000_0000
def flsBase : Nat := 0x1000_0000_0000
def flsSize : Nat := 0x8000_0000_0000
def rawHbmBase : Nat := 0x00E0_0000_0000_0000
def rawDdrBase : Nat := 0x00E1_0000_0000_0000
def localPotBase : Nat := 0x00F0_0000_0000_0000
def potBase : Nat := 0x00F1_0000_0000_0000
def potSize : Nat := 0x800_0000
def potStep : Nat := 0x1000_0000
def regBase : Nat := 0x00FF_0000_0000_0000

/-- Where an address lies (R353). -/
inductive Zone where
  | hbm | ddr | fls | rawHbm | rawDdr | localPot | pot (q : Nat) | regs | unmapped
  deriving DecidableEq, Repr

def zoneOf (a : Nat) : Zone :=
  if a < hbmSize then .hbm
  else if within a 1 ddrBase ddrSize then .ddr
  else if within a 1 flsBase flsSize then .fls
  else if within a 1 rawHbmBase hbmSize then .rawHbm
  else if within a 1 rawDdrBase ddrSize then .rawDdr
  else if within a 1 localPotBase potSize then .localPot
  else if potBase ≤ a && a < potBase + 4 * potStep && (a - potBase) % potStep < potSize then .pot ((a - potBase) / potStep)
  else if regBase ≤ a && a < regBase + 0x580 * 0x1000 then .regs
  else .unmapped

/-! ### Defaults of the sparse parts of State -/

def semZero : Sem := ⟨0, 0, false, false, false⟩

/-- A core slot at reset: slots 0 to 47 of each die enabled, 48 to 51 spare (R51 fixes the counts; which slots is per
part: log entry 3). DESIGN CHOICE (log entry 3). -/
def coreDefault (c : Nat) : Core :=
  ⟨if c % 52 < 48 then .enabled else .spare, 31, [], [], [], [], false, 0, 0, none, none, 0, 0, [], []⟩

/-- DEDUCED (log entry 32). -/
def dieDefault : Die := ⟨0, 1, none, 4, false, 0, 0, false, false, 0, false⟩

/-- Setpoints of R564 in mV; the core rails' until the trivet first addresses them. -/
def railSetMv (r : Nat) : Nat := [750, 750, 750, 750, 750, 750, 1050, 750, 1100, 850, 1200, 1800].getD r 0

/-- The reset level of a rail in mV (R468). -/
def railResetMv (r : Nat) : Nat := if r < 4 then 480 else railSetMv r * 90 / 100

/-- A rail at reset, its warning level as R468 states at its setpoint. DESIGN CHOICE (log entry 3). -/
def railDefault (r : Nat) : Rail :=
  ⟨0, [], if r < 4 then 690 else railSetMv r * 95 / 100, false, false, false, 0⟩

def ringEmpty : Ring := ⟨0, 0, [], none⟩

def servingOff : Serving := ⟨false, [], [], [], [], 0, [], [], [], [], [], [], [], [], []⟩

def partFree : Part :=
  ⟨.free, [], none, 0, 0, true, 0, ringEmpty, [], [], none, [], [], servingOff, false⟩

def pageDefault : Page := ⟨none, [], [], []⟩
def slotEmpty : Slot := ⟨0, 0, 0, []⟩
def textEmpty : TextSlot := ⟨0, 0, 0⟩
def arbPortIdle : ArbPort := ⟨[], 0, 0, false, none⟩
/-- DEDUCED (log entry 32). -/
def arbIdle : Arb := ⟨[], none, 0, none, false, false, 0, []⟩
def chanEmpty : FlashCh := ⟨[], [], [], [], 0, 0⟩
def blkFree : Blk := ⟨.free, 0, 0, 0, 0, [], false, 0, []⟩
def qpReset : Qp := ⟨[], [], 0, 0, none, 1, 0⟩
def subDown : SubPort := ⟨false, 4, [], [], 0, false⟩
def commNone : Comm := ⟨0, 0, 0, 0, false, 0, 0, [], 0, 0⟩
def keyEmpty : KeySlot := ⟨none, false, 0, [], []⟩

/-! ### Accessors of State -/

def State.sem (s : State) (k : Nat) : Sem := tabGet semZero s.sems k
def State.setSem (s : State) (k : Nat) (x : Sem) : State := { s with sems := tabPut semZero s.sems k x }
def State.core (s : State) (c : Nat) : Core := tabGet (coreDefault c) s.cores c
def State.setCore (s : State) (c : Nat) (x : Core) : State := { s with cores := tabPut (coreDefault c) s.cores c x }
def State.die (s : State) (q : Nat) : Die := tabGet dieDefault s.dies q
def State.setDie (s : State) (q : Nat) (x : Die) : State := { s with dies := tabPut dieDefault s.dies q x }
def State.rail (s : State) (r : Nat) : Rail := tabGet (railDefault r) s.rails r
def State.setRail (s : State) (r : Nat) (x : Rail) : State := { s with rails := tabPut (railDefault r) s.rails r x }
def State.part (s : State) (p : Nat) : Part := tabGet partFree s.parts p
def State.setPart (s : State) (p : Nat) (x : Part) : State := { s with parts := tabPut partFree s.parts p x }
def State.page (s : State) (g : Nat) : Page := tabGet pageDefault s.pages g
def State.setPage (s : State) (g : Nat) (x : Page) : State := { s with pages := tabPut pageDefault s.pages g x }
def State.table (s : State) (i : Nat) : Slot := tabGet slotEmpty s.tables i
def State.setTable (s : State) (i : Nat) (x : Slot) : State := { s with tables := tabPut slotEmpty s.tables i x }
def State.index (s : State) (i : Nat) : Slot := tabGet slotEmpty s.indexes i
def State.setIndex (s : State) (i : Nat) (x : Slot) : State := { s with indexes := tabPut slotEmpty s.indexes i x }
def State.text (s : State) (i : Nat) : TextSlot := tabGet textEmpty s.texts i
def State.setText (s : State) (i : Nat) (x : TextSlot) : State := { s with texts := tabPut textEmpty s.texts i x }
def State.arb (s : State) (a : Nat) : Arb := tabGet arbIdle s.arbs a
def State.setArb (s : State) (a : Nat) (x : Arb) : State := { s with arbs := tabPut arbIdle s.arbs a x }
def State.qp (s : State) (i : Nat) : Qp := tabGet qpReset s.net.qps i
def State.setQp (s : State) (i : Nat) (x : Qp) : State := { s with net := { s.net with qps := tabPut qpReset s.net.qps i x } }
def State.sub (s : State) (i : Nat) : SubPort := tabGet subDown s.net.subs i
def State.setSub (s : State) (i : Nat) (x : SubPort) : State := { s with net := { s.net with subs := tabPut subDown s.net.subs i x } }
def State.chan (s : State) (c : Nat) : FlashCh := tabGet chanEmpty s.flash.chans c
def State.setChan (s : State) (c : Nat) (x : FlashCh) : State :=
  { s with flash := { s.flash with chans := tabPut chanEmpty s.flash.chans c x } }
def State.blk (s : State) (b : Nat) : Blk := tabGet blkFree s.flash.blocks b
def State.setBlk (s : State) (b : Nat) (x : Blk) : State :=
  { s with flash := { s.flash with blocks := tabPut blkFree s.flash.blocks b x } }
def State.keySlot (s : State) (k : Nat) : KeySlot := tabGet keyEmpty s.sec.slots k
def State.setKeySlot (s : State) (k : Nat) (x : KeySlot) : State :=
  { s with sec := { s.sec with slots := tabPut keyEmpty s.sec.slots k x } }

/-- A message appended to those sent. DEDUCED (log entry 96). DESIGN CHOICE (log entry 99). -/
def State.send (s : State) (t : Tx) : State := { s with tx := s.tx ++ [t] }

/-- The command with this name, if in flight. -/
def State.cmd? (s : State) (r : CmdRef) : Option Cmd := s.cmds.find? (fun c => c.ref = r)

/-- Command `c` replaced by its new record. -/
def State.setCmd (s : State) (c : Cmd) : State :=
  { s with cmds := s.cmds.map (fun d => if d.ref = c.ref then c else d) }

/-- The command with this name taken out of flight. -/
def State.dropCmd (s : State) (r : CmdRef) : State := { s with cmds := s.cmds.filter (fun d => d.ref ≠ r) }

/-- The n-th free choice of this step, below m (0 where m is 0). DESIGN CHOICE (log entry 1). -/
def State.choose (s : State) (n m : Nat) : Nat := Config.freeNat (s.freeCtr * 2 ^ 32 + n) % m

/-- The undefined byte met at address a in this step. DESIGN CHOICE (log entry 1). -/
def State.undefByte (s : State) (a : Nat) : Byte := Config.freeByte (s.freeCtr * 2 ^ 64 + a)

/-- The free values move on: the next use is of another value. DESIGN CHOICE (log entry 1). -/
def State.fresh (s : State) : State := { s with freeCtr := s.freeCtr + 1 }

/-! ### The setup block (R335) -/

def Part.f (x : Part) (off n : Nat) : Nat := fld x.setup off n
def Part.priv (x : Part) : Bool := bit (x.f 0x02 1) 0
def Part.chunkPriv (x : Part) : Bool := bit (x.f 0x02 1) 1
def Part.quota (x : Part) : Nat := x.f 0x04 2
def Part.qpFirst (x : Part) : Nat := x.f 0x06 2
def Part.qpCount (x : Part) : Nat := x.f 0x08 2
def Part.complQp (x : Part) : Nat := x.f 0x0A 2
def Part.intakeLog2 (x : Part) : Nat := x.f 0x0C 1
def Part.hostLog2 (x : Part) : Nat := x.f 0x0D 1
def Part.intakeBase (x : Part) : Nat := x.f 0x10 8
def Part.intakeCountAddr (x : Part) : Nat := x.f 0x18 8
def Part.hostRing (x : Part) : Nat := x.f 0x20 8
def Part.hostCountAddr (x : Part) : Nat := x.f 0x28 8
def Part.servingBase (x : Part) : Nat := x.f 0x30 8
def Part.streamArea (x : Part) : Nat := x.f 0x38 8
def Part.resBase (x : Part) : Nat := x.f 0x40 8
def Part.resBytes (x : Part) : Nat := x.f 0x48 8
def Part.winFrames (x : Part) : Nat := x.f 0x50 4
def Part.preCount (x : Part) : Nat := x.f 0x54 4
def Part.preBase (x : Part) : Nat := x.f 0x58 8
def Part.ddrShare (x : Part) : Nat × Nat := (x.f 0x60 8, x.f 0x68 8)
def Part.flsShare (x : Part) : Nat × Nat := (x.f 0x70 8, x.f 0x78 8)
def Part.coreBit (x : Part) (c : Nat) : Bool := bit (x.f (0x80 + c / 8) 1) (c % 8)
def Part.stk (x : Part) (q : Nat) : Nat × Nat := (x.f (0xA0 + 4 * q) 2 * 0x10000, x.f (0xA2 + 4 * q) 2 * 0x10000)
def Part.semWin (x : Part) (q : Nat) : Nat × Nat := (x.f (0xB0 + 4 * q) 2, x.f (0xB2 + 4 * q) 2)
def Part.tslots (x : Part) : Nat × Nat := (x.f 0xC0 2, x.f 0xC2 2)
def Part.islots (x : Part) : Nat × Nat := (x.f 0xC4 2, x.f 0xC6 2)
def Part.xslots (x : Part) : Nat × Nat := (x.f 0xC8 2, x.f 0xCA 2)
def Part.commsRange (x : Part) : Nat × Nat := (x.f 0xCC 2, x.f 0xCE 2)
def Part.shared (x : Part) : Nat × Nat := (x.f 0xD0 8, x.f 0xD8 8)

/-- States in which a partition holds its resident share (R333, R336). -/
def Part.nonFree (x : Part) : Bool := x.st ≠ .free

/-- The partitions, in number order. -/
def partIds : List Nat := List.range 16

/-- The physical cores that partition p owns now. -/
def State.coresOf (s : State) (p : Nat) : List Nat :=
  (List.range 208).filter (fun c => (s.core c).owner = p)

/-- The enabled cores partition p owns: the core set its commands run on (R112, R117). -/
def State.coreSet (s : State) (p : Nat) : List Nat :=
  (s.coresOf p).filter (fun c => (s.core c).st = .enabled || (s.core c).st = .quiesced)

/-- The dies that hold cores of partition p's core set. -/
def State.diesOf (s : State) (p : Nat) : List Nat :=
  [0, 1, 2, 3].filter (fun q => (s.coreSet p).any (fun c => c / 52 = q))

/-! ### Capacities (R4, R354, R486) -/

/-- HBM frames fitted: 48 or 36 GB in each of 8 stacks (R3). -/
def State.hbmFrames (s : State) : Nat := (if s.fitted.h384 then 384 else 288) * 512

/-- Usable HBM in bytes (R4): fitted less the 16 reserve frames and the holes; 0 before training. -/
def State.hbmUsable (s : State) : Nat :=
  if s.start.hbmDone then (s.hbmFrames - 16 - s.errors.hbmHoles.length) * pageBytes else 0

/-- DDR5 frames fitted and trained. -/
def State.ddrFrames (s : State) : Nat :=
  if s.tiers.ddrTrained then
    (s.tiers.ddrSpds.map (fun m => match m with | some d => d.gb * 512 | none => 0)).sum
  else 0

/-- Populated DDR5 capacity in bytes (R354), reserve frames not counted (R486). -/
def State.ddrCapacity (s : State) : Nat := (s.ddrFrames - 64) * pageBytes

/-- Flash logical capacity in bytes (R354). -/
def State.flsCapacity (s : State) : Nat := if s.flash.mapState = 0 then 0 else s.flash.logical * pageBytes

/-- An address of the tiered range is backed (R354) and no hole (R485). -/
def State.backed (s : State) (a : Nat) : Bool :=
  match zoneOf a with
  | .hbm => a < s.hbmUsable && !(s.errors.hbmHoles.contains (a / pageBytes))
  | .ddr => a - ddrBase < s.ddrCapacity && !(s.errors.ddrHoles.contains ((a - ddrBase) / pageBytes))
  | .fls => a - flsBase < s.flsCapacity
  | _ => false

/-! ### Translation (R355) -/

/-- Where a byte lives: a physical byte of HBM, DDR5 or a stockpot, or a byte of a flash unit. -/
inductive Loc where
  | phys (k : Nat)
  | flash (off : Nat)
  deriving DecidableEq, Repr

/-- The physical HBM byte behind HBM address a: a retired frame is served by its reserve frame (R483). -/
def State.hbmPhys (s : State) (a : Nat) : Nat :=
  tabGet (a / pageBytes) s.errors.hbmMap (a / pageBytes) * pageBytes + a % pageBytes

/-- The physical DDR5 byte behind offset a of the DDR5 zone, as a key. -/
def State.ddrPhys (s : State) (a : Nat) : Nat :=
  ddrBase + tabGet (a / pageBytes) s.errors.ddrMap (a / pageBytes) * pageBytes + a % pageBytes

/-- The HBM page that frame f serves: the page whose reserve frame it is, else its own (R483). -/
def State.hbmPageOf (s : State) (f : Nat) : Nat :=
  match s.errors.hbmMap.find? (fun e => e.2 = f) with
  | some e => e.1
  | none => f

/-- The page of the DDR5 zone, numbered from the zone's base, that DDR5 frame f serves. -/
def State.ddrPageOf (s : State) (f : Nat) : Nat :=
  match s.errors.ddrMap.find? (fun e => e.2 = f) with
  | some e => e.1
  | none => f

/-- The window copy through which partition p's access to page g goes: its own, else any (R355, R337). -/
def Page.copyFor (x : Page) (p : Nat) : Option WinCopy :=
  match x.copies.find? (fun c => c.part = p) with
  | some c => some c
  | none => x.copies.head?

/-- Translation of address a for partition p (16 and above: management or the device). `none` where nothing is mapped
or backed; `die` is the compute die of the accessing unit, where it has one (R585). DEDUCED (log entry 76). -/
def State.locate (s : State) (p : Nat) (die : Option Nat) (a : Nat) : Option Loc :=
  match zoneOf a with
  | .hbm => if s.backed a then some (.phys (s.hbmPhys a)) else none
  | .ddr =>
    if s.backed a then
      match (s.page (a / pageBytes)).copyFor p with
      | some c => some (.phys (s.hbmPhys (c.frame * pageBytes + a % pageBytes)))
      | none => some (.phys (s.ddrPhys (a - ddrBase)))
    else none
  | .fls =>
    if s.backed a then
      match (s.page (a / pageBytes)).copyFor p with
      | some c => some (.phys (s.hbmPhys (c.frame * pageBytes + a % pageBytes)))
      | none => some (.flash (a - flsBase))
    else none
  | .rawHbm => if a - rawHbmBase < s.hbmFrames * pageBytes && s.start.hbmDone then some (.phys (a - rawHbmBase)) else none
  | .rawDdr =>
    let f := (a - rawDdrBase) / pageBytes
    if s.ddrFrames ≤ f then none
    else some (.phys (ddrBase + (if f + 64 < s.ddrFrames then f else 0x400000 + (f + 64 - s.ddrFrames)) * pageBytes + a % pageBytes))
  | .localPot => die.map (fun q => .phys (potBase + q * potStep + (a - localPotBase)))
  | .pot _ => some (.phys a)
  | .regs => none
  | .unmapped => none

/-! ### Poison (R479) -/

/-- The granule of a physical byte: 64 bytes in HBM and DDR5, 8 in a stockpot. -/
def granule (k : Nat) : Nat × Nat := if k < potBase then (k / 64 * 64, 64) else (k / 8 * 8, 8)

def State.poisoned (s : State) (k : Nat) : Bool := s.errors.poison.contains (granule k).1

/-! ### Flash units as the zone reads them (R393, R394) -/

/-- The newest record of the write buffer that covers LUA l: a data unit of l, or a trim of its 2 MiB page on its channel. -/
def bufferHit (buf : List FUnit) (l : Nat) : Option FUnit :=
  buf.foldl (fun r u =>
    if (u.kind = 0 && u.lua = l) || (u.kind = 1 && u.lua / 512 = l / 512 && u.lua / 4 % 32 = l / 4 % 32) then some u else r) none

/-- The unit that holds LUA l now: in the write buffer, or where the map names; none when unwritten. -/
def State.unitOf (s : State) (l : Nat) : Option FUnit :=
  match bufferHit (s.chan (l / 4 % 32)).buffer l with
  | some u => if u.kind = 0 then some u else none
  | none =>
    match tabFind s.flash.map l with
    | some (b, i) => (s.blk b).units[i]?
    | none => none

/-- A unit whose bytes cannot be had: marked lost (R408). -/
def State.unitLost (s : State) (l : Nat) : Bool :=
  match bufferHit (s.chan (l / 4 % 32)).buffer l with
  | some _ => false
  | none => s.flash.lostUnits.contains l

/-- A byte of the flash zone at home. -/
def State.flashByte (s : State) (off : Nat) : Byte :=
  match s.unitOf (off / 4096) with
  | some u => tabGet 0#8 u.data (off % 4096)
  | none => 0#8

/-! ### Reads -/

/-- Why an access cannot be made, and at which address: no backing or no right (ACCESS_FAULT), or lost data (DATA_ERROR). -/
inductive MemErr where
  | access (a : Nat)
  | data (a : Nat)
  deriving DecidableEq, Repr

/-- A physical byte. DESIGN CHOICE (log entry 6). -/
def State.physByte (s : State) (k : Nat) : Byte := tabGet 0#8 s.mem k

/-- One byte at a location; none where it is lost. -/
def State.locByte (s : State) : Loc → Option Byte
  | .phys k => if s.poisoned k then none else some (s.physByte k)
  | .flash o => if s.unitLost (o / 4096) then none else some (s.flashByte o)

/-- A span of command c is its reader's own: c itself, or the STEP whose record reads (R298). -/
def ownSpan (me : Option CmdRef) (c : CmdRef) : Bool :=
  match me with
  | some r => c = r || c = ⟨r.seq, 0⟩
  | none => false

/-- An address as spans hold it: the local stockpot aperture is the stockpot of the accessing die (R585). -/
def plainAddr (die : Option Nat) (a : Nat) : Nat :=
  match die with
  | some q => if within a 1 localPotBase potSize then potBase + q * potStep + (a - localPotBase) else a
  | none => a

/-- Whether address a lies in a pending span of a command other than `me` (R150). Spans stay pending over a kill and over a suspension
(R154, R340). -/
def State.pendingSpan (s : State) (me : Option CmdRef) (a : Nat) : Bool :=
  s.cmds.any (fun c => !(ownSpan me c.ref) && c.spans.any (fun r => r.1 ≤ a && a < r.2))

/-- Whether address a lies in a range that was written behind the back of command `me`: it issued without waiting for the writer (R12). -/
def State.clouded (s : State) (me : Option CmdRef) (a : Nat) : Bool :=
  match me with
  | some r => s.cmds.any (fun c => c.ref = r && c.clouds.any (fun x => x.1 ≤ a && a < x.2))
  | none => false

/-- The page of physical memory behind frame f of a move of page g: a retirement's in its own memory, any other's in HBM. -/
def State.moveKey (s : State) (g : Nat) (m : Move) : Nat :=
  if m.kind ≠ 1 then s.hbmPhys (m.frame * pageBytes) / pageBytes
  else if zoneOf (g * pageBytes) = .hbm then m.frame else ddrBase / pageBytes + m.frame

/-- Whether an access of a raw window meets a frame that is moving, which returns undefined bytes (R367): the frame a move copies to, or one that
holds the page that moves. -/
def State.rawMoving (s : State) (a : Nat) : Bool :=
  match zoneOf a with
  | .rawHbm | .rawDdr =>
    match s.locate 16 none a with
    | some (.phys k) => s.pages.any (fun e => e.2.moves ≠ [] &&
        (e.2.moves.any (fun m => s.moveKey e.1 m = k / pageBytes)
          || e.2.copies.any (fun c => s.hbmPhys (c.frame * pageBytes) / pageBytes = k / pageBytes)
          || (match zoneOf (e.1 * pageBytes) with
            | .hbm => s.hbmPhys (e.1 * pageBytes) / pageBytes = k / pageBytes
            | .ddr => s.ddrPhys (e.1 * pageBytes - ddrBase) / pageBytes = k / pageBytes
            | _ => false)))
    | _ => false
  | _ => false

/-- Whether a byte read at address a is undefined: another command's pending span (R150), a range written while the reader ran (R12), a raw
window's moving frame (R367). -/
def State.foggy (s : State) (me : Option CmdRef) (die : Option Nat) (a : Nat) : Bool :=
  s.pendingSpan me (plainAddr die a) || s.clouded me (plainAddr die a) || s.rawMoving a

/-- One byte as partition p's unit on `die` reads it, for command `me`. -/
def State.readByte (s : State) (p : Nat) (die : Option Nat) (me : Option CmdRef) (a : Nat) : Except MemErr Byte :=
  match s.locate p die a with
  | none => .error (.access a)
  | some l =>
    match s.locByte l with
    | none => .error (.data a)
    | some b => .ok (if s.foggy me die a then s.undefByte a else b)

/-- `n` bytes from address a; the first byte that cannot be read decides the error. -/
def State.readFor (s : State) (p : Nat) (die : Option Nat) (me : Option CmdRef) : Nat → Nat → Except MemErr (List Byte)
  | _, 0 => .ok []
  | a, n + 1 =>
    match s.readByte p die me a with
    | .error e => .error e
    | .ok b =>
      match s.readFor p die me (a + 1) n with
      | .error e => .error e
      | .ok bs => .ok (b :: bs)

/-- Bytes read for partition p by no command and from no die. -/
def State.readBytes (s : State) (p a n : Nat) : Except MemErr (List Byte) := s.readFor p none none a n

/-- Bytes that one of the device's own engines reads back in its own keeping, where an error reads as zeros: R150 leaves a pending span
undefined to other commands and to reads from outside. -/
def State.readZ (s : State) (p a n : Nat) : List Byte :=
  match ({ s with cmds := [] }).readBytes p a n with
  | .ok b => b
  | .error _ => List.replicate n 0#8

/-- A little-endian field in memory, 0 where it cannot be read. -/
def State.readN (s : State) (p a n : Nat) : Nat := leNat (s.readZ p a n)

/-! ### Writes -/

/-- A physical byte written; a poisoned granule must have been dealt with before. -/
def State.putPhys (s : State) (k : Nat) (b : Byte) : State := { s with mem := tabPut 0#8 s.mem k b }

/-- Bytes written from key k on. -/
def State.putPhysList : State → Nat → List Byte → State
  | s, _, [] => s
  | s, k, b :: bs => State.putPhysList (s.putPhys k b) (k + 1) bs

/-- `n` bytes from key k on set to zero: their cells are no longer listed. -/
def State.zeroPhys (s : State) (k n : Nat) : State :=
  { s with mem := s.mem.filter (fun c => !(k ≤ c.1 && c.1 < k + n)) }

/-- Physical bytes k to k+n-1 left undefined. -/
def State.undefPhys (s : State) (k n : Nat) : State :=
  s.putPhysList k ((List.range n).map (fun i => s.undefByte (k + i)))

/-- The 4 KiB block that byte offset o of a page lies in becomes dirty in every copy of page g, and is marked in every
move of it (R355, R361). -/
def State.markDirty (s : State) (g o : Nat) : State :=
  let x := s.page g
  if x.copies = [] && x.moves = [] then s
  else s.setPage g { x with
    copies := x.copies.map (fun c => { c with dirty := insertNat c.dirty (o / 4096) })
    moves := x.moves.map (fun m => { m with marked := insertNat m.marked (o / 4096) }) }

/-- A new unit enters the write buffer of its channel with the next SEQ (R391); the clean marker falls (R394). -/
def State.bufferUnit (s : State) (lua kind : Nat) (data : Tab Byte) : State :=
  let c := lua / 4 % 32
  let ch := s.chan c
  let f := s.flash
  let s := s.setChan c { ch with buffer := ch.buffer ++ [⟨lua, kind, f.seq, data, false⟩] }
  { s with flash := { s.flash with
      seq := f.seq + 1, marker := none
      lostUnits := if kind = 0 then f.lostUnits.filter (· ≠ lua)
        else f.lostUnits.filter (fun l => !(l / 512 = lua / 512 && l / 4 % 32 = lua / 4 % 32)) } }

/-- Bytes of one unit replaced from offset o of the unit; the rest of the unit as it reads. -/
def State.writeUnit (s : State) (p lua o : Nat) (bs : List Byte) : State :=
  let old : Tab Byte := match s.unitOf lua with | some u => u.data | none => []
  let data := (bs.zipIdx o).foldl (fun t e => tabPut 0#8 t e.2 e.1) old
  let s := s.bufferUnit lua 0 data
  { s with flash := { s.flash with hostWr := s.flash.hostWr ++ [(lua / 4 % 32, p, bs.length)] } }

/-- [a, a+n) cut at multiples of g: pieces (start, length). -/
def pieces (g : Nat) : Nat → Nat → Nat → List (Nat × Nat)
  | 0, _, _ => []
  | _ + 1, _, 0 => []
  | fuel + 1, a, n =>
    let m := min n (g - a % g)
    (a, m) :: pieces g fuel (a + m) (n - m)

/-- The poison of physical bytes k to k+n-1, whole granules of which are written, is cleared (R479). -/
def State.unpoison (s : State) (k n : Nat) : State :=
  { s with errors := { s.errors with poison := s.errors.poison.filter (fun g => !(k ≤ g && g < k + n)) } }

/-- [a, a+n) of the address map zeroed where it lies in physical memory. -/
def State.zeroRange (s : State) (p a n : Nat) : State :=
  (pieces pageBytes (n / pageBytes + 2) a n).foldl (fun s e =>
    match s.locate p none e.1 with
    | some (.phys k) => (s.zeroPhys k e.2).unpoison k e.2
    | _ => s) s

/-- The physical keys to which a write of address a goes for partition p: every window copy of a page that has any
(R355, R337), else its home; none for a byte at home in flash or not mapped. -/
def State.writeKeys (s : State) (p : Nat) (die : Option Nat) (a : Nat) : List Nat :=
  match zoneOf a with
  | .ddr | .fls =>
    match (s.page (a / pageBytes)).copies with
    | [] => match s.locate p die a with | some (.phys k) => [k] | _ => []
    | cs => cs.map (fun c => s.hbmPhys (c.frame * pageBytes + a % pageBytes))
  | _ => match s.locate p die a with | some (.phys k) => [k] | _ => []

/-- Whether a write of [a, a+n) would cover only part of a poisoned granule or of a lost unit (R479). -/
def State.partialPoison (s : State) (p : Nat) (die : Option Nat) (a n : Nat) : Bool :=
  (List.range n).any (fun i =>
    match s.locate p die (a + i) with
    | some (.phys k) =>
      s.poisoned k &&
        (let g := granule k
         let back := k - g.1
         !(back ≤ i && i - back + g.2 ≤ n))
    | some (.flash o) =>
      s.unitLost (o / 4096) && !(o % 4096 ≤ i && i - o % 4096 + 4096 ≤ n)
    | none => false)

/-- Whether flash at home must take part of a write of [a, a+n) while the tier is read-only (R409). -/
def State.readOnlyHit (s : State) (p : Nat) (die : Option Nat) (a n : Nat) : Bool :=
  s.flash.readOnly && (List.range n).any (fun i =>
    match s.locate p die (a + i) with | some (.flash _) => true | _ => false)

/-- A write of bytes that lie in one 4 KiB block. -/
def State.writePiece (s : State) (p : Nat) (die : Option Nat) (a : Nat) (bs : List Byte) : State :=
  match s.locate p die a with
  | some (.flash o) => (s.writeUnit p (o / 4096) (o % 4096) bs).markDirty (a / pageBytes) (a % pageBytes)
  | some (.phys _) =>
    let keys := s.writeKeys p die a
    let s := keys.foldl (fun s k => s.putPhysList k bs) s
    let clear := keys.foldl (fun l k =>
      l.filter (fun g => !(k ≤ g && g + (granule g).2 ≤ k + bs.length))) s.errors.poison
    let s := { s with errors := { s.errors with poison := clear } }
    match zoneOf a with
    | .ddr | .fls => s.markDirty (a / pageBytes) (a % pageBytes)
    | _ => s
  | none => s

/-- A write checked as R479, R409 and R354 state and then made piece by piece. -/
def State.writeFor (s : State) (p : Nat) (die : Option Nat) (a : Nat) (bs : List Byte) : Except MemErr State :=
  if (List.range bs.length).any (fun i => (s.locate p die (a + i)).isNone) || s.readOnlyHit p die a bs.length then .error (.access a)
  else if s.partialPoison p die a bs.length then .error (.data a)
  else .ok ((pieces 4096 (bs.length + 1) a bs.length).foldl
    (fun s e => s.writePiece p die e.1 ((bs.drop (e.1 - a)).take e.2)) s)

/-- The write where it can be made, else the state as it is. -/
def State.writeZ (s : State) (p a : Nat) (bs : List Byte) : State :=
  match s.writeFor p none a bs with
  | .ok t => t
  | .error _ => s

/-- [a, a+n) left undefined: every byte that can be written holds a free value. -/
def State.undefRange (s : State) (p : Nat) (a n : Nat) : State :=
  (pieces 4096 (n + 1) a n).foldl
    (fun s e => match s.locate p none e.1 with
      | some _ => s.writePiece p none e.1 ((List.range e.2).map (fun i => s.undefByte (e.1 + i)))
      | none => s) s

/-- Physical bytes [src, src+n) copied to [dst, dst+n), whole blocks whose poison the copy clears. -/
def State.copyPhys (s : State) (src dst n : Nat) : State :=
  let cells := s.mem.filter (fun c => src ≤ c.1 && c.1 < src + n)
  (cells.foldl (fun s c => s.putPhys (dst + (c.1 - src)) c.2) (s.zeroPhys dst n)).unpoison dst n

/-! ### Windows (R494, R495) -/

/-- Whether [a, a+n) lies in one window of partition p of the tiered range or the stockpots that grants the access. DEDUCED (log entry 89). -/
def State.inWindow (s : State) (p : Nat) (wr : Bool) (a n : Nat) : Bool :=
  let x := s.part p
  x.windows &&
    (within a n x.resBase x.resBytes
      || within a n x.ddrShare.1 x.ddrShare.2
      || within a n x.flsShare.1 x.flsShare.2
      || (!wr && x.shared.1 ≠ 0 && within a n x.shared.1 x.shared.2)
      || [0, 1, 2, 3].any (fun q => within a n (potBase + q * potStep + (x.stk q).1) (x.stk q).2))

/-- Raw windows of a privileged partition (R367): frames of its resident share and frames that hold its copies. DEDUCED (log entry 89). -/
def State.inRawWindow (s : State) (p : Nat) (a n : Nat) : Bool :=
  let x := s.part p
  x.windows && x.priv && within a n rawHbmBase hbmSize &&
    (within (a - rawHbmBase) n x.resBase x.resBytes
      || s.pages.any (fun e => e.2.copies.any (fun c => c.part = p && within (a - rawHbmBase) n (c.frame * pageBytes) pageBytes)))

/-- A region in the local aperture: in the partition's share on every die of its core set (R585). -/
def State.inLocalPot (s : State) (p : Nat) (a n : Nat) : Bool :=
  let x := s.part p
  x.windows && within a n localPotBase potSize && (s.diesOf p ≠ []) &&
    (s.diesOf p).all (fun q => within (a - localPotBase) n (x.stk q).1 (x.stk q).2)

/-- Whether semaphore k lies in a window of partition p (R168). DEDUCED (log entry 89). -/
def State.semInWindow (s : State) (p k : Nat) : Bool :=
  let x := s.part p
  let w := x.semWin (k / 0x4000)
  x.windows && k < 0x10000 && within (k % 0x4000) 1 w.1 w.2

/-- The partition that owns semaphore k, or 31 (R180). -/
def State.semOwner (s : State) (k : Nat) : Nat :=
  match partIds.find? (fun p => s.semInWindow p k) with
  | some p => p
  | none => 31

end Sys2Proof.Machine
end

