-- ==== Sys2Proof/Machine/Regs.lean ====
section
/-! DEFINITION. Stored register words: which page an index names (R520 to R522), the masks of a register's access codes,
banked registers (those a selector register points at), field reads and hardware updates, saturating counters. What a
master's read or write does is in Access.lean. -/

namespace Sys2Proof.Machine

/-- The kind and instance of the page with this index, none where it is absent (R521, R522). -/
def pageOf (i : Nat) : Option (PageKind × Nat) :=
  (pageKinds.find? (fun k => within i 1 (pageRange k).1 (pageRange k).2.1)).map (fun k => (k, i - (pageRange k).1))

/-- Index of the page of a kind and instance. -/
def pageIx (k : PageKind) (n : Nat) : Nat := (pageRange k).1 + n

/-- The instance number of a page as PAGE_ID shows it: the NET pages count through their three layouts (R521). -/
def instanceOf : PageKind → Nat → Nat
  | .netf, _ => 8
  | .netb, _ => 9
  | _, n => n

/-- Bits hi to lo as a mask. -/
def fieldMask (hi lo : Nat) : Word := BitVec.ofNat 32 (2 ^ (hi + 1) - 2 ^ lo)

/-- The layout row of a block register. DESIGN CHOICE (log entry 3). -/
def regRow? (k : PageKind) (off : Nat) : Option RegRow := (regRows k).find? (fun r => r.off = off)

/-- The bits of a row whose fields satisfy a test. -/
def rowMask (r : RegRow) (f : FieldRow → Bool) : Word :=
  r.fields.foldl (fun m x => if f x then m ||| fieldMask x.hi x.lo else m) 0#32

/-- The bits of a register held as stored words (not views, not WO or SC). -/
def storedMask (r : RegRow) : Word :=
  rowMask r (fun x => !x.view && x.acc ≠ .wo && x.acc ≠ .sc)

def accMask (r : RegRow) (a : Acc) : Word := rowMask r (fun x => !x.view && x.acc = a)

/-- All defined ERR_STATUS positions of a kind of page, as a mask (R526). -/
def errMask (k : PageKind) : Word := (errBits k).foldl (fun m b => m ||| fieldMask b b) 0#32

/-- The bits of a register that a selector register banks (R472, R475, R450, R451). -/
def bankMask : PageKind → Nat → Word
  | .trv, 0x064 | .trv, 0x068 | .trv, 0x06C | .trv, 0x070 => 0xFFFFFFFF#32
  | .trv, 0x078 | .trv, 0x07C | .trv, 0x080 => 0xFFFFFFFF#32
  | .trv, 0x084 => 0x0000FF7F#32
  | .sup, 0x044 | .sup, 0x048 | .sup, 0x04C | .sup, 0x050 | .sup, 0x054 => 0xFFFFFFFF#32
  | .netp, 0x04C | .netp, 0x050 | .netp, 0x054 | .netp, 0x058 => 0xFFFFFFFF#32
  | .netf, 0x040 => 0x80000000#32
  | .netf, 0x044 | .netf, 0x048 | .netf, 0x04C | .netf, 0x050 => 0xFFFFFFFF#32
  | _, _ => 0#32

/-- Key of a stored word: page, offset, bank (0: not banked). -/
def regKey (page off bank : Nat) : Nat := page * 0x20000 + off * 32 + bank

/-- Reset value of a stored register word (R533): the fields' reset values; EVENT_EN has every defined bit set and CONTROL
has EVT_OTHER set (R525, R526); PMB_CFG.ADDR of die q is 0x40 + q (R472). -/
def resetWord (k : PageKind) (off bank : Nat) : Word :=
  if off = oHDR_CONTROL then 1#32
  else if off = oHDR_EVENT_EN then errMask k
  else match regRow? k off with
    | none => 0#32
    | some r =>
      let w := r.fields.foldl (fun w x => if x.view || x.acc = .wo || x.acc = .sc then w
        else w ||| (BitVec.ofNat 32 (x.reset * 2 ^ x.lo) &&& fieldMask x.hi x.lo)) 0#32
      if k = .trv && off = oTRV_PMB_CFG && 1 ≤ bank then w + BitVec.ofNat 32 (bank - 1) else w

/-- The word stored under a page, offset and bank. -/
def State.stored (s : State) (page off bank : Nat) : Word :=
  match pageOf page with
  | none => 0#32
  | some (k, _) => tabGet (resetWord k off bank) s.regs (regKey page off bank)

def State.setStored (s : State) (page off bank : Nat) (w : Word) : State :=
  match pageOf page with
  | none => s
  | some (k, _) => { s with regs := tabPut (resetWord k off bank) s.regs (regKey page off bank) w }

/-- A field of an unbanked stored register. -/
def State.field (s : State) (page off hi lo : Nat) : Nat := bits (s.stored page off 0).toNat hi lo

/-- Replace bits hi to lo of a word. -/
def putField (w : Word) (hi lo v : Nat) : Word :=
  (w &&& ~~~ (fieldMask hi lo)) ||| (BitVec.ofNat 32 (v * 2 ^ lo) &&& fieldMask hi lo)

/-- A field of a stored register word set by the device. -/
def State.setField (s : State) (page off hi lo v : Nat) : State :=
  s.setStored page off 0 (putField (s.stored page off 0) hi lo v)

/-- A field of a banked register. -/
def State.bankField (s : State) (page off bank hi lo : Nat) : Nat := bits (s.stored page off (bank + 1)).toNat hi lo

def State.setBankField (s : State) (page off bank hi lo v : Nat) : State :=
  s.setStored page off (bank + 1) (putField (s.stored page off (bank + 1)) hi lo v)

/-- A 32-bit counter increased by n, saturating. -/
def State.count (s : State) (page off n : Nat) : State :=
  s.setStored page off 0 (BitVec.ofNat 32 (satAdd32 (s.stored page off 0).toNat n))

/-- A banked 32-bit counter increased by n, saturating. -/
def State.countBank (s : State) (page off bank n : Nat) : State :=
  s.setStored page off (bank + 1) (BitVec.ofNat 32 (satAdd32 (s.stored page off (bank + 1)).toNat n))

/-- A 32-bit counter increased by n, wrapping. -/
def State.countWrap (s : State) (page off n : Nat) : State :=
  s.setStored page off 0 (s.stored page off 0 + BitVec.ofNat 32 n)

/-- Bytes counted in units of 64 KiB; what does not make a unit waits for the next bytes (R366, R369, R371, R411). -/
def State.countBytes (s : State) (page off n : Nat) : State :=
  let k := regKey page off 0
  let t := tabGet 0 s.residue k + n
  ({ s with residue := tabPut 0 s.residue k (t % 65536) }).count page off (t / 65536)

/-- A PEAK field raised to v where v is larger. -/
def State.peak (s : State) (page off hi lo v : Nat) : State :=
  if s.field page off hi lo < v then s.setField page off hi lo v else s

/-- A header counter increased by one, unless CNT_FREEZE holds it (R527). -/
def State.hdrCount (s : State) (page off : Nat) : State :=
  if bit (s.stored page oHDR_CONTROL 0).toNat 1 then s else s.count page off 1

/-- The bank a selector names now: 0 for an unbanked register, else selector + 1. -/
def State.bankOf (s : State) (k : PageKind) (page off : Nat) : Nat :=
  if bankMask k off = 0#32 then 0
  else match k with
    | .trv => if 0x078 ≤ off && off ≤ 0x080 then s.field page oTRV_RAIL_SEL 3 0 + 1 else s.field page oTRV_DIE_SEL 1 0 + 1
    | .sup => s.field page oSUP_SUP_SEL 3 0 + 1
    | .netp => s.field page oNETP_SUB_SEL 1 0 + 1
    | .netf => s.field page oNETF_ADDR_SEL 2 0 + 1
    | _ => 0

/-- The stored word a read or write of this register meets now, its banked bits from the selected bank. -/
def State.current (s : State) (k : PageKind) (page off : Nat) : Word :=
  let b := s.bankOf k page off
  if b = 0 then s.stored page off 0
  else (s.stored page off 0 &&& ~~~ (bankMask k off)) ||| (s.stored page off b &&& bankMask k off)

/-- The stored word set, its banked bits in the selected bank. -/
def State.setCurrent (s : State) (k : PageKind) (page off : Nat) (w : Word) : State :=
  let b := s.bankOf k page off
  if b = 0 then s.setStored page off 0 w
  else
    let m := bankMask k off
    let s := s.setStored page off b ((s.stored page off b &&& ~~~ m) ||| (w &&& m))
    if m = 0xFFFFFFFF#32 then s else s.setStored page off 0 ((s.stored page off 0 &&& m) ||| (w &&& ~~~ m))

/-! ### Page indices by unit -/

def pgCAP : Nat := 0x000
def pgMGT : Nat := 0x001
def pgSEC : Nat := 0x002
def pgRTC : Nat := 0x003
def pgERR : Nat := 0x004
def pgTRV : Nat := 0x005
def pgSUP : Nat := 0x006
def pgFLS : Nat := 0x007
def pgTNG : Nat := 0x008
def pgPRT (p : Nat) : Nat := 0x010 + p
def pgCMD (p : Nat) : Nat := 0x020 + p
def pgFNL (p : Nat) : Nat := 0x030 + p
def pgSRV (p : Nat) : Nat := 0x040 + p
def pgSTP (p : Nat) : Nat := 0x050 + p
def pgSEM (q : Nat) : Nat := 0x060 + q
def pgSTK (q : Nat) : Nat := 0x064 + q
def pgGRD (c : Nat) : Nat := 0x080 + c
def pgWSK (c : Nat) : Nat := 0x180 + c
def pgTRY (c : Nat) : Nat := 0x280 + c
def pgLDL (i : Nat) : Nat := 0x380 + i
def pgSKM (i : Nat) : Nat := 0x3A0 + i
def pgSIV (i : Nat) : Nat := 0x3B0 + i
def pgMDL (i : Nat) : Nat := 0x3C0 + i
def pgSTN (i : Nat) : Nat := 0x3C8 + i
def pgCUT (i : Nat) : Nat := 0x3D0 + i
def pgHBM (i : Nat) : Nat := 0x400 + i
def pgDDR (i : Nat) : Nat := 0x408 + i
def pgARB (i : Nat) : Nat := 0x420 + i
def pgPORT (i : Nat) : Nat := 0x480 + i
def pgFRONT : Nat := 0x488
def pgFABRIC : Nat := 0x489

/-! ### Which pages answer (R502, R533, R550) -/

/-- The device is out of whole-device reset (R541): until then nothing of it answers. DEDUCED (log entry 11). -/
def State.alive (s : State) : Bool := !(s.start.inReset)

/-- Whether a page answers over I3C now (R502, R550). DEDUCED (log entry 11). -/
def State.i3cAnswers (s : State) (page : Nat) : Bool :=
  s.alive && ((!s.start.halted && 2 ≤ s.start.stage) || page = pgMGT || page = pgRTC)

end Sys2Proof.Machine
end

