-- ==== Sys2Proof/Machine/Events.lean ====
section
/-! DEFINITION. Condition bits and events (R526 to R529), time stamps (R161), the host ring and its records (R160, R161,
R163, R425, R577), the management log (R513), access-fault records (R497). -/

namespace Sys2Proof.Machine

/-! ### Regulators (R338) -/

/-- SHARE of partition p, in 4,096ths. -/
def State.share (s : State) (p reg : Nat) : Nat := min 4096 (s.field (pgPRT p) reg 12 0)

/-- Depth of the bucket in bytes. -/
def State.burst (s : State) (p reg : Nat) : Nat := max 1 (s.field (pgPRT p) reg 23 16) * 4096

/-- A partition may take spare bandwidth. -/
def State.spareOk (s : State) (p reg : Nat) : Bool := s.field (pgPRT p) reg 31 31 = 1

/-- Credit after a grant of n bytes, in 1/4096 byte: never below -n. -/
def afterGrant (credit : Int) (n : Nat) : Int := max (-((n * 4096 : Nat) : Int)) (credit - ((n * 4096 : Nat) : Int))

/-- A request of n bytes for partition p at a controller that keeps no queue here: a flash channel or a front port. Since the bucket was last used
so many cycles have passed as leave it a credit that is open; a request without credit waits for it, unless it goes as spare bandwidth, which it may
where no eligible request waits. DESIGN CHOICE (log entry 98). -/
def State.charge (s : State) (bucket p reg kind n : Nat) : State :=
  if 16 ≤ p || n = 0 then s
  else
    let step : Nat := s.share p reg * Config.peakBytesPerCycle kind
    let now : Int := min (tabGet 0 s.buckets bucket + ((step * s.choose (0xC000 + bucket) (2 ^ 32) : Nat) : Int)) ((s.burst p reg * 4096 : Nat) : Int)
    let waits := decide (now ≤ 0) && !(s.spareOk p reg && s.choose (0xD000 + bucket) 2 = 1)
    let credit : Int := if waits && step ≠ 0 then now + (step : Int) * ((-now) / (step : Int) + 1) else now
    let s := if waits then s.count (pgPRT p) oPRT_THROTTLED 1 else s
    { s with buckets := tabPut 0 s.buckets bucket (afterGrant credit n) }

/-- Bytes of partition p at a flash channel controller. -/
def State.chargeFlash (s : State) (ch p n : Nat) : State := s.charge (ch % 32 * 16 + p) p oPRT_REG_FLS 3 n

/-! ### Time stamps -/

/-- TIME of R161: VALID, the low 48 bits of the seconds, the fraction. -/
def State.time (s : State) : Nat :=
  b2n s.cal.valid * 2 ^ 63 + s.cal.seconds % 2 ^ 48 * 2 ^ 15 + s.cal.fraction % 2 ^ 15

/-! ### The records queue pair -/

/-- STATE of a queue pair's context: 0 RESET, 1 RTS, 2 ERROR (R422). -/
def Qp.state (x : Qp) : Nat := fldBe x.ctx 0 1

/-- Path MTU in bytes of PMTU codes 3, 4 and 5. -/
def Qp.mtu (x : Qp) : Nat := 128 * 2 ^ (fldBe x.ctx 2 1)

/-- n frames leave sub-port i (R448, R450): counted, and the transmit association's packet number moves on while MACsec runs. DEDUCED (log entry 84). DESIGN CHOICE (log entry 99). -/
def State.txFrames (s : State) (i n : Nat) : State :=
  let s := s.count (pgPORT (i / 4)) oNETP_TX_FRAMES n
  if s.field (pgPORT (i / 4)) oNETP_PORT_CFG 8 8 = 0 then s
  else
    let x := s.sub i
    s.setSub i { x with tx := x.tx.map (fun (a : Sa) => if a.an = x.txAn then { a with nextPn := a.nextPn + n } else a) }

/-- A frame that sub-port i takes (R450). DESIGN CHOICE (log entry 99). -/
def State.rxFrame (s : State) (i : Nat) (ce : Bool) : State :=
  let s := s.count (pgPORT (i / 4)) oNETP_RX_FRAMES 1
  if ce then s.count (pgPORT (i / 4)) oNETP_CE_MARKED 1 else s

/-- The sub-port of a queue pair. -/
def Qp.subport (x : Qp) : Nat := fldBe x.ctx 1 1 % 16

/-- The partition whose setup covers a queue pair (R422). -/
def State.qpPart (s : State) (qp : Nat) : Option Nat :=
  partIds.find? (fun p => (s.part p).nonFree && within qp 1 (s.part p).qpFirst (s.part p).qpCount)

/-- Records, consumed counts and READ responses count as front egress of the queue pair's partition (R339). -/
def State.chargeFront (s : State) (qp : Nat) (t : Tx) : State :=
  let n := match t with
    | .rdmaWrite _ _ _ b => b.length
    | .readResponse _ _ b => b.length
    | _ => 0
  match s.qpPart qp with
  | some p => s.charge (1024 + (s.qp qp).subport / 4 * 16 + p) p oPRT_REG_FRONT 4 n
  | none => s

/-- Frames that a queue pair sends; none leaves while its sub-port's link is down (R417). -/
def State.qpFrames (s : State) (qp n : Nat) (t : Tx) : State :=
  let i := (s.qp qp).subport
  if (s.sub i).up then ((s.chargeFront qp t).txFrames i n).send t else s

/-- One RDMA WRITE message sent on a queue pair with its next PSNs, kept until it is acknowledged (R425, R426). -/
def State.rdmaOut (s : State) (qp addr : Nat) (bytes : List Byte) : State :=
  let x := s.qp qp
  let psn := fldBe x.ctx 0x08 4 % 2 ^ 24
  let packets := max 1 (ceilDiv bytes.length (max 1 x.mtu))
  let s := s.setQp qp { x with
    ctx := patch (padTo 64 x.ctx) 0x08 (beBytes 4 ((psn + packets) % 2 ^ 24))
    unacked := x.unacked ++ [(psn, addr, bytes)] }
  s.qpFrames qp packets (.rdmaWrite qp psn addr bytes)

/-! ### The host ring (R160, R577) -/

def Part.ringSize (x : Part) : Nat := 2 ^ x.hostLog2

/-- Slots written and not yet reported consumed. -/
def Part.ringUsed (x : Part) : Nat := (x.ring.written + 2 ^ 32 - x.ring.consumed) % 2 ^ 32

def Part.ringFree (x : Part) : Nat := x.ringSize - x.ringUsed

def State.complRts (s : State) (p : Nat) : Bool := (s.qp (s.part p).complQp).state = 1

/-- The ring is blocked (R577): full, a record waits, or COMPL_QP is not in RTS. -/
def State.ringBlocked (s : State) (p : Nat) : Bool :=
  let x := s.part p
  x.ringFree = 0 || x.ring.waiting ≠ [] || !(s.complRts p)

/-- A slot with its PHASE bit for the slot number n of a ring of `size` slots (R160). -/
def phased (size n : Nat) (slot : List Byte) : List Byte :=
  let b := nth 0#8 slot 8
  patch (padTo 32 slot) 8 [if n / size % 2 = 0 then b ||| 0x80#8 else b &&& 0x7F#8]

/-- Slots written from slot number n on, as RDMA WRITEs at their ring addresses, cut where the ring wraps. -/
def State.writeSlots (s : State) (p n : Nat) (slots : List (List Byte)) : State :=
  let x := s.part p
  let size := x.ringSize
  let room := size - n % size
  let at_ := fun (k : Nat) => x.hostRing + (k % size) * 32
  let put := fun (s : State) (k : Nat) (l : List (List Byte)) =>
    if l = [] then s
    else s.rdmaOut x.complQp (at_ k) ((l.zipIdx k).map (fun e => phased size e.2 e.1)).flatten
  let s := put s n (slots.take room)
  put s (n + room) (slots.drop room)

/-- One record written: its later slots in one message, then its first slot (R425). -/
def State.writeRec (s : State) (p : Nat) (slots : List (List Byte)) : State :=
  let n := (s.part p).ring.written
  let s := s.writeSlots p (n + 1) (slots.drop 1)
  let s := s.writeSlots p n (slots.take 1)
  let x := s.part p
  s.setPart p { x with ring := { x.ring with written := (n + slots.length) % 2 ^ 32 } }

/-! ### Events -/

/-- Condition b of a page occurs: its ERR_STATUS bit is set, and the CE or UE counter counts (R526, R527). -/
def State.setErr (s : State) (page b : Nat) : State :=
  let s := s.setStored page oHDR_ERR_STATUS 0 (s.stored page oHDR_ERR_STATUS 0 ||| fieldMask b b)
  match pageOf page with
  | none => s
  | some (k, _) =>
    let s := if ceBit k = some b then s.hdrCount page oHDR_CE else s
    if ueBit k = some b then s.hdrCount page oHDR_UE else s

/-- The gate of R528 is open: the bit is not masked and enabled, or EVT_OTHER is 1. -/
def State.gateOpen (s : State) (page : Nat) (gate : Option Nat) : Bool :=
  match gate with
  | some b => !(bit (s.stored page oHDR_ERR_MASK 0).toNat b) && bit (s.stored page oHDR_EVENT_EN 0).toNat b
  | none => bit (s.stored page oHDR_CONTROL 0).toNat 0

/-- The ring an event goes to (R529): the tagged command's partition, a partition page's own, else EVT_ROUTE's. DEDUCED (log entry 40). -/
def State.eventRing (s : State) (page : Nat) (tagPart : Option Nat) : Option Nat :=
  match tagPart with
  | some p => some p
  | none =>
    match pageOf page with
    | some (.cmd, n) | some (.fnl, n) | some (.srv, n) | some (.stp, n) | some (.prt, n) => some n
    | _ =>
      let p := s.field pgCAP oCAP_EVT_ROUTE 4 0
      if p < 16 then some p else none

/-- An event record (R163). -/
def eventSlot (tag code page info time : Nat) : List Byte :=
  leBytes 8 tag ++ [0x02#8, 0#8] ++ leBytes 2 code ++ leBytes 2 page ++ [0#8, 0#8] ++ leBytes 8 info ++ leBytes 8 time

/-- The block type of a page (R521). -/
def typeOf (page : Nat) : Nat :=
  match pageOf page with
  | some (k, _) => (pageRange k).2.2
  | none => 0

/-- An event record written to partition p's ring, or lost where the ring is blocked (R577). -/
def State.writeEvent (s : State) (p page evt info tag : Nat) : State :=
  if s.ringBlocked p then
    if page = pgCMD p && evt = 3 then
      let x := s.part p
      s.setPart p { x with ring := { x.ring with heldFull := some info } }
    else s.count (pgCMD p) oCMD_EVT_LOST 1
  else s.writeRec p [eventSlot tag (typeOf page * 256 + evt) page info s.time]

/-- An event raised past its gates and limits: counted and written, or suppressed where its ring's partition is not
ACTIVE or RESUMING (R527, R529). -/
def State.deliver (s : State) (page evt info : Nat) (tag : Option (Nat × Nat)) : State :=
  match s.eventRing page (tag.map (·.2)) with
  | some p =>
    if (s.part p).st = .active || (s.part p).st = .resuming then
      (s.hdrCount page oHDR_EVENTS).writeEvent p page evt info ((tag.map (·.1)).getD 0)
    else s.hdrCount page oHDR_SUPPRESSED
  | none => s.hdrCount page oHDR_SUPPRESSED

/-- An event of a page (R528): `gate` is the bit that gates it, none where EVT_OTHER does; `tag` the command tag it
carries and that command's partition. -/
def State.raise (s : State) (page : Nat) (gate : Option Nat) (evt info : Nat) (tag : Option (Nat × Nat)) : State :=
  if s.gateOpen page gate then s.deliver page evt info tag else s.hdrCount page oHDR_SUPPRESSED

/-- An event raised at most once in a strobe period; the limit applies after the gates (R528). -/
def State.raiseOnce (s : State) (page : Nat) (gate : Option Nat) (evt info : Nat) (tag : Option (Nat × Nat)) : State :=
  if s.gateOpen page gate then
    if s.eventOnce.contains (page * 256 + evt) then s
    else ({ s with eventOnce := (page * 256 + evt) :: s.eventOnce }).deliver page evt info tag
  else s.hdrCount page oHDR_SUPPRESSED

/-- A condition with an event of its own bit. -/
def State.flagEvent (s : State) (page b evt info : Nat) (tag : Option (Nat × Nat)) : State :=
  (s.setErr page b).raise page (some b) evt info tag

/-- A condition with an event limited to once in a strobe period. -/
def State.flagOnce (s : State) (page b evt info : Nat) (tag : Option (Nat × Nat)) : State :=
  (s.setErr page b).raiseOnce page (some b) evt info tag

/-! ### Records -/

/-- A completion is written: its command's in-flight slot is free, or its list capsule is in flight no longer. The two share one
sequence of numbers. -/
def State.freeSlot (s : State) (c : CmdRef) : State :=
  let s := s.dropCmd c
  { s with lists := s.lists.filter (fun k => k.seq ≠ c.seq) }

/-- Records written while their slots are free and COMPL_QP is in RTS, oldest first; each frees its command's in-flight
slot (R137, R577). -/
def drainRecs (p : Nat) : List Rec → State → State
  | [], s => s
  | r :: rest, s =>
    let x := s.part p
    if s.complRts p && r.slots.length ≤ x.ringFree then
      let s := s.writeRec p r.slots
      let s := match r.frees with | some c => s.freeSlot c | none => s
      let x := s.part p
      drainRecs p rest (s.setPart p { x with ring := { x.ring with waiting := rest } })
    else s

/-- The held RING_FULL event written once the ring is no longer blocked. -/
def State.writeHeldFull (s : State) (p : Nat) : State :=
  let x := s.part p
  match x.ring.heldFull with
  | some info =>
    if s.ringBlocked p then s
    else (s.setPart p { x with ring := { x.ring with heldFull := none } }).writeRec p
      [eventSlot 0 (0x0B03) (pgCMD p) info s.time]
  | none => s

/-- Completions waiting at the full ring, as RING_FULL reports them. -/
def Part.waitingCount (x : Part) : Nat := (x.ring.waiting.filter (fun r => nth 0#8 (nth [] r.slots 0) 8 = 0x01#8)).length

/-- The first waiting record has no room in the ring, and a completion waits (R165). -/
def Part.ringHolds (x : Part) : Bool := x.ringFree < (nth [] (x.ring.waiting.map (·.slots)) 0).length && x.waitingCount ≠ 0

/-- The condition RING_FULL and its event, where completions wait at the full ring (R165, R166). DEDUCED (log entry 40). -/
def State.noteFull (s : State) (p : Nat) : State :=
  let x := s.part p
  if x.ringHolds then s.flagOnce (pgCMD p) 1 3 (x.waitingCount % 2 ^ 32) none else s

/-- Whatever waits for partition p's ring is written as far as it can be (RECORD_WRITE); completions that then still wait at the full
ring are noted. DEDUCED (log entry 40). -/
def State.drainRing (s : State) (p : Nat) : State :=
  let n := (s.part p).ring.waiting.length
  let s := drainRecs p (s.part p).ring.waiting s
  let s := s.writeHeldFull p
  if (s.part p).ring.waiting.length < n then s.noteFull p else s

/-- Records appended to those waiting for partition p's ring, in order, and written at once as far as they can be; a
completion that must wait at a full ring sets RING_FULL and raises its event (R165, R166). DEDUCED (log entry 40). -/
def State.postRecs (s : State) (p : Nat) (recs : List Rec) : State :=
  let x := s.part p
  let s := s.setPart p { x with ring := { x.ring with waiting := x.ring.waiting ++ recs } }
  let s := drainRecs p (s.part p).ring.waiting s
  if (s.part p).ring.waiting = [] then s.writeHeldFull p else s.noteFull p

/-- A completion record (R161). -/
def completionSlot (tag opcode status detail stage reruns flags count time : Nat) : List Byte :=
  leBytes 8 tag ++ [0x01#8, BitVec.ofNat 8 opcode, BitVec.ofNat 8 status, BitVec.ofNat 8 detail, BitVec.ofNat 8 stage, 0#8]
    ++ leBytes 2 (min reruns 0xFFFF) ++ leBytes 2 flags ++ leBytes 2 0 ++ leBytes 4 count ++ leBytes 8 time

/-- Continuation slots of a text record: 31 bytes each, around the byte that carries PHASE and KIND 0x05 (R163). -/
def textCont : Nat → List Byte → List (List Byte)
  | 0, _ => []
  | _ + 1, [] => []
  | fuel + 1, bs =>
    let c := padTo 31 (bs.take 31)
    (c.take 8 ++ [0x05#8] ++ c.drop 8) :: textCont fuel (bs.drop 31)

/-- A text record of 1 to 240 bytes (R163). -/
def textRec (tag stream : Nat) (bs : List Byte) : Rec :=
  ⟨(leBytes 8 tag ++ [0x03#8, 0#8] ++ leBytes 2 stream ++ leBytes 2 bs.length ++ [0#8, 0#8] ++ padTo 16 (bs.take 16))
    :: textCont 9 (bs.drop 16), none⟩

/-! ### The management log (R513) -/

/-- An entry appended to the management log. -/
def State.logMgmt (s : State) (code page info : Nat) : State :=
  let e := leBytes 2 code ++ leBytes 2 page ++ leBytes 4 0 ++ leBytes 8 info ++ leBytes 8 s.time ++ leBytes 8 0
  { s with sec := { s.sec with log := tabSet s.sec.log (s.sec.logged % 256) e, logged := s.sec.logged + 1 } }

/-! ### Access faults (R497) -/

/-- A denied access: counted, recorded in FAULT_FIRST when that is free, and raised at most once in a strobe period. DEDUCED (log entry 43). -/
def State.accessFault (s : State) (target part master addr : Nat) (tag : Option (Nat × Nat)) : State :=
  let s := s.count pgSEC oSEC_FAULTS 1
  let s := if bit (s.stored pgSEC oSEC_FAULT_FIRST 0).toNat 31 then s
    else
      let s := s.setStored pgSEC oSEC_FAULT_FIRST 0
        (BitVec.ofNat 32 (2 ^ 31 + master % 2 ^ 12 * 2 ^ 16 + part % 32 * 2 ^ 8 + target % 16))
      let s := s.setStored pgSEC oSEC_FAULT_ADDR_LO 0 (BitVec.ofNat 32 addr)
      s.setStored pgSEC oSEC_FAULT_ADDR_HI 0 (BitVec.ofNat 32 (addr / 2 ^ 32))
  s.flagOnce pgSEC 0 1 (target % 16 + part % 32 * 2 ^ 8 + master % 2 ^ 12 * 2 ^ 16
    + (s.stored pgSEC oSEC_FAULTS 0).toNat * 2 ^ 32) tag

/-! ### Statuses -/

/-- Statuses of R158. -/
def stOK : Nat := 0x00
def stCANCELLED : Nat := 0x01
def stBAD_HEADER : Nat := 0x02
def stBAD_OPCODE : Nat := 0x03
def stNO_CAPABILITY : Nat := 0x04
def stPRIVILEGE : Nat := 0x05
def stBAD_DESCRIPTOR : Nat := 0x06
def stCHAIN_REJECT : Nat := 0x07
def stACCESS_FAULT : Nat := 0x08
def stOUTPUT_ALIAS : Nat := 0x09
def stSTAGING_LIMIT : Nat := 0x0A
def stLIST_FETCH : Nat := 0x0B
def stREDUCTION_TAG : Nat := 0x0C
def stDATA_ERROR : Nat := 0x0D
def stRERUN_LIMIT : Nat := 0x0E
def stWAIT_CLEARED : Nat := 0x0F

end Sys2Proof.Machine
end

