-- ==== Sys2Proof/Machine/Sems.lean ====
section
/-! DEFINITION. The semaphore stores (07): reservation, add, subtract, set, take at commit, saturation, poison, and the
clear of a context switch. -/

namespace Sys2Proof.Machine

/-- INFO of a SEM event (R182): index, die, master ID of the requester, value after the event. -/
def semInfo (k master value : Nat) : Nat := k % 2 ^ 16 + master % 2 ^ 12 * 2 ^ 16 + value % 2 ^ 32 * 2 ^ 32

/-- The master that acts on semaphore k at acceptance or commit: control core 0 of its die (R182). -/
def semMaster (k : Nat) : Nat := 0x140 + 4 * (k / 0x4000)

/-- What a semaphore's value reads as: 0 while poisoned (R179). -/
def Sem.read (x : Sem) : Nat := if x.poison then 0 else x.value

/-- A wait entry is satisfied (R140): the value, or the value less the reserved amount for a take, is at least n. -/
def Sem.geq (x : Sem) (n : Nat) : Bool := n ≤ x.read
def Sem.takeable (x : Sem) (n : Nat) : Bool := n + x.resv ≤ x.read

/-- A discarded operation or an access outside the windows counts in FAULTS (R168, R179). DEDUCED (log entry 41). -/
def State.semFault (s : State) (k : Nat) : State := s.count (pgSEM (k / 0x4000)) oSEM_FAULTS 1

/-- The tag of a command as an event record carries it (R163), with the command's partition. -/
def Cmd.evTag (c : Cmd) : Option (Nat × Nat) := some (c.hdr.tag.toNat, c.part)

/-- A semaphore outside the windows is named (R168): FAULTS, the FAULT bit and its event, with the tag of the command that names it. DEDUCED (log entry 41). -/
def State.semDenied (s : State) (k master : Nat) (tag : Option (Nat × Nat)) : State :=
  (s.semFault k).flagEvent (pgSEM (k / 0x4000)) 1 2 (semInfo k master (s.sem k).read) tag

/-- Saturation of semaphore k (R172): SATS, SAT_FIRST when not valid, event SAT with the tag of the command that acts. -/
def State.semSat (s : State) (k master value : Nat) (tag : Option (Nat × Nat)) : State :=
  let g := pgSEM (k / 0x4000)
  let s := s.count g oSEM_SATS 1
  let s := if bit (s.stored g oSEM_SAT_FIRST 0).toNat 31 then s
    else s.setStored g oSEM_SAT_FIRST 0 (BitVec.ofNat 32 (2 ^ 31 + k % 0x4000))
  s.flagEvent g 0 1 (semInfo k master value) tag

/-- value + n, saturating (R169, R172). Answers whether it saturated. DEDUCED (log entry 41). -/
def State.semAdd (s : State) (k n master : Nat) (tag : Option (Nat × Nat)) : State × Bool :=
  let x := s.sem k
  if x.poison then (s.semFault k, false)
  else if x.value + n ≤ 0xFFFFFFFF then (s.setSem k { x with value := x.value + n }, false)
  else ((s.setSem k { x with value := 0xFFFFFFFF, satHi := true }).semSat k master 0xFFFFFFFF tag, true)

/-- value − n, saturating (R169, R172). Answers whether it saturated. DEDUCED (log entry 41). -/
def State.semSub (s : State) (k n master : Nat) (tag : Option (Nat × Nat)) : State × Bool :=
  let x := s.sem k
  if x.poison then (s.semFault k, false)
  else if n ≤ x.value then (s.setSem k { x with value := x.value - n }, false)
  else ((s.setSem k { x with value := 0, satLo := true }).semSat k master 0 tag, true)

/-- value := n; the flags and POISON are cleared, the reserved amount stays (R169). -/
def State.semSet (s : State) (k n : Nat) : State :=
  let x := s.sem k
  s.setSem k { x with value := n % 2 ^ 32, satHi := false, satLo := false, poison := false }

/-- n added to the reserved amount at issue (R140). -/
def State.semReserve (s : State) (k n : Nat) : State :=
  let x := s.sem k
  s.setSem k { x with resv := x.resv + n }

/-- A reservation released (R140): by a kill, an end, or the commit. -/
def State.semRelease (s : State) (k n : Nat) : State :=
  let x := s.sem k
  s.setSem k { x with resv := x.resv - n }

/-- A TAKE at commit (R140, R171, R172, R179): n leaves the reserved amount and the value. -/
def State.semTake (s : State) (k n : Nat) (tag : Option (Nat × Nat)) : State × Bool :=
  (s.semRelease k n).semSub k n (semMaster k) tag

/-- Everything a semaphore holds is 0 (R167, R176). -/
def State.semClear (s : State) (k : Nat) : State := s.setSem k semZero

/-- Every semaphore of a test cleared. -/
def State.semClearIf (s : State) (f : Nat → Bool) : State :=
  { s with sems := s.sems.filter (fun e => !(f e.1)) }

/-- An uncorrectable error in semaphore k (R179): POISON set, reservation cleared, UE set, event POISON gated by UE. -/
def State.semPoison (s : State) (k master : Nat) : State :=
  let x := s.sem k
  let s := s.setSem k { x with poison := true, resv := 0 }
  (s.setErr (pgSEM (k / 0x4000)) 4).raise (pgSEM (k / 0x4000)) (some 4) 5 (semInfo k master 0) none

end Sys2Proof.Machine
end

