-- ==== Sys2Proof/Machine/Energy.lean ====
section
/-! DEFINITION. The header's fields (R139), and the energy shares of issued commands: estimates, fitting, lending and
borrowing (R177, R178, R459 to R465). -/

namespace Sys2Proof.Machine

/-! ### Header fields (R139) -/

def hWaits (h : CapHdr) : List Nat := [h.wait0.toNat, h.wait1.toNat, h.wait2.toNat, h.wait3.toNat]
def hSignals (h : CapHdr) : List Nat := [h.signal0.toNat, h.signal1.toNat, h.signal2.toNat, h.signal3.toNat]
def hIsList (h : CapHdr) : Bool := bit h.flags.toNat 0
def hArrival (h : CapHdr) : Bool := bit h.flags.toNat 1
def hFlush (h : CapHdr) : Bool := bit h.flags.toNat 2
def hRnd (h : CapHdr) : Nat := bits h.flags.toNat 4 3
def hQuiet (h : CapHdr) : Bool := bit h.flags.toNat 5
def hRerunEvt (h : CapHdr) : Bool := bit h.flags.toNat 6
def hClass (h : CapHdr) : Nat := bits h.energy.toNat 3 0

/-- A wait or signal entry's KIND, N and SEM (R139). -/
def entKind (e : Nat) : Nat := bits e 31 30
def entN (e : Nat) : Nat := bits e 29 16
def entSem (e : Nat) : Nat := bits e 15 0

/-! ### Where a command stands -/

/-- A command that has not issued, or has been killed and waits to issue again. -/
def Cmd.unissued (c : Cmd) : Bool := c.phase = .waiting

/-- A command that holds a core or an engine: issued, short of its end. -/
def Cmd.running (c : Cmd) : Bool := c.phase = .issued || c.phase = .applying

/-! ### Shares (R460) -/

/-- W of an energy class in watts (R472). -/
def State.classWatt (s : State) (c : Nat) : Rat :=
  ((s.field pgTRV (oTRV_CLASS_W0 + 4 * (c / 4)) (8 * (c % 4) + 7) (8 * (c % 4)) : Nat) : Rat) / 16

/-- Opcodes with core work: PRODUCT, ATTEND, STEP (R460). -/
def coreWork (opcode : Nat) : Bool := opcode = 0x01 || opcode = 0x02 || opcode = 0x0A

/-- Opcodes served by engines of the compute dies: GATHER, SCATTER_ADD, SEARCH, SELECT, INDEX_MERGE. -/
def dieWork (opcode : Nat) : Bool := opcode = 0x03 || opcode = 0x04 || opcode = 0x05 || opcode = 0x06 || opcode = 0x10

/-- The share s_c of a core: W of the highest class among issued commands whose core set includes it. -/
def State.coreShare (s : State) (c : Nat) : Rat :=
  let x := s.core c
  if x.st = .enabled || x.st = .quiesced then
    s.cmds.foldl (fun m d => if d.running && coreWork d.opcode && d.part = x.owner then max m (s.classWatt (hClass d.hdr)) else m) 0
  else 0

/-- What a core's share counts now: a lender without its quarters, a borrower without its gated griddles (R178, R464). -/
def State.coreDraw (s : State) (c : Nat) : Rat :=
  s.coreShare c * ((4 - (s.core c).lent - (s.core c).borrowGate : Nat) : Rat) / 4

def dieCores (q : Nat) : List Nat := (List.range 52).map (fun i => 52 * q + i)

/-- The pool L of die q (R464). -/
def State.pool (s : State) (q : Nat) : Rat :=
  ((dieCores q).map (fun c => s.coreShare c * ((s.core c).lent : Rat) / 4)).sum

/-- Power of a rail over its last period, in W. -/
def railWatt (e : Nat) : Rat := (e : Rat) * 1024 / 1000000

/-- Mean power of a rail over its last 8 periods. -/
def Rail.mean (r : Rail) : Rat := if r.recent.length = 0 then 0 else railWatt r.recent.sum / r.recent.length

/-- p_other, p_avail and even of R459. -/
def State.pOther (s : State) : Rat := ((List.range 8).map (fun i => (s.rail (4 + i)).mean)).sum
def State.pkgLimit (s : State) : Nat := min 1500 (max 700 (s.field pgTRV oTRV_PKG_LIMIT 10 0))
def State.even (s : State) : Rat := (((s.pkgLimit : Nat) : Rat) - s.pOther - (s.field pgTRV oTRV_PKG_LIMIT 26 16 : Nat)) / 4

/-- p_base of die q, with W of each command in flight that the die's engines serve (R460). -/
def State.pBase (s : State) (q : Nat) : Rat :=
  ((s.die q).pBase.getD (s.even / 5)) +
    (s.cmds.map (fun d => if d.running && dieWork d.opcode && (s.diesOf d.part).contains q then s.classWatt (hClass d.hdr) else 0)).sum

/-- The estimate e of die q. DEDUCED (log entry 33). -/
def State.estimate (s : State) (q : Nat) : Rat :=
  s.pBase q + (s.die q).k * ((dieCores q).map s.coreDraw).sum

/-- The dies whose estimate a command raises. DEDUCED (log entry 33). -/
def State.energyDies (s : State) (c : Cmd) : List Nat :=
  if coreWork c.opcode || dieWork c.opcode then s.diesOf c.part else []

/-- PERIODS of R461. -/
def State.holdPeriods (s : State) : Nat := max 1 (s.field pgTRV oTRV_HOLD_CFG 7 0)

/-- The energy condition of R148 (R460, R461, R464): none while the command is held; else whether it borrows. `heldPeriods`
is 0 for a command not held by energy, else 1 more than the periods it has been held. -/
def State.energyCheck (s : State) (c : Cmd) : Option Bool :=
  let t := s.setCmd { c with phase := .issued }
  let ds := s.energyDies c
  let raised := ds.filter (fun q => s.estimate q < t.estimate q)
  let stopped := s.cmds.any (fun d => d.ref ≠ c.ref && d.unissued && s.holdPeriods < d.heldPeriods && (s.energyDies d).any raised.contains)
  if stopped then none
  else if ds.all (fun q => t.estimate q + (s.die q).k * s.pool q ≤ (s.die q).budget) then some false
  else
    let before := s.cmds.any (fun d => d.ref ≠ c.ref && d.unissued && 0 < d.heldPeriods && d.ref.seq < c.ref.seq && (s.energyDies d).any ds.contains)
    if 0 < c.heldPeriods && !before && ds.all (fun q => t.estimate q ≤ (s.die q).budget) then some true else none

/-! ### Lending (R177, R178, R464) -/

/-- A unit stands at its arrival or halo semaphore. -/
def State.unitWaits (s : State) (u : UnitRef) : Bool :=
  match s.cmd? u.cmd with
  | some c => if u.landing then (s.sem (nth 0 c.landSems u.index)).read < 1
      else c.halo.any (fun h => h.2 = u.index && (s.sem h.1).read < 1)
  | none => false

/-- A core is waiting (R177): each of its four griddles stands at an in-command semaphore. DEDUCED (log entry 92). -/
def State.coreWaiting (s : State) (c : Nat) : Bool :=
  let h := (s.core c).hand
  h.length = 4 && h.all (fun u => match u with | some u => s.unitWaits u | none => false)

/-- Whether a loan of the command stands (R464): its number in `borrowed` is not 0. -/
def Cmd.onLoan (c : Cmd) : Bool := c.borrowed ≠ 0 && c.running

/-- Borrowing commands that run on die q, the most recent first: later loans have higher numbers. -/
def State.borrowers (s : State) (q : Nat) : List Cmd :=
  let l := s.cmds.filter (fun c => c.onLoan && (s.diesOf c.part).contains q)
  l.foldl (fun t c => t.takeWhile (fun d => c.borrowed < d.borrowed) ++ [c] ++ t.dropWhile (fun d => c.borrowed < d.borrowed)) []

/-- Passes stopped on borrowers' griddles, one at a time, until the estimate is within the budget (R464). DEDUCED (log entry 51). -/
def State.gateBorrowers (q : Nat) : Nat → State → State
  | 0, s => s
  | n + 1, s =>
    if s.estimate q ≤ (s.die q).budget then s
    else
      let cs := (s.borrowers q).flatMap (fun b => (s.coreSet b.part).filter (fun c => c / 52 = q && (s.core c).borrowGate < 4))
      match cs with
      | [] => s
      | c :: _ => State.gateBorrowers q n (s.setCore c { s.core c with borrowGate := (s.core c).borrowGate + 1 })

/-- One quarter of core c's share returns, and borrowers of its die give up as much. DEDUCED (log entry 51). -/
def State.returnQuarter (s : State) (c : Nat) : State :=
  State.gateBorrowers (c / 52) 208 (s.setCore c { s.core c with lent := (s.core c).lent - 1 })

/-- The end of waits and loans, seen at once: a lender whose wait ended takes its first quarter back; a wait that ended may
be reported again; a borrower's gates open when its loan ends. DEDUCED (log entries 7, 51, 92). -/
def State.settleLoans (s : State) : State :=
  let s := (s.cores.map (·.1)).foldl (fun s c => if (s.core c).lent = 4 && !(s.coreWaiting c) then s.returnQuarter c else s) s
  (s.cores.map (·.1)).foldl (fun s c =>
    let x := s.core c
    let r := x.reported && s.coreWaiting c
    let g := if s.cmds.any (fun d => d.onLoan && d.part = x.owner) then x.borrowGate else 0
    if r = x.reported && g = x.borrowGate then s else s.setCore c { x with reported := r, borrowGate := g }) s

end Sys2Proof.Machine
end

