-- ==== Sys2Proof/Machine/FabricTx.lean ====
section
/-! DEFINITION. The sending side of the Chabu fabric transport (17): connections (R434), packets and their paths (R432, R439, R441),
and the RELEASE a command owes its peers (R437). -/

namespace Sys2Proof.Machine

/-- Packet types of R433. -/
def fbDATA : Nat := 0
def fbACK : Nat := 1
def fbNACK : Nat := 2
def fbSEMOP : Nat := 3
def fbREPLY : Nat := 4
def fbCANCEL : Nat := 5
def fbLAG : Nat := 6
def fbRELEASE : Nat := 7

/-- DEVICE_ID; 0xFFFF: none is set, and the back network carries nothing (R444). -/
def State.deviceId (s : State) : Nat := s.field pgFABRIC oNETB_DEVICE_ID 15 0

/-- Back sub-ports with their links up (R415, R417). -/
def State.backSubs (s : State) : List Nat := (List.range' 16 16).filter (fun i => (s.sub i).up)

/-- Each back sub-port as often as it has lanes in use (R441). -/
def State.backPaths (s : State) : List Nat := (s.backSubs).flatMap (fun i => List.replicate (s.sub i).lanes i)

/-- SUB_MTU of a sub-port, held to its limits (R420). -/
def State.subMtu (s : State) (i : Nat) : Nat :=
  min 9216 (max 1280 (s.bankField (pgPORT (i / 4)) oNETP_SUB_MTU (i % 4) 13 0))

/-- Payload bytes of a DATA packet (R433), by the smallest MTU of the back sub-ports. -/
def State.fabPayload (s : State) : Nat := min 8192 ((s.backSubs.foldl (fun m i => min m (s.subMtu i)) 9216) - 96)

/-- PATHS of R441. -/
def State.fabPaths (s : State) : Nat := min 16384 (max 1 (s.field pgFABRIC oNETB_FAB_CFG 14 0))

/-- RETRY_LIMIT of R440. -/
def State.fabRetry (s : State) : Nat := max 1 (s.field pgFABRIC oNETB_FAB_CFG 23 16)

/-- Connection contexts in use (R434): the sending ones that have sent, and the receiving ones. -/
def State.contexts (s : State) : Nat := (s.net.txConns.filter (fun t => t.sentCount ≠ 0)).length + s.net.rxConns.length

def State.txConn? (s : State) (c : ConnId) : Option TxConn := s.net.txConns.find? (fun t => t.conn = c)

def State.setTxConn (s : State) (t : TxConn) : State :=
  let l := s.net.txConns
  { s with net := { s.net with txConns := if l.any (fun u => u.conn = t.conn) then l.map (fun u => if u.conn = t.conn then t else u) else l ++ [t] } }

/-- A connection that has sent nothing. -/
def freshTx (c : ConnId) : TxConn := ⟨c, [], 0, true, [], 0, 0, false, (0, 0), 0, 0, 0, 0, 0⟩

def State.txConn (s : State) (c : ConnId) : TxConn := (s.txConn? c).getD (freshTx c)

/-- The sub-port that the rotation names next for a connection, avoiding the one a packet was lost on (R439, R441). -/
def State.nextPath (s : State) (t : TxConn) : Option Nat :=
  let all := s.backPaths
  let good := if t.avoid.2 = 0 then all else all.filter (· ≠ t.avoid.1)
  let l := if good = [] then all else good
  l[s.net.rotor % max 1 l.length]?

/-- A packet put on the wire: on the next path, with its header completed. -/
def State.fabEmit (s : State) (t : TxConn) (k : Sent) (retx : Bool) : Option (State × TxConn × Sent) :=
  match s.nextPath t with
  | none => none
  | some sub =>
    let h : FabHdr := { k.hdr with
      flags := BitVec.ofNat 8 (b2n t.syn + 2 * b2n retx)
      srcDev := BitVec.ofNat 16 s.deviceId
      dstDev := t.conn.dev
      srcPart := BitVec.ofNat 4 t.conn.part.val
      psn := BitVec.ofNat 32 k.psn
      ce := false }
    let udp := 0xC000 + (Config.connHash t.conn.part.val t.conn.dev.toNat t.conn.peer.val + t.sentCount) % s.fabPaths
    let s := { s with net := { s.net with rotor := s.net.rotor + 1 } }
    let s := s.txFrames sub 1
    some (s.send (.fabric t.conn k.type h k.body sub udp),
      { t with sentCount := t.sentCount + 1, avoid := (t.avoid.1, t.avoid.2 - 1) }, { k with sub := sub, hdr := h, order := t.sentCount, later := 0, waiting := false })

/-- The lowest PSN not acknowledged. -/
def TxConn.cum (t : TxConn) : Nat :=
  match t.outstanding.head? with
  | some k => k.psn
  | none => t.next

/-- Packets leave the backlog while fewer than 256 stand beyond CUM_PSN (R439), a context is to be had (R434), DEVICE_ID is set and a
back link is up. DESIGN CHOICE (log entry 98). -/
def State.fabPump (c : ConnId) : Nat → State → State
  | 0, s => s
  | fuel + 1, s =>
    let t := s.txConn c
    match t.backlog with
    | [] => s
    | k :: rest =>
      if t.down || s.deviceId = 0xFFFF || 256 ≤ t.next - t.cum || (t.sentCount = 0 && 16384 ≤ s.contexts) then s
      else match s.fabEmit t { k with psn := t.next } false with
        | none => s
        | some (s, t, k) =>
          State.fabPump c fuel (s.setTxConn { t with backlog := rest, next := t.next + 1, outstanding := t.outstanding ++ [k] })

/-- The packet that waits or was lost is sent again; a loss keeps its path out of use for 64 packets. -/
def State.resend (s : State) (c : ConnId) (k : Sent) (lost : Bool) : State :=
  let t := s.txConn c
  let t : TxConn := if lost then { t with avoid := (k.sub, 64) } else t
  match s.fabEmit t k true with
  | none => s.setTxConn t
  | some (s, t, k2) =>
    (s.setTxConn { t with outstanding := t.outstanding.map (fun x => if x.psn = k.psn then k2 else x) }).count pgFABRIC oNETB_RETX 1

/-- Packets sent by a back sub-port whose link is down go out again on others (R417), and waiting ones leave once a link is up. DEDUCED (log entries 7, 82). -/
def State.resumeLinks (s : State) : State :=
  if s.backPaths = [] then s
  else s.net.txConns.foldl (fun s t =>
    let s := (t.outstanding.filter (fun k => !((s.sub k.sub).up) && !k.waiting)).foldl (fun s k => s.resend t.conn k false) s
    State.fabPump t.conn t.backlog.length s) s

/-- A connection as it opens: the PSN that it starts with is a free value (R434). DEDUCED (log entry 81). -/
def State.openTx (s : State) (c : ConnId) : TxConn :=
  { freshTx c with next := s.choose (2 ^ 24 + (c.dev.toNat * 17 + c.peer.val) * 16 + c.part.val) (2 ^ 32) }

/-- Packets queued on a connection. -/
def State.fabQueue (s : State) (c : ConnId) (ks : List Sent) : State :=
  if ks = [] then s
  else
    let t := (s.txConn? c).getD (s.openTx c)
    State.fabPump c (t.backlog.length + ks.length) (s.setTxConn { t with backlog := t.backlog ++ ks })

/-- A header with nothing in it but what a packet of partition p carries. -/
def fabHdr0 (comm tag : Nat) : FabHdr :=
  ⟨0#8, 0#16, 0#16, 0#4, 0#8, 0#32, BitVec.ofNat 16 comm, BitVec.ofNat 64 tag, 0#32, 0xFFFFFFFF#32, 0#64, 0xFFFF#16, 0#16, 0#32, false⟩

/-- The header of a command's packets (R155, R432). -/
def Cmd.fabHdr (c : Cmd) (comm : Nat) : FabHdr :=
  { fabHdr0 comm c.hdr.tag.toNat with
    rerun := BitVec.ofNat 8 c.reruns
    accSeq := BitVec.ofNat 32 c.ref.seq }

/-- The DATA packets of one item: bytes for ADDR on (R433). -/
def dataPackets (h : FabHdr) (cmd : CmdRef) (size : Nat) (addr : Nat) : Nat → List Byte → List Sent
  | 0, _ => []
  | _ + 1, [] => []
  | fuel + 1, bs =>
    (⟨0, fbDATA, { h with addr := BitVec.ofNat 64 addr }, bs.take (max 1 size), some cmd, 0, 0, false, 0⟩ : Sent)
      :: dataPackets h cmd size (addr + max 1 size) fuel (bs.drop (max 1 size))

/-- The command owes the peer of a connection a RELEASE (R437). -/
def State.owe (s : State) (r : CmdRef) (c : ConnId) (comm : Nat) : State :=
  if s.net.owed.contains (r, c, comm) then s else { s with net := { s.net with owed := s.net.owed ++ [(r, c, comm)] } }

/-- An item of a command queued on a connection. -/
def State.sendItem (s : State) (c : Cmd) (conn : ConnId) (comm item addr sem : Nat) (bs : List Byte) : State :=
  let h : FabHdr := { c.fabHdr comm with
    item := BitVec.ofNat 32 item
    sem := BitVec.ofNat 16 sem
    collSeq := BitVec.ofNat 16 c.collSeq
    itemBytes := BitVec.ofNat 32 bs.length }
  (s.fabQueue conn (dataPackets h c.ref s.fabPayload addr (bs.length + 1) bs)).owe c.ref conn comm

/-- Packets of a command not yet acknowledged or not yet sent. -/
def State.unacked (s : State) (r : CmdRef) : Bool :=
  s.net.txConns.any (fun t => t.outstanding.any (fun k => k.cmd = some r) || t.backlog.any (fun k => k.cmd = some r))

/-- Packets of a command that were not yet sent are not sent (R154). -/
def State.dropBacklog (s : State) (r : CmdRef) : State :=
  { s with net := { s.net with
    txConns := s.net.txConns.map (fun t => { t with backlog := t.backlog.filter (fun k => k.cmd ≠ some r) }) } }

/-- RELEASE to every peer of a command that has left flight, once all its packets to the peer are acknowledged (R437). DEDUCED (log entry 7). -/
def State.releaseOwed (s : State) : State :=
  let ready := fun (s : State) (e : CmdRef × ConnId × Nat) =>
    !(s.cmds.any (fun c => c.ref = e.1 && c.phase ≠ .ended)) &&
      (match s.txConn? e.2.1 with
        | some t => !(t.outstanding.any (fun k => k.cmd = some e.1) || t.backlog.any (fun k => k.cmd = some e.1))
        | none => true)
  s.net.owed.foldl (fun s e =>
    if ready s e then
      let s := { s with net := { s.net with owed := s.net.owed.filter (· ≠ e) } }
      s.fabQueue e.2.1 [⟨0, fbRELEASE, { fabHdr0 e.2.2 0 with accSeq := BitVec.ofNat 32 e.1.seq }, [], none, 0, 0, false, 0⟩]
    else s) s

end Sys2Proof.Machine
end

