-- ==== Sys2Proof/Machine/Operands.lean ====
section
/-! DEFINITION. Number formats (02): exact values, the element encodings and their packing in memory (R23 to R28), rounding
to a format (R42 to R44), FP32 arithmetic and the whisk's functions (R45 to R50, R67, R68), and the random words of R44. -/

namespace Sys2Proof.Machine

/-! ### Exact values -/

/-- The value of an element: NaN, an infinity, or a sign and an exact magnitude (a zero keeps its sign). -/
inductive Val where
  | nan
  | inf (neg : Bool)
  | fin (neg : Bool) (mag : Rat)
  deriving DecidableEq, Repr

def Val.zero : Val := .fin false 0

/-- 2 to an integer power. -/
def pow2 (e : Int) : Rat := if 0 ≤ e then ((2 ^ e.toNat : Nat) : Rat) else 1 / ((2 ^ (-e).toNat : Nat) : Rat)

/-- The exponent of a positive number: the largest e with 2^e ≤ x. -/
def expOf (x : Rat) : Int :=
  let e : Int := (Nat.log2 x.num.natAbs : Int) - (Nat.log2 x.den : Int)
  if pow2 e ≤ x then e else e - 1

/-- The signed number of a finite value; 0 for others. -/
def Val.rat : Val → Rat
  | .fin n m => if n then -m else m
  | _ => 0

/-- The value of a signed number, with +0 for zero. -/
def Val.ofRat (x : Rat) : Val := if x < 0 then .fin true (-x) else .fin false x

def Val.neg : Val → Val
  | .nan => .nan
  | .inf n => .inf !n
  | .fin n m => .fin (!n) m

def Val.isNan : Val → Bool
  | .nan => true
  | _ => false

def Val.signBit : Val → Bool
  | .nan => false
  | .inf n => n
  | .fin n _ => n

/-- Exact sum, with the IEEE 754 rules for infinities and the sign of zero under round to nearest (R47, R48). -/
def Val.add : Val → Val → Val
  | .nan, _ | _, .nan => .nan
  | .inf a, .inf b => if a = b then .inf a else .nan
  | .inf a, _ => .inf a
  | _, .inf b => .inf b
  | .fin a x, .fin b y =>
    let r := Val.rat (.fin a x) + Val.rat (.fin b y)
    if r = 0 then .fin (a && b && x = 0) 0 else Val.ofRat r

/-- Exact product (R47). -/
def Val.mul : Val → Val → Val
  | .nan, _ | _, .nan => .nan
  | .inf a, .inf b => .inf (a != b)
  | .inf a, .fin b y => if y = 0 then .nan else .inf (a != b)
  | .fin a x, .inf b => if x = 0 then .nan else .inf (a != b)
  | .fin a x, .fin b y => .fin (a != b) (x * y)

/-- a < b of numbers; −0 and +0 are equal, NaN is below nothing (R48, R68). -/
def Val.lt : Val → Val → Bool
  | .nan, _ | _, .nan => false
  | .inf a, .inf b => a && !b
  | .inf a, .fin _ _ => a
  | .fin _ _, .inf b => !b
  | .fin a x, .fin b y => Val.rat (.fin a x) < Val.rat (.fin b y)

/-- Equal as numbers. -/
def Val.numEq (a b : Val) : Bool := !a.isNan && !b.isNan && !(a.lt b) && !(b.lt a)

/-- Min and max of R68. -/
def Val.min2 (a b : Val) : Val := if a.isNan || b.isNan then .nan else if b.lt a then b else a
def Val.max2 (a b : Val) : Val := if a.isNan || b.isNan then .nan else if a.lt b then b else a

/-! ### Floating-point encodings (R24) -/

/-- The special codes of a floating-point encoding: IEEE infinities and NaNs; a NaN at all ones only; none. -/
inductive Special where
  | ieee | ones | none
  deriving DecidableEq, Repr

/-- A floating-point encoding: exponent bits, fraction bits, bias. -/
structure FloatEnc where
  e : Nat
  m : Nat
  bias : Nat
  special : Special
  deriving DecidableEq, Repr

def encFP32 : FloatEnc := ⟨8, 23, 127, .ieee⟩
def encBF16 : FloatEnc := ⟨8, 7, 127, .ieee⟩
def encFP16 : FloatEnc := ⟨5, 10, 15, .ieee⟩
def encE4M3 : FloatEnc := ⟨4, 3, 7, .ones⟩
def encE5M2 : FloatEnc := ⟨5, 2, 15, .ieee⟩
def encE3M2 : FloatEnc := ⟨3, 2, 3, .none⟩
def encE2M3 : FloatEnc := ⟨2, 3, 1, .none⟩
def encE2M1 : FloatEnc := ⟨2, 1, 1, .none⟩

/-- The exponent of the smallest normal number. -/
def FloatEnc.minExp (f : FloatEnc) : Int := 1 - (f.bias : Int)

/-- The largest finite magnitude. -/
def FloatEnc.maxFinite (f : FloatEnc) : Rat :=
  match f.special with
  | .ieee => (2 - pow2 (-(f.m : Int))) * pow2 ((2 ^ f.e : Nat) - 2 - (f.bias : Int))
  | .ones => (2 - pow2 (1 - (f.m : Int))) * pow2 ((2 ^ f.e : Nat) - 1 - (f.bias : Int))
  | .none => (2 - pow2 (-(f.m : Int))) * pow2 ((2 ^ f.e : Nat) - 1 - (f.bias : Int))

/-- The value of a code. -/
def FloatEnc.decode (f : FloatEnc) (c : Nat) : Val :=
  let neg := bit c (f.e + f.m)
  let x := c / 2 ^ f.m % 2 ^ f.e
  let y := c % 2 ^ f.m
  if f.special = .ieee && x = 2 ^ f.e - 1 then (if y = 0 then .inf neg else .nan)
  else if f.special = .ones && x = 2 ^ f.e - 1 && y = 2 ^ f.m - 1 then .nan
  else if x = 0 then .fin neg (y * pow2 (f.minExp - f.m))
  else .fin neg ((2 ^ f.m + y : Nat) * pow2 ((x : Int) - f.bias - f.m))

/-- The code of a sign and a representable magnitude. -/
def FloatEnc.encodeMag (f : FloatEnc) (neg : Bool) (mag : Rat) : Nat :=
  let s := b2n neg * 2 ^ (f.e + f.m)
  if mag = 0 then s
  else
    let e := max (expOf mag) f.minExp
    let k := (mag / pow2 (e - f.m)).floor.toNat
    if k < 2 ^ f.m then s + k
    else s + (e - f.minExp + 1).toNat * 2 ^ f.m + (k - 2 ^ f.m)

/-- The canonical NaN of an encoding that has one (R43). -/
def FloatEnc.nanCode (f : FloatEnc) : Nat :=
  match f.special with
  | .ieee => (2 ^ f.e - 1) * 2 ^ f.m + 2 ^ (f.m - 1)
  | _ => 2 ^ (f.e + f.m) - 1

def FloatEnc.infCode (f : FloatEnc) (neg : Bool) : Nat := b2n neg * 2 ^ (f.e + f.m) + (2 ^ f.e - 1) * 2 ^ f.m

/-! ### Rounding (R42, R44) -/

/-- A rounding: to nearest with ties to even, or stochastic with a 32-bit random word. -/
inductive Rnd where
  | rne
  | sr (r : Nat)
  deriving DecidableEq, Repr

/-- A quotient rounded to an integer. -/
def Rnd.int (r : Rnd) (q : Rat) : Nat :=
  let n := q.floor.toNat
  let f := q - n
  match r with
  | .rne => if f < 1 / 2 then n else if 1 / 2 < f then n + 1 else n + n % 2
  | .sr k => if 1 ≤ f + (k : Rat) / 4294967296 then n + 1 else n

/-- A magnitude rounded to the grid of an encoding, over normal and subnormal ranges, without a limit above. -/
def FloatEnc.roundMag (f : FloatEnc) (r : Rnd) (x : Rat) : Rat :=
  if x = 0 then 0
  else
    let u := pow2 (max (expOf x) f.minExp - f.m)
    (r.int (x / u) : Rat) * u

/-- The code of a value rounded to an encoding; an encoding without infinities saturates, one without NaN gives the
largest code (its block scale then says NaN) (R43). -/
def FloatEnc.encode (f : FloatEnc) (r : Rnd) (v : Val) : Nat :=
  match v with
  | .nan => f.nanCode
  | .inf n => if f.special = .ieee then f.infCode n else f.encodeMag n f.maxFinite
  | .fin n m =>
    let q := f.roundMag r m
    if f.maxFinite < q then (if f.special = .ieee then f.infCode n else f.encodeMag n f.maxFinite)
    else f.encodeMag n q

/-! ### FP32 (R42, R45 to R48) -/

def f32 (w : Word) : Val := encFP32.decode w.toNat
def toF32 (v : Val) : Word := BitVec.ofNat 32 (encFP32.encode .rne v)

/-- A value rounded to FP32 and kept as a value. -/
def rne32 (v : Val) : Val := f32 (toF32 v)

def f32Add (a b : Word) : Word := toF32 ((f32 a).add (f32 b))
def f32Mul (a b : Word) : Word := toF32 ((f32 a).mul (f32 b))
def f32Fma (a b c : Word) : Word := toF32 (((f32 a).mul (f32 b)).add (f32 c))
def f32Sub (a b : Word) : Word := toF32 ((f32 a).add (f32 b).neg)
def f32Nan : Word := 0x7FC00000#32
def f32One : Word := 0x3F800000#32

/-- FP32 of a number. -/
def f32OfRat (x : Rat) : Word := toF32 (Val.ofRat x)

/-- A subnormal word reads as zero of its sign when the flush flag is set (R49). DEDUCED (log entry 61). -/
def flush (ftz : Bool) (w : Word) : Word := if ftz && w.toNat / 2 ^ 23 % 256 = 0 then w &&& 0x80000000#32 else w

/-- A word widened from a code of an encoding reads as zero of its sign where that code was a subnormal of the encoding (R49). -/
def flushFrom (ftz : Bool) (f : FloatEnc) (w : Word) : Word :=
  match f32 w with
  | .fin _ m => if ftz && m < pow2 f.minExp then w &&& 0x80000000#32 else w
  | _ => w

/-! ### Formats (R23) -/

inductive Fmt where
  | fp32 | bf16 | fp16 | e4m3 | e5m2 | int8 | mxE4M3 | mxE5M2 | mxE2M3 | mxE3M2 | mxE2M1 | mxInt8 | mxInt4
  deriving DecidableEq, Repr

def fmtOf : Nat → Option Fmt
  | 0x00 => some .fp32 | 0x01 => some .bf16 | 0x02 => some .fp16 | 0x03 => some .e4m3 | 0x04 => some .e5m2
  | 0x05 => some .int8 | 0x10 => some .mxE4M3 | 0x11 => some .mxE5M2 | 0x12 => some .mxE2M3 | 0x13 => some .mxE3M2
  | 0x14 => some .mxE2M1 | 0x15 => some .mxInt8 | 0x16 => some .mxInt4
  | _ => none

/-- An MX format: E8M0 scales per 32 elements. -/
def Fmt.mx : Fmt → Bool
  | .mxE4M3 | .mxE5M2 | .mxE2M3 | .mxE3M2 | .mxE2M1 | .mxInt8 | .mxInt4 => true
  | _ => false

/-- Formats a griddle takes as operands. -/
def Fmt.operand : Fmt → Bool
  | .fp32 | .mxInt4 => false
  | _ => true

/-- Formats a command stores. -/
def Fmt.storage : Fmt → Bool
  | .mxInt4 => false
  | _ => true

def Fmt.bits : Fmt → Nat
  | .fp32 => 32
  | .bf16 | .fp16 => 16
  | .mxE2M3 | .mxE3M2 => 6
  | .mxE2M1 | .mxInt4 => 4
  | _ => 8

/-- The floating-point encoding of a format's element, where it has one. -/
def Fmt.enc : Fmt → Option FloatEnc
  | .fp32 => some encFP32
  | .bf16 => some encBF16
  | .fp16 => some encFP16
  | .e4m3 | .mxE4M3 => some encE4M3
  | .e5m2 | .mxE5M2 => some encE5M2
  | .mxE2M3 => some encE2M3
  | .mxE3M2 => some encE3M2
  | .mxE2M1 => some encE2M1
  | _ => none

/-- Scale of one integer step: INT8 1, MXINT8 2^-6, MXINT4 2^-2. -/
def Fmt.step : Fmt → Int
  | .mxInt8 => -6
  | .mxInt4 => -2
  | _ => 0

/-- The value of an element's code, before its scale. -/
def Fmt.decode (f : Fmt) (c : Nat) : Val :=
  match f.enc with
  | some e => e.decode c
  | none =>
    let n := 2 ^ (f.bits - 1)
    if f = .int8 && c = 0x80 then .nan
    else
      let i : Int := if c < n then (c : Int) else (c : Int) - 2 * (n : Int)
      Val.ofRat (i * pow2 f.step)

/-- The code of a value, before its scale (R42, R43). -/
def Fmt.encode (f : Fmt) (r : Rnd) (v : Val) : Nat :=
  match f.enc with
  | some e => e.encode r v
  | none =>
    let top := 2 ^ (f.bits - 1) - 1
    let put := fun (neg : Bool) (k : Nat) => if neg && k ≠ 0 then 2 ^ f.bits - k else k
    match v with
    | .nan => if f = .int8 then 0x80 else 0
    | .inf n => put n top
    | .fin n m => put n (min top (r.int (m / pow2 f.step)))

/-- The largest finite element (R24), as saturation uses it (R43). -/
def Fmt.maxFinite (f : Fmt) : Rat :=
  match f.enc with
  | some e => e.maxFinite
  | none => ((2 ^ (f.bits - 1) - 1 : Nat) : Rat) * pow2 f.step

/-- An element format with a NaN code of its own. -/
def Fmt.hasNan : Fmt → Bool
  | .mxE2M3 | .mxE3M2 | .mxE2M1 | .mxInt8 | .mxInt4 => false
  | _ => true

/-- top and lsb of R24. -/
def Fmt.top : Fmt → Int
  | .bf16 | .fp16 => 0
  | .e4m3 | .mxE4M3 => 8
  | .e5m2 | .mxE5M2 => 15
  | .mxE3M2 => 4
  | .mxE2M3 | .mxE2M1 => 2
  | .mxInt8 | .mxInt4 => 1
  | .int8 => 6
  | .fp32 => 0

/-- The chunk length L_c of one operand (R30). -/
def Fmt.chunk : Fmt → Nat
  | .mxE2M1 => 512
  | .bf16 | .fp16 => 128
  | _ => 256

/-! ### Packing (R27) -/

/-- Bytes of a row of n elements. -/
def Fmt.rowBytes (f : Fmt) (n : Nat) : Nat :=
  match f.bits with
  | 4 => ceilDiv n 2
  | 6 => ceilDiv n 4 * 3
  | b => n * (b / 8)

/-- The code of element i of a row. -/
def Fmt.codeAt (f : Fmt) (row : List Byte) (i : Nat) : Nat :=
  match f.bits with
  | 4 => fld row (i / 2) 1 / 16 ^ (i % 2) % 16
  | 6 => fld row (i / 4 * 3) 3 / 64 ^ (i % 4) % 64
  | b => fld row (i * (b / 8)) (b / 8)

/-- Codes packed four to three bytes. -/
def pack6 : Nat → List Nat → List Byte
  | 0, _ => []
  | _ + 1, [] => []
  | n + 1, l =>
    leBytes 3 (nth 0 l 0 + 64 * nth 0 l 1 + 4096 * nth 0 l 2 + 262144 * nth 0 l 3) ++ pack6 n (l.drop 4)

def pack4 : Nat → List Nat → List Byte
  | 0, _ => []
  | _ + 1, [] => []
  | n + 1, l => BitVec.ofNat 8 (nth 0 l 0 + 16 * nth 0 l 1) :: pack4 n (l.drop 2)

/-- A row of codes as bytes. -/
def Fmt.pack (f : Fmt) (codes : List Nat) : List Byte :=
  match f.bits with
  | 4 => pack4 codes.length codes
  | 6 => pack6 codes.length codes
  | b => codes.flatMap (leBytes (b / 8))

/-- An E8M0 scale: 2^(e − 127), or NaN for 0xFF (R26). -/
def e8m0 (e : Nat) : Option Int := if e = 0xFF then none else some ((e : Int) - 127)

/-! ### Philox4x32-10 (R44) -/

/-- Ten rounds on four counter words under two key words. -/
def philoxRounds : Nat → Word × Word → Word × Word × Word × Word → Word × Word × Word × Word
  | 0, _, c => c
  | n + 1, (k0, k1), (c0, c1, c2, c3) =>
    let p0 := 0xD2511F53 * c0.toNat
    let p1 := 0xCD9E8D57 * c2.toNat
    philoxRounds n (k0 + 0x9E3779B9#32, k1 + 0xBB67AE85#32)
      (BitVec.ofNat 32 (p1 / 2 ^ 32) ^^^ c1 ^^^ k0, BitVec.ofNat 32 p1, BitVec.ofNat 32 (p0 / 2 ^ 32) ^^^ c3 ^^^ k1, BitVec.ofNat 32 p0)

/-- Philox4x32-10 under a 64-bit key, low word first. -/
def philox (key : Dword) (c0 c1 c2 c3 : Nat) : Word × Word × Word × Word :=
  philoxRounds 10 (BitVec.ofNat 32 key.toNat, BitVec.ofNat 32 (key.toNat / 2 ^ 32))
    (BitVec.ofNat 32 c0, BitVec.ofNat 32 c1, BitVec.ofNat 32 c2, BitVec.ofNat 32 c3)

/-- The rounding of element e at stage number `stage` of a command (R42, R44). DEDUCED (log entry 58). -/
def rndOf (mode : Nat) (seed : Dword) (e stage : Nat) : Rnd :=
  if mode = 1 then .sr (philox seed e (e / 2 ^ 32) stage 0).1.toNat else .rne

/-! ### The whisk's functions (R67, R68) -/

/-- FP32 words in order of value: the neighbour k units in the last place above (below for negative k) a finite word. -/
def f32Step (w : Word) (k : Int) : Word :=
  let i : Int := if w.toNat < 2 ^ 31 then (w.toNat : Int) else -((w.toNat - 2 ^ 31 : Nat) : Int)
  let j := i + k
  if 0 ≤ j then BitVec.ofNat 32 (min j.toNat 0x7F800000) else BitVec.ofNat 32 (2 ^ 31 + min (-j).toNat 0x7F800000)

/-- The FP32 value at or next below the magnitude of a positive number. -/
def f32Floor (x : Rat) : Word :=
  let u := pow2 (max (expOf x) (-126) - 23)
  let m := ((x / u).floor : Rat) * u
  BitVec.ofNat 32 (if encFP32.maxFinite < m then 0x7F7FFFFF else encFP32.encodeMag false m)

/-- A result within 2 units in the last place of the exact positive value x (function and operand decide which). DEDUCED (log entry 94). -/
def whiskNear (f : Nat) (op : Word) (neg : Bool) (x : Rat) : Word :=
  let w := f32Floor x
  let r := f32Step w (((Config.whiskUlp f op).val : Int) - 2)
  let d := (f32 r).rat - x
  let r := match f32 r with
    | .fin false _ => if (if d < 0 then -d else d) ≤ 2 * pow2 (max (expOf x) (-126) - 23) then r else w
    | _ => w
  if neg then r ^^^ 0x80000000#32 else r

/-- Binary digits kept by the series below. -/
def fixBits : Nat := 160

/-- Sum of z^(2i+1) / (2i+1) for i < n, in fixed point. -/
def atanhSum (z2 : Nat) : Nat → Nat → Nat → Nat
  | 0, _, _ => 0
  | n + 1, i, t => t / (2 * i + 1) + atanhSum z2 n (i + 1) (t * z2 / 2 ^ fixBits)

/-- Natural logarithm of (1 + z) / (1 − z) in fixed point. -/
def lnFix (z : Nat) : Nat := 2 * atanhSum (z * z / 2 ^ fixBits) 60 0 z

/-- ln 2 in fixed point: z = 1/3. -/
def ln2Fix : Nat := lnFix (2 ^ fixBits / 3)

/-- Sum of t·y^i / i!, in fixed point. -/
def expSum (y : Nat) : Nat → Nat → Nat → Nat
  | 0, _, _ => 0
  | n + 1, i, t => t + expSum y n (i + 1) (t * y / 2 ^ fixBits / (i + 1))

/-- 2^f for a fixed-point f in [0, 1), in fixed point. -/
def exp2Fix (f : Nat) : Nat := expSum (f * ln2Fix / 2 ^ fixBits) 50 0 (2 ^ fixBits)

/-- 2^x to more digits than FP32 needs. -/
def exp2Rat (x : Rat) : Rat :=
  let n := x.floor
  let f := ((x - n) * ((2 ^ fixBits : Nat) : Rat)).floor.toNat
  ((exp2Fix f : Nat) : Rat) / ((2 ^ fixBits : Nat) : Rat) * pow2 n

/-- log2 x for x > 0. -/
def log2Rat (x : Rat) : Rat :=
  let e := expOf x
  let m := x / pow2 e
  let z := ((m - 1) / (m + 1) * ((2 ^ fixBits : Nat) : Rat)).floor.toNat
  (e : Rat) + ((lnFix z : Nat) : Rat) / ((ln2Fix : Nat) : Rat)

/-- Exp2 of the whisk: 2^x; −Inf gives 0, +Inf gives +Inf; beyond the range, +Inf or 0 at the nearest. DEDUCED (log entry 94). -/
def whiskExp2 (a : Word) : Word :=
  match f32 a with
  | .nan => f32Nan
  | .inf n => if n then 0#32 else 0x7F800000#32
  | .fin n m =>
    let x := Val.rat (.fin n m)
    if m = 0 then f32One
    else if 128 ≤ x then 0x7F800000#32
    else if x < -160 then 0#32
    else whiskNear 0 a false (exp2Rat x)

/-- Log2 of the whisk: −Inf at zero, NaN below zero. DEDUCED (log entry 94). -/
def whiskLog2 (a : Word) : Word :=
  match f32 a with
  | .nan => f32Nan
  | .inf n => if n then f32Nan else 0x7F800000#32
  | .fin n m =>
    if m = 0 then 0xFF800000#32
    else if n then f32Nan
    else
      let y := log2Rat m
      if y = 0 then 0#32 else whiskNear 1 a (y < 0) (if y < 0 then -y else y)

/-- Reciprocal: an infinity of its sign at a zero. DEDUCED (log entry 94). -/
def whiskRcp (a : Word) : Word :=
  match f32 a with
  | .nan => f32Nan
  | .inf n => if n then 0x80000000#32 else 0#32
  | .fin n m => if m = 0 then (if n then 0xFF800000#32 else 0x7F800000#32) else whiskNear 2 a n (1 / m)

/-- The square root's floor on a grid of 2^-k. -/
def sqrtRat (x : Rat) : Rat :=
  let k : Int := (100 - expOf x) / 2 * 2
  let n := (x * pow2 k).floor.toNat
  (Nat.sqrt n : Rat) * pow2 (-(k / 2))

/-- Reciprocal square root. DEDUCED (log entry 94). -/
def whiskRsqrt (a : Word) : Word :=
  match f32 a with
  | .nan => f32Nan
  | .inf n => if n then f32Nan else 0#32
  | .fin n m =>
    if m = 0 then (if n then 0xFF800000#32 else 0x7F800000#32)
    else if n then f32Nan
    else whiskNear 3 a false (sqrtRat (1 / m))

/-- Square root, correctly rounded: an inexact root is taken at half a step of `sqrtRat`'s grid above its floor, on the same side of
every tie as the root itself. DEDUCED (log entry 94). -/
def whiskSqrt (a : Word) : Word :=
  match f32 a with
  | .nan => f32Nan
  | .inf n => if n then f32Nan else a
  | .fin n m => if m = 0 then a else if n then f32Nan else
    let r := sqrtRat m
    toF32 (.fin false (if r * r = m then r else r + pow2 (-((100 - expOf m) / 2) - 1)))

end Sys2Proof.Machine
end

