-- ==== Sys2Proof/Machine/Reduce.lean ====
section
/-! DEFINITION. Canonical reduction (R26 to R41, R45 to R50): rows of operands as the griddle takes them, the window sum of a
chunk, the tree over chunks, the nodes of a split product, the order of arrival, and the scales applied after the sum. -/

namespace Sys2Proof.Machine

/-- Bytes read from a device address, or why they cannot be had. -/
abbrev Reader := Nat → Nat → Except MemErr (List Byte)

/-- An operand element at the feeder: its value with its block scale, and its term of the combined exponent (R31). -/
abbrev Elem := Val × Int

/-- A value times a power of two. -/
def Val.scale (v : Val) (e : Int) : Val :=
  match v with
  | .fin n m => .fin n (m * pow2 e)
  | v => v

/-- An element from its code and block scale; `none` is a block scale of 0xFF. -/
def elemOf (f : Fmt) (code : Nat) (sc : Option Int) : Elem :=
  let v := f.decode code
  if f.mx then
    match sc with
    | none => (.nan, 0)
    | some e => (v.scale e, e)
  else if f = .bf16 || f = .fp16 then
    let lo : Int := if f = .bf16 then -126 else -14
    (v, match v with
      | .fin _ m => if m = 0 then lo else max lo (expOf m)
      | _ => lo)
  else (v, 0)

/-- An operand in memory: format, first byte, bytes between rows, rows, columns along K, scales (0: none). -/
structure Opnd where
  fmt : Fmt
  base : Nat
  stride : Nat
  rows : Nat
  k : Nat
  scale : Nat
  deriving DecidableEq, Repr

/-- The block scales of a row; all of the format's neutral scale where the operand names none and is no MX format. -/
def Opnd.rowScales (rd : Reader) (o : Opnd) (r k : Nat) : Except MemErr (List (Option Int)) :=
  if o.fmt.mx then
    match rd (o.scale + r * ceilDiv o.k 32) (ceilDiv k 32) with
    | .error e => .error e
    | .ok bs => .ok (bs.map (fun b => e8m0 b.toNat))
  else .ok []

/-- Row r of an operand, its first k elements. -/
def Opnd.row (rd : Reader) (o : Opnd) (r k : Nat) : Except MemErr (List Elem) :=
  match rd (o.base + r * o.stride) (o.fmt.rowBytes k), o.rowScales rd r k with
  | .ok bs, .ok ss => .ok ((List.range k).map (fun i => elemOf o.fmt (o.fmt.codeAt bs i) (nth none ss (i / 32))))
  | .error e, _ => .error e
  | _, .error e => .error e

/-- The external scale of row r (R29): a tensor's for FP8, a row's for INT8, 1.0 for the others. -/
def Opnd.extScale (rd : Reader) (o : Opnd) (r : Nat) : Except MemErr Word :=
  let at_ := fun (a : Nat) => match rd a 4 with
    | .ok b => .ok (BitVec.ofNat 32 (leNat b))
    | .error e => .error e
  if o.scale = 0 then .ok f32One
  else if o.fmt = .e4m3 || o.fmt = .e5m2 then at_ o.scale
  else if o.fmt = .int8 then at_ (o.scale + 4 * r)
  else .ok f32One

/-- Bytes of an operand's scale array (R26, R580). -/
def Opnd.scaleBytes (o : Opnd) : Nat :=
  if o.scale = 0 then 0
  else if o.fmt.mx then o.rows * ceilDiv o.k 32
  else if o.fmt = .e4m3 || o.fmt = .e5m2 then 4
  else if o.fmt = .int8 then 4 * o.rows
  else 0

/-! ### One chunk (R31, R32, R47) -/

/-- A magnitude rounded once to FP32, with the sticky bit acting on exact halves only. -/
def roundSticky (neg : Bool) (x : Rat) (sticky : Bool) : Val :=
  if x = 0 then Val.zero
  else
    let u := pow2 (max (expOf x) (-126) - 23)
    let n := (x / u).floor.toNat
    let f := x / u - n
    let k := if f < 1 / 2 then n else if 1 / 2 < f || sticky then n + 1 else n + n % 2
    let y : Rat := (k : Rat) * u
    if encFP32.maxFinite < y then .inf neg else .fin neg y

/-- The sum of products in the chunk window: `tops` is top_a + top_b, `g` the guard bits. -/
def windowSum (ps : List Elem) (tops : Int) (g : Nat) : Val :=
  let pos := ps.any (fun p => p.1 = .inf false)
  let neg := ps.any (fun p => p.1 = .inf true)
  if ps.any (fun p => p.1.isNan) || (pos && neg) then .nan
  else if pos then .inf false
  else if neg then .inf true
  else
    match ps with
    | [] => Val.zero
    | p :: rest =>
      let smax := rest.foldl (fun m q => max m q.2) p.2
      let u := pow2 (smax + tops + 2 + g - 191)
      let r : Int × Bool := (p :: rest).foldl (fun a q =>
        let x := q.1.rat / u
        let m := (if x < 0 then -x else x).floor
        (if x < 0 then a.1 - m else a.1 + m, a.2 || (m : Rat) ≠ (if x < 0 then -x else x))) (0, false)
      roundSticky (r.1 < 0) ((r.1.natAbs : Rat) * u) r.2

/-- An exact sum rounded once to FP32 (segsum of R98): R47 for infinities, +0 for zero. DEDUCED (log entry 58). -/
def exactSum (vs : List Val) : Val :=
  let pos := vs.any (fun v => v = .inf false)
  let neg := vs.any (fun v => v = .inf true)
  if vs.any Val.isNan || (pos && neg) then .nan
  else if pos then .inf false
  else if neg then .inf true
  else
    let x : Rat := (vs.map Val.rat).sum
    roundSticky (x < 0) (if x < 0 then -x else x) false

/-- A list cut in runs of n. -/
def runsOf {α : Type} (n : Nat) : Nat → List α → List (List α)
  | 0, _ => []
  | _ + 1, [] => []
  | fuel + 1, l => l.take n :: runsOf n fuel (l.drop n)

/-- L_c of an operand pair, and its guard bits (R30). -/
def chunkLen (a b : Fmt) : Nat := min a.chunk b.chunk
def guardBits (a b : Fmt) : Nat := Nat.log2 (chunkLen a b) + 1

/-- The chunk result of one pair of element runs. -/
def chunkOf (fa fb : Fmt) (a b : List Elem) : Val :=
  windowSum ((a.zip b).map (fun e => (e.1.1.mul e.2.1, e.1.2 + e.2.2))) (fa.top + fb.top) (guardBits fa fb)

/-- The chunk results of a dot product, in chunk order. -/
def chunkResults (fa fb : Fmt) (a b : List Elem) : List Val :=
  let l := chunkLen fa fb
  ((runsOf l (a.length + 1) a).zip (runsOf l (b.length + 1) b)).map (fun e => chunkOf fa fb e.1 e.2)

/-! ### The tree (R35, R36) -/

/-- FP32 sum of two FP32 values. -/
def add32 (a b : Val) : Val := rne32 (a.add b)

/-- One level of the tree. -/
def pairUp : List Val → List Val
  | a :: b :: t => add32 a b :: pairUp t
  | l => l

/-- The tree over chunk results; +0 where there is none. -/
def treeUp : Nat → List Val → Val
  | _, [] => Val.zero
  | _, [v] => v
  | 0, v :: _ => v
  | n + 1, l => treeUp n (pairUp l)

def treeSum (vs : List Val) : Val := treeUp vs.length vs

/-- The level of the maximal node at chunk lo of a range that ends at hi: the largest l ≤ top that divides lo and fits. -/
def nodeLevel (lo hi cnum : Nat) : Nat → Nat
  | 0 => 0
  | l + 1 => if lo % 2 ^ (l + 1) = 0 && min (lo + 2 ^ (l + 1)) cnum ≤ hi && 2 ^ (l + 1) < 2 * cnum then l + 1 else nodeLevel lo hi cnum l

/-- The maximal nodes (level, index) of chunks lo to hi - 1 of cnum, in the order of R36. -/
def nodesOf (hi cnum : Nat) : Nat → Nat → List (Nat × Nat)
  | 0, _ => []
  | fuel + 1, lo =>
    if hi ≤ lo then []
    else
      let l := nodeLevel lo hi cnum 32
      (l, lo / 2 ^ l) :: nodesOf hi cnum fuel (min (lo + 2 ^ l) cnum)

/-- The chunks a node covers. -/
def nodeSpan (cnum : Nat) (n : Nat × Nat) : Nat × Nat := (n.2 * 2 ^ n.1, min ((n.2 + 1) * 2 ^ n.1) cnum)

/-! ### Arrival order (R41) -/

/-- A value inserted by its key. -/
def byKey (e : Nat × Val) : List (Nat × Val) → List (Nat × Val)
  | [] => [e]
  | f :: t => if e.1 < f.1 then e :: f :: t else f :: byKey e t

/-- The values added in an order that the keys of Config decide. -/
def arrivalSum (ctr : Nat) (vs : List Val) : Val :=
  let l := (vs.zipIdx.map (fun e => (Config.arrivalKey ctr e.2, e.1))).foldl (fun l e => byKey e l) []
  match l with
  | [] => Val.zero
  | e :: t => t.foldl (fun a f => add32 a f.2) e.2

/-- Chunk results added: by the tree, or in order of arrival under a free index (R41). -/
def sumBy (arrival : Option Nat) (cs : List Val) : Val :=
  match arrival with
  | none => treeSum cs
  | some c => arrivalSum c cs

/-- The sum of one output element. -/
def dotSum (arrival : Option Nat) (fa fb : Fmt) (a b : List Elem) : Val := sumBy arrival (chunkResults fa fb a b)

/-- R29: the external scales applied once after the sum. -/
def scaleSum (sum : Val) (sa sb : Word) : Word := f32Mul (toF32 sum) (f32Mul sa sb)

end Sys2Proof.Machine
end

