-- ==== Sys2Proof/Machine/Chain.lean ====
section
/-! DEFINITION. Fused chains (04): the chain block and its checks (R86 to R91), activations, prologue stages, epilogue stages
over a row of output elements, MX quantisation, and the store. -/

namespace Sys2Proof.Machine

/-- A stage entry (R88), with its index in the block and its number for R44 (R89). -/
structure Stage where
  idx : Nat
  num : Nat
  op : Nat
  ifmt : Nat
  rnd : Nat
  srcEn : Bool
  src : Nat
  fn : Nat
  arg : Nat
  imm : Word
  deriving DecidableEq, Repr

/-- A stream descriptor (R87). -/
structure Stream where
  base : Nat
  rowStride : Nat
  batchStride : Nat
  shape : Nat
  fmt : Nat
  deriving DecidableEq, Repr

/-- A chain block (R86). -/
structure Chain where
  addr : Nat
  bytes : Nat
  nEpi : Nat
  nProA : Nat
  nProB : Nat
  nIn : Nat
  nOut : Nat
  chained : Bool
  matchSep : Bool
  feedA : Nat
  feedB : Nat
  matchFmt : Nat
  chainFmt : Nat
  landEn : Bool
  landOp : Bool
  semBase : Nat
  tiles : Nat
  landCores : Nat
  tileRows : Nat
  ins : List Stream
  outs : List Stream
  proA : List Stage
  proB : List Stage
  epi : List Stage
  deriving DecidableEq, Repr

/-- A chain that does nothing: CHAIN is 0. -/
def Chain.idle : Chain :=
  ⟨0, 0, 0, 0, 0, 0, 0, false, false, 0, 0, 0, 0, false, false, 0, 0, 0, 0, [], [], [], [], []⟩

/-- A chain block at an address where none can be read: it does nothing, and stands for the region that its first 16 bytes are (R581). -/
def Chain.unread (addr : Nat) : Chain := { Chain.idle with addr := addr }

/-- A chain block that was named and not read. -/
def Chain.missing (c : Chain) : Bool := c.addr ≠ 0 && c.bytes = 0

def stageOf (bs : List Byte) (idx num : Nat) : Stage :=
  let w := fld bs 0 4
  ⟨idx, num, bits w 7 0, bits w 9 8, bits w 11 10, bit w 12, bits w 15 13, bits w 23 16, bits w 31 24,
    BitVec.ofNat 32 (fld bs 4 4)⟩

def streamOf (bs : List Byte) : Stream :=
  ⟨fld bs 0 8, fld bs 8 6, fld bs 16 6, bits (fld bs 0x18 2) 11 8, fld bs 0x18 1⟩

/-- The chain block at an address; `plus` is 32 for the second product of a pair. DEDUCED (log entry 57). -/
def readChain (rd : Reader) (addr plus : Nat) : Except MemErr Chain :=
  match rd addr 16 with
  | .error e => .error e
  | .ok h =>
    let b0 := fld h 0 1
    let b1 := fld h 1 1
    let b2 := fld h 2 1
    let b3 := fld h 3 1
    let nEpi := bits b0 3 0
    let nB := bits b1 6 4
    let nA := bits b1 2 0
    let nOut := bits b2 5 4
    let nIn := bits b2 2 0
    let size := 16 + 32 * (nIn + nOut) + 8 * (nA + nB + nEpi)
    match rd addr size with
    | .error e => .error e
    | .ok bs =>
      let stm := fun (i : Nat) => streamOf (bs.drop (16 + 32 * i))
      let stg := fun (first n num : Nat) => (List.range n).map (fun i =>
        stageOf (bs.drop (16 + 32 * (nIn + nOut) + 8 * (first + i))) (first + i) (num + i + 1 + plus))
      let w := fld h 8 2
      .ok ⟨addr, size, nEpi, nA, nB, nIn, nOut, bit b3 1, bit b3 0, fld h 4 1, fld h 5 1, bits (fld h 6 1) 1 0, fld h 7 1,
        bit w 15, bit w 14, bits w 13 0, fld h 0xA 2, fld h 0xC 2, fld h 0xE 2,
        (List.range nIn).map stm, (List.range nOut).map (fun i => stm (nIn + i)),
        stg 0 nA 16, stg nA nB 24, stg (nA + nB) nEpi 0⟩

/-- Reserved bits of a chain block are not read; the next block of a pair follows on the next 32-byte boundary. -/
def Chain.next (c : Chain) : Nat := roundUp (c.addr + c.bytes) 32

/-- FP32, BF16 or FP16 by the 2-bit code of IFMT and MATCH_FMT. -/
def midFmt (n : Nat) : Fmt := if n = 1 then .bf16 else if n = 2 then .fp16 else .fp32

/-- The intermediate format of a stage: its IFMT, or MATCH_FMT under MATCH_SEP (R108). -/
def Chain.mid (c : Chain) (st : Stage) : Fmt := if c.matchSep then midFmt c.matchFmt else midFmt st.ifmt

/-! ### The checks of R91 -/

def Stage.isNorm (st : Stage) : Bool := st.op = 0x08 || st.op = 0x09

/-- DEFER mode: FUNC 1 of SOFTMAX, FUNC[1] of NORM. -/
def Stage.defers (st : Stage) : Bool := (st.op = 0x08 && st.fn = 1) || (st.op = 0x09 && bit st.fn 1)
def Stage.parks (st : Stage) : Bool := (st.op = 0x08 && st.fn = 0) || (st.op = 0x09 && !(bit st.fn 1))
def Stage.chains (st : Stage) : Bool := st.op = 0x08 && st.fn = 2
def Stage.pairs (st : Stage) : Bool := st.op = 0x04 && bit st.fn 7

/-- GATE in pair mode stands in the epilogue: half the columns are stored (R94). DEDUCED (log entry 59). -/
def Chain.pairMode (c : Chain) : Bool := c.epi.any Stage.pairs
def Chain.softChain (c : Chain) : Bool := c.epi.any Stage.chains

/-- Columns stored of N. -/
def Chain.stored (c : Chain) (n : Nat) : Nat := if c.pairMode then n / 2 else n

/-- The shapes a stage may read, and whether it must read a stream. `onB` is the B prologue. DEDUCED (log entry 56). -/
def Stage.shapes (st : Stage) (onB : Bool) : List Nat × Bool :=
  match st.op with
  | 0x82 => ([0x0, 0x8], false)
  | 0x84 => ([if onB then 0x4 else 0x3], true)
  | 0x85 => ([0x5], true)
  | 0x86 | 0x87 => ([0x7], true)
  | 0x01 | 0x06 => ([0x1], true)
  | 0x02 => ([0x2], true)
  | 0x04 => ([0x2], !st.pairs)
  | 0x05 => ([0x0], true)
  | _ => ([], false)

/-- The first stage of a list that breaks a rule, by its index. DEDUCED (log entry 56). -/
def firstBad (l : List Stage) (bad : Stage → Bool) : Option Nat := (l.find? bad).map (·.idx)

/-- ROPE's pairs count: rope_dim. -/
def Stage.ropeDim (st : Stage) : Nat := 2 * (st.arg + 1)

/-- What the checks need of the descriptor: output format, N and K, halo depth, the bytes of a parked stripe of the second product
of a pair, Lc of that product. -/
structure ChainUse where
  outFmt : Nat
  n : Nat
  k : Nat
  halo : Nat
  parked2 : Nat
  lc2 : Nat
  deriving DecidableEq, Repr

/-- Bytes of the 64-row stripe a PARK stage holds (R98): half the columns reach it behind a GATE in pair mode. -/
def Chain.parkBytes (c : Chain) (n : Nat) : Nat :=
  match c.epi.find? Stage.parks with
  | some st => 64 * (if (c.epi.takeWhile (fun x => !x.parks)).any Stage.pairs then n / 2 else n) * ((c.mid st).bits / 8)
  | none => 0

/-- Bytes of one row of the chained intermediate: of a key block of L_c positions with SOFTMAX in CHAIN mode, else of all of N
(R103). -/
def Chain.interBytes (c : Chain) (n lc2 : Nat) : Nat :=
  match fmtOf c.chainFmt with
  | some f => f.rowBytes (if c.softChain then lc2 else n)
  | none => 0

/-- Bytes the chain region must hold for a chained product, at its smallest (R103, R127). -/
def Chain.chainBytes (c : Chain) (u : ChainUse) : Nat :=
  if !c.chained then 0
  else (if c.softChain then 32 else 16) * c.interBytes u.n u.lc2 + u.parked2 + u.halo * c.interBytes u.n u.lc2

/-- A format with scales. -/
def scaledFmt (f : Nat) : Bool := f ≠ 0x00 && f ≠ 0x01 && f ≠ 0x02

/-- The first check of R91 that a block fails: detail and stage index (0xFF: the whole block). DEDUCED (log entries 55, 56). -/
def Chain.check (c : Chain) (u : ChainUse) : Option (Nat × Nat) :=
  let all := c.proA ++ c.proB ++ c.epi
  let at_ := fun (d : Nat) (i : Option Nat) => i.map (fun i => (d, i))
  let whole := fun (d : Nat) (b : Bool) => if b then some (d, 0xFF) else none
  let proOps := fun (b : Bool) (st : Stage) =>
    !(0x81 ≤ st.op && st.op ≤ 0x87) || (b && (st.op = 0x85 || st.op = 0x86 || st.op = 0x87))
      || (st.op = 0x84 && 6 < st.fn)
  let epiOps := fun (st : Stage) => !(0x01 ≤ st.op && st.op ≤ 0x0A) || (st.op = 0x03 && 6 < st.fn)
    || (st.op = 0x04 && 6 < st.fn % 128) || (st.op = 0x08 && 2 < st.fn)
  let operand := fun (f : Nat) => match fmtOf f with | some f => f.operand | none => false
  let mxOut := fun (f : Nat) => match fmtOf f with | some f => f.mx && f.storage | none => false
  let shapeBad := fun (onB : Bool) (st : Stage) =>
    let s := st.shapes onB
    if st.srcEn then
      match c.ins[st.src]? with
      | some x => !(s.1.contains x.shape) || ((x.shape = 5 || x.shape = 7) && x.fmt ≠ 0) || (fmtOf x.fmt).isNone
      | none => true
    else s.2
  let outBad := fun (st : Stage) => st.defers && !(match c.outs[0]? with | some x => x.shape = 7 && x.fmt = 0 | none => false)
  let after := fun (p : Stage → Bool) => match c.epi.dropWhile (fun st => !(p st)) with
    | _ :: nx :: _ => some nx.idx
    | _ => none
  let landFmtPro := if c.landOp then c.nProB else c.nProA
  at_ 1 (firstBad all (fun st => st.srcEn && c.nIn ≤ st.src)) <|> whole 1 (4 < c.nIn)
  <|> whole 2 (2 < c.nOut)
  <|> whole 3 (8 < c.nEpi || 4 < c.nProA || 4 < c.nProB)
  <|> at_ 4 (firstBad c.proA (proOps false)) <|> at_ 4 (firstBad c.proB (proOps true)) <|> at_ 4 (firstBad c.epi epiOps)
  <|> whole 5 (c.matchFmt = 3 || (c.nProA ≠ 0 && !(operand c.feedA)) || (c.nProB ≠ 0 && !(operand c.feedB))
      || (c.chained && !(operand c.chainFmt)))
  <|> at_ 5 (firstBad all (fun st => st.ifmt = 3 || 2 ≤ st.rnd
      || (st.op = 0x07 && (!(mxOut st.arg) || st.arg ≠ u.outFmt))))
  <|> at_ 6 ((after (fun st => st.op = 0x07)).map (fun i => i - 1))
  <|> at_ 6 (((c.epi.filter Stage.isNorm)[1]?).map (·.idx))
  <|> at_ 6 (after Stage.defers)
  <|> at_ 6 (if c.chained then none else firstBad c.epi Stage.chains)
  <|> at_ 7 (firstBad c.proA (shapeBad false)) <|> at_ 7 (firstBad c.proB (shapeBad true))
  <|> at_ 7 (firstBad c.epi (fun st => shapeBad false st || outBad st))
  <|> whole 7 ((c.ins ++ c.outs).any (fun x => (fmtOf x.fmt).isNone))
  <|> (if 0x200000 < c.parkBytes u.n then at_ 8 (firstBad c.epi Stage.parks) else none)
  <|> whole 9 (0x200000 < c.chainBytes u || 1024 < u.halo || (c.chained && 0x40000 < u.halo * c.interBytes u.n u.lc2))
  <|> at_ 0xA (firstBad c.proA (fun st => st.op = 0x85 && u.k < st.ropeDim))
  <|> whole 0xB (c.landEn && (c.tiles = 0 || 4096 < c.tiles || c.landCores = 0 || 48 < c.landCores
      || c.tileRows = 0 || c.tileRows % 16 ≠ 0 || landFmtPro ≠ 0))

/-! ### Values in stages -/

/-- A word rounded to an intermediate format and widened again. -/
def toMid (f : Fmt) (r : Rnd) (w : Word) : Word :=
  if f = .fp32 then (if (f32 w).isNan then f32Nan else w) else toF32 (f.decode (f.encode r (f32 w)))

def max32 (a b : Word) : Word := toF32 ((f32 a).max2 (f32 b))
def neg32 (a : Word) : Word := toF32 (f32 a).neg
def negInf : Word := 0xFF800000#32

/-- ex of R95. -/
def ex (x : Word) : Word := whiskExp2 (f32Mul x 0x3FB8AA3B#32)

/-- ex of R95 on the whisk of a command: `fl` is what its flush flag makes of a word that the whisk reads or writes (R49). -/
def exBy (fl : Word → Word) (x : Word) : Word := fl (whiskExp2 (fl (f32Mul (fl x) 0x3FB8AA3B#32)))

/-- tanh of R95. DEDUCED (log entry 95). -/
def tanhA (x : Word) : Word :=
  match f32 x with
  | .inf n => if n then 0xBF800000#32 else f32One
  | _ => f32Sub f32One (f32Mul 0x40000000#32 (whiskRcp (f32Add f32One (ex (f32Mul 0x40000000#32 x)))))

/-- A zero whose sign the spec leaves open: the limit of silu and gelu at −Inf. DEDUCED (log entry 55). -/
def openZero (x : Word) : Word := if (Config.whiskUlp 5 x).val % 2 = 1 then 0x80000000#32 else 0#32

/-- The activations of R95. The cubic term of gelu, written c * x * x * x, is evaluated left to right as R95 says of every operator:
((c * x) * x) * x. DEDUCED (log entry 95). -/
def act (f : Nat) (x : Word) : Word :=
  let sg := whiskRcp (f32Add f32One (ex (neg32 x)))
  match f, f32 x with
  | _, .nan => f32Nan
  | 0, _ => x
  | 1, _ => max32 x 0#32
  | 2, _ => f32Mul (max32 x 0#32) (max32 x 0#32)
  | 3, .inf n => if n then 0#32 else f32One
  | 3, _ => sg
  | 4, _ => tanhA x
  | 5, .inf n => if n then openZero x else x
  | 5, _ => f32Mul x sg
  | _, .inf n => if n then openZero x else x
  | _, _ =>
    let c := f32Mul (f32Mul (f32Mul 0x3D372713#32 x) x) x
    f32Mul (f32Mul 0x3F000000#32 x) (f32Add f32One (tanhA (f32Mul 0x3F4C422A#32 (f32Add x c))))

/-- FP32 values of a row of stream elements from row r of entry j; an MX stream's scales have no place, so they are free. -/
def Stream.vals (rd : Reader) (st : Stream) (j r n : Nat) : Except MemErr (List Word) :=
  match fmtOf st.fmt with
  | none => .ok (List.replicate n 0#32)
  | some f =>
    let a := st.base + j * st.batchStride + r * st.rowStride
    match rd a (f.rowBytes n) with
    | .error e => .error e
    | .ok bs => .ok ((List.range n).map (fun i =>
        let sc : Option Int := if f.mx then e8m0 (Config.blockScale bs (i / 32)).toNat else some 0
        toF32 (elemOf f (f.codeAt bs i) sc).1))

/-- The stream a stage names. DEDUCED (log entry 57). -/
def Chain.srcOf (c : Chain) (st : Stage) : Option Stream := if st.srcEn then c.ins[st.src]? else none

/-! ### MX quantisation (R96) -/

/-- emax of R96. -/
def Fmt.emax : Fmt → Int
  | .mxE2M1 | .mxE2M3 => 2
  | .mxE3M2 => 4
  | .mxE4M3 => 8
  | .mxE5M2 => 15
  | _ => 0

/-- A magnitude rounded to an element's grid, without a limit above. -/
def Fmt.roundMag (f : Fmt) (r : Rnd) (x : Rat) : Rat :=
  match f.enc with
  | some e => e.roundMag r x
  | none => (r.int (x / pow2 f.step) : Rat) * pow2 f.step

/-- The magnitude that takes part in amax: infinities and NaN do not. -/
def finMag : Val → Rat
  | .fin _ m => m
  | _ => 0

/-- One block: its scale byte and the codes of its elements. DEDUCED (log entry 58). -/
def quantBlock (f : Fmt) (es : List (Val × Rnd)) : Byte × List Nat :=
  let amax := es.foldl (fun a e => max a (finMag e.1)) 0
  let nan := es.any (fun e => e.1.isNan)
  let r := match es.find? (fun e => finMag e.1 = amax) with | some e => e.2 | none => .rne
  let e0 := expOf amax - f.emax
  let e := if amax = 0 then -127
    else if f.maxFinite < f.roundMag r (amax / pow2 e0) then e0 + 1 else e0
  let b := (min 254 (max 0 (e + 127))).toNat
  let codes := es.map (fun x => if x.1.isNan && !f.hasNan then Config.nanCode f.bits % 2 ^ f.bits else f.encode x.2 (x.1.scale (127 - (b : Int))))
  (if nan && !f.hasNan then 0xFF#8 else BitVec.ofNat 8 b, codes)

/-- A row quantised in blocks of 32: scale bytes and codes. -/
def quantMx (f : Fmt) (es : List (Val × Rnd)) : List Byte × List Nat :=
  let l := (runsOf 32 (es.length + 1) es).map (quantBlock f)
  (l.map (·.1), l.flatMap (·.2))

/-! ### Prologues (R92, R93, R101) -/

/-- What a stage needs to know of where it stands: reader, seed, pointer-list entry (which places streams, R124), entry of R44's
linear index (an ATTEND has one for each head of its scores), position of row 0, the number of rows of the logical operand or output
and the number of its columns. -/
structure Where where
  rd : Reader
  seed : Dword
  batch : Nat
  entry : Nat
  pos0 : Nat
  rows : Nat
  cols : Nat

/-- The linear index of R44. -/
def Where.ix (w : Where) (r c : Nat) : Nat := (w.entry * w.rows + r) * w.cols + c

/-- A rotated pair; `fl` is the flush of the whisk where it rotates (R49), nothing in a prologue. -/
def rotPair (fl : Word → Word) (c s : Word) (x y : Word) : Word × Word :=
  (fl (f32Sub (fl (f32Mul x c)) (fl (f32Mul y s))), fl (f32Add (fl (f32Mul x s)) (fl (f32Mul y c))))

/-- NaNs made in one value of a rotated pair: two products and their difference or sum. -/
def rotNans (fl : Word → Word) (c s x y : Word) (first : Bool) : Nat :=
  let made := fun (r a b : Word) => b2n ((f32 r).isNan && !((f32 a).isNan || (f32 b).isNan))
  let p := fl (f32Mul x (if first then c else s))
  let q := fl (f32Mul y (if first then s else c))
  made p x (if first then c else s) + made q y (if first then s else c) + made (if first then f32Sub p q else f32Add p q) p q

/-- The rotation of a row under the table row of its position (R93). -/
def rope (fl : Word → Word) (half : Bool) (dim : Nat) (tab : List Word) (row : List Word) : List Word :=
  (List.range row.length).map (fun i =>
    let x := nth 0#32 row i
    if dim ≤ i then x
    else
      let h := dim / 2
      let j := if half then i % h else i / 2
      let first := if half then decide (i < h) else i % 2 = 0
      let a := if half then j else 2 * j
      let b := if half then j + h else 2 * j + 1
      let p := rotPair fl (nth 0#32 tab (2 * j)) (nth 0#32 tab (2 * j + 1)) (nth 0#32 row a) (nth 0#32 row b)
      if first then p.1 else p.2)

/-- NaNs that `rope` makes of a row. -/
def ropeNans (fl : Word → Word) (half : Bool) (dim : Nat) (tab : List Word) (row : List Word) : Nat :=
  ((List.range (min dim row.length)).map (fun i =>
    let h := dim / 2
    let j := if half then i % h else i / 2
    let first := if half then decide (i < h) else i % 2 = 0
    let a := if half then j else 2 * j
    let b := if half then j + h else 2 * j + 1
    rotNans fl (nth 0#32 tab (2 * j)) (nth 0#32 tab (2 * j + 1)) (nth 0#32 row a) (nth 0#32 row b) first)).sum

/-- Row normalisation from its two tree sums (R98). -/
def normRow (layer : Bool) (n : Nat) (eps t1 t2 : Word) (row : List Word) : List Word :=
  let inv := f32OfRat (1 / (n : Rat))
  if layer then
    let mu := f32Mul t1 inv
    let var := max32 (f32Sub (f32Mul t2 inv) (f32Mul mu mu)) 0#32
    let r := whiskRsqrt (f32Add var eps)
    row.map (fun x => f32Mul (f32Sub x mu) r)
  else
    let r := whiskRsqrt (f32Add (f32Mul t2 inv) eps)
    row.map (fun x => f32Mul x r)

/-- A NaN stands among the statistics of a row (R102). -/
def hasNan (l : List Word) : Bool := l.any (fun x => (f32 x).isNan)

/-- The tree over FP32 words. -/
def treeWords (l : List Word) : Word := toF32 (treeSum (l.map f32))

/-- The table row by which ROPE turns row r: at the row's position, from the POS stream where there is one (R93). -/
def ropeRow (c : Chain) (w : Where) (st : Stage) (x : Stream) (r : Nat) : Except MemErr (List Word) :=
  match (match c.ins.find? (fun (y : Stream) => y.shape = 6) with
      | none => Except.ok (r + w.pos0)
      | some y => match w.rd (y.base + w.batch * y.batchStride + r * y.rowStride) 4 with
        | .ok b => .ok (leNat b)
        | .error e => .error e) with
  | .error e => .error e
  | .ok p => x.vals w.rd w.batch p st.ropeDim

/-- A prologue stage on row r of an operand (R92). Answers the row, and whether it is an empty row (R102). DEDUCED (log entry 55). -/
def proStage (c : Chain) (w : Where) (st : Stage) (r : Nat) (row : List Word) : Except MemErr (List Word × Bool) :=
  let k := row.length
  match st.op, c.srcOf st with
  | 0x82, none => .ok (row.map (fun v => f32Mul v st.imm), false)
  | 0x82, some x =>
    if x.shape = 0x8 then
      match x.vals w.rd w.batch 0 k with
      | .error e => .error e
      | .ok s => .ok ((row.zip s).map (fun e => f32Mul e.1 e.2), false)
    else
      match x.vals w.rd w.batch r 1 with
      | .error e => .error e
      | .ok s => .ok (row.map (fun v => f32Mul v (nth 0#32 s 0)), false)
  | 0x84, some x =>
    match x.vals w.rd w.batch r k with
    | .error e => .error e
    | .ok g => .ok ((row.zip g).map (fun e => f32Mul e.1 (act st.fn e.2)), false)
  | 0x85, some x =>
    match ropeRow c w st x r with
    | .error e => .error e
    | .ok t => .ok (rope id (bit st.fn 0) st.ropeDim t row, false)
  | 0x86, some x =>
    match x.vals w.rd w.batch r (2 * ceilDiv k 128) with
    | .error e => .error e
    | .ok s =>
      if hasNan s then .ok (row.map (fun _ => f32Nan), false) else
      let t1 := treeWords ((List.range (ceilDiv k 128)).map (fun i => nth 0#32 s (2 * i)))
      let t2 := treeWords ((List.range (ceilDiv k 128)).map (fun i => nth 0#32 s (2 * i + 1)))
      .ok (normRow (bit st.fn 0) k st.imm t1 t2 row, false)
  | 0x87, some x =>
    match x.vals w.rd w.batch r (2 * ceilDiv k 128) with
    | .error e => .error e
    | .ok s =>
      if hasNan s then .ok (row.map (fun _ => f32Nan), false) else
      let ms := (List.range (ceilDiv k 128)).map (fun i => nth 0#32 s (2 * i))
      let mx := ms.foldl max32 negInf
      if mx = negInf then .ok (row.map (fun _ => 0#32), true)
      else
        let l := treeWords ((List.range (ceilDiv k 128)).map (fun i =>
          let m := nth 0#32 s (2 * i)
          if m = negInf then 0#32 else f32Mul (nth 0#32 s (2 * i + 1)) (ex (f32Sub m mx))))
        .ok (row.map (fun v => f32Mul (ex (f32Sub (f32Mul v st.imm) mx)) (whiskRcp l)), false)
  | _, _ => .ok (row, false)

/-- The prologue stages of a row (R85, order 1). `deq` is the row of stored elements times all their scales, each product rounded
once: the result of DEQUANT. -/
def proStages (c : Chain) (w : Where) (r : Nat) (deq : List Word) : List Stage → List Word → Bool → Except MemErr (List Word × Bool)
  | [], row, e => .ok (row, e)
  | st :: rest, row, e =>
    match if st.op = 0x81 then .ok (deq, false) else proStage c w st r row with
    | .error x => .error x
    | .ok (v, e2) =>
      let f := c.mid st
      proStages c w r deq rest (v.zipIdx.map (fun (x : Word × Nat) => toMid f (rndOf st.rnd w.seed (w.ix r x.2) st.num) x.1)) (e || e2)

/-- Values of a row fed in a format: rounded by the last stage's RND, with block scales of R96 for an MX format. -/
def feed (f : Fmt) (es : List (Val × Rnd)) : List Elem :=
  if f.mx then
    let q := quantMx f es
    q.2.zipIdx.map (fun (e : Nat × Nat) => elemOf f e.1 (e8m0 (nth 0#8 q.1 (e.2 / 32)).toNat))
  else es.map (fun e => elemOf f (f.encode e.2 e.1) (some 0))

/-- A row of stored elements taken to its feeder: as it is, or through the prologue and rounded to the feed format. `mx` tells
whether its elements have block scales. Answers its elements, its external scale, and whether the row is empty. DEDUCED (log entry 55). -/
def fedRow (c : Chain) (w : Where) (stages : List Stage) (feedFmt : Nat) (mx : Bool) (es : List Elem) (sc : Word) (r : Nat) :
    Except MemErr (List Elem × Word × Bool) :=
  match stages, fmtOf feedFmt with
  | [], _ => .ok (es, sc, false)
  | _, none => .ok (es, sc, false)
  | st :: rest, some f =>
    let deq := es.map (fun (e : Elem) => toF32 (e.1.mul (f32 sc)))
    let first := if st.op ≠ 0x81 && (mx || sc ≠ f32One) then deq.map Config.undequantized else deq
    match proStages c w r deq (st :: rest) first false with
    | .error e => .error e
    | .ok (v, empty) =>
      let last := (rest.getLast?).getD st
      .ok (feed f (v.zipIdx.map (fun (x : Word × Nat) => (f32 x.1, rndOf last.rnd w.seed (w.ix r x.2) last.num))), f32One, empty)

/-- A row of an operand in memory at its feeder. DEDUCED (log entry 55). -/
def Opnd.fed (c : Chain) (w : Where) (stages : List Stage) (feedFmt : Nat) (o : Opnd) (r k : Nat) :
    Except MemErr (List Elem × Word × Bool) :=
  match o.row w.rd r k, o.extScale w.rd r with
  | .error e, _ => .error e
  | _, .error e => .error e
  | .ok es, .ok sc => fedRow c w stages feedFmt o.fmt.mx es sc r

/-- The format an operand has at its feeder. -/
def fedFmt (f : Fmt) (stages : List Stage) (feedFmt : Nat) : Fmt :=
  if stages = [] then f else (fmtOf feedFmt).getD f

/-! ### Epilogues (R94, R98, R99) -/

/-- A row on its way through the epilogue: its values, the DEFER records, and whether it is an empty row. -/
structure Row where
  vals : List Word
  stats : List (Word × Word)
  empty : Bool
  deriving DecidableEq, Repr

/-- DEFER records of a row: one for each segment of 128 columns (R99). A segment whose scores are all −Inf has no finite
difference to sum; its second value is +0, the sum of R102's empty row. DEDUCED (log entry 95). -/
def deferStats (st : Stage) (row : List Word) : List (Word × Word) :=
  (runsOf 128 (row.length + 1) row).map (fun (seg : List Word) =>
    if st.op = 0x09 then
      (toF32 (exactSum (seg.map f32)), toF32 (exactSum (seg.map (fun x => (f32 x).mul (f32 x)))))
    else
      let t := seg.map (fun x => f32Mul x st.imm)
      let m := t.foldl max32 negInf
      (m, toF32 (exactSum (t.map (fun x => if x = negInf then Val.zero else f32 (ex (f32Sub x m)))))))

/-- Segment sums of a row combined by the tree. -/
def segTree (l : List Val) : Word := toF32 (treeSum ((runsOf 128 (l.length + 1) l).map exactSum))

/-- SOFTMAX of a parked row (R98, R102). -/
def softmaxRow (tau : Word) (row : List Word) : List Word × Bool :=
  let t := row.map (fun x => f32Mul x tau)
  let mx := t.foldl max32 negInf
  if mx = negInf then (row.map (fun _ => 0#32), row ≠ [])
  else
    let p := t.map (fun x => ex (f32Sub x mx))
    let l := segTree (p.map f32)
    (p.map (fun x => f32Mul x (whiskRcp l)), false)

/-- An epilogue stage on a row of output row m (R94). DEDUCED (log entries 58, 95). -/
def epiStage (c : Chain) (w : Where) (st : Stage) (m : Nat) (row : Row) : Except MemErr Row :=
  let n := row.vals.length
  let two := fun (x : Stream) (r : Nat) (g : Word → Word → Word) =>
    match x.vals w.rd w.batch r n with
    | .error e => .error e
    | .ok s => .ok { row with vals := (row.vals.zip s).map (fun e => g e.1 e.2) }
  match st.op, c.srcOf st with
  | 0x01, some x => two x 0 f32Add
  | 0x02, some x => two x m f32Add
  | 0x03, _ => .ok { row with vals := row.vals.map (act st.fn) }
  | 0x04, src =>
    if st.pairs then
      let h := w.cols / 2
      .ok { row with vals := ((row.vals.take h).zip (row.vals.drop h)).map (fun e => f32Mul e.1 (act (st.fn % 128) e.2)) }
    else match src with
      | some x => two x m (fun v g => f32Mul v (act st.fn g))
      | none => .ok row
  | 0x05, some x =>
    match x.vals w.rd w.batch m 1 with
    | .error e => .error e
    | .ok s => .ok { row with vals := row.vals.map (fun v => f32Mul v (nth 0#32 s 0)) }
  | 0x06, some x => two x 0 f32Mul
  | 0x08, _ =>
    if st.fn = 0 then
      let park := row.vals.zipIdx.map (fun (x : Word × Nat) => toMid (c.mid st) (rndOf st.rnd w.seed (w.ix m x.2) st.num) x.1)
      let r := softmaxRow st.imm park
      .ok { row with vals := r.1, empty := row.empty || r.2 }
    else if st.fn = 1 then .ok { row with stats := deferStats st row.vals }
    else .ok row
  | 0x09, _ =>
    if bit st.fn 1 then .ok { row with stats := deferStats st row.vals }
    else
      let park := row.vals.zipIdx.map (fun (x : Word × Nat) => toMid (c.mid st) (rndOf st.rnd w.seed (w.ix m x.2) st.num) x.1)
      let t1 := segTree (park.map f32)
      let t2 := segTree (park.map (fun x => (f32 x).mul (f32 x)))
      .ok { row with vals := normRow (bit st.fn 0) park.length st.imm t1 t2 park }
  | _, _ => .ok row

/-- The epilogue stages in order; each rounds to its intermediate format, but for QUANT_MX, a stage in DEFER mode and SOFTMAX in
CHAIN mode, which hand their row on. -/
def epiStages (c : Chain) (w : Where) (m : Nat) : List Stage → Row → Except MemErr Row
  | [], row => .ok row
  | st :: rest, row =>
    match epiStage c w st m row with
    | .error e => .error e
    | .ok r =>
      let r := if st.op = 0x07 || st.defers || st.chains then r
        else { r with vals := r.vals.zipIdx.map (fun (x : Word × Nat) => toMid (c.mid st) (rndOf st.rnd w.seed (w.ix m x.2) st.num) x.1) }
      epiStages c w m rest r

/-- Sums that enter stage 1: rounded to MATCH_FMT under MATCH_SEP (R108), by the header's RND; also where stage 1 is SOFTMAX in
CHAIN mode, since R108 says so of every sum and leaves R104's own steps alone. DEDUCED (log entry 57). -/
def Chain.enter (c : Chain) (w : Where) (rnd num m : Nat) (row : List Word) : List Word :=
  if c.matchSep && c.epi ≠ [] then
    row.zipIdx.map (fun (x : Word × Nat) => toMid (midFmt c.matchFmt) (rndOf rnd w.seed (w.ix m x.2) num) x.1)
  else row

/-- A stored row: its bytes, its scale bytes for an MX format, and the values that a reader finds there. -/
structure StoredRow where
  bytes : List Byte
  scales : List Byte
  vals : List Word
  deriving DecidableEq, Repr

/-- The rounding mode and stage number of the store: those of a QUANT_MX stage where one stands, else the header's RND and `num`. -/
def Chain.storeBy (c : Chain) (rnd num : Nat) : Nat × Nat :=
  match c.epi.find? (fun (st : Stage) => st.op = 0x07) with
  | some st => (st.rnd, st.num)
  | none => (rnd, num)

/-- The store (R42, R43, R96, R579): by the QUANT_MX stage where one stands, else by the header's RND as stage `num`. DEDUCED (log entry 58). -/
def storeRow (c : Chain) (w : Where) (f : Fmt) (rnd num m : Nat) (row : List Word) : StoredRow :=
  let q := c.storeBy rnd num
  let es := row.zipIdx.map (fun (x : Word × Nat) => (f32 x.1, rndOf q.1 w.seed (w.ix m x.2) q.2))
  if f.mx then
    let r := quantMx f es
    ⟨f.pack r.2, r.1, r.2.zipIdx.map (fun (e : Nat × Nat) => toF32 (elemOf f e.1 (e8m0 (nth 0#8 r.1 (e.2 / 32)).toNat)).1)⟩
  else
    let cs := es.map (fun e => f.encode e.2 e.1)
    ⟨f.pack cs, [], cs.map (fun x => toF32 (f.decode x))⟩

/-- DEFER records take the stored values under MATCH_SEP (R99, R108). -/
def Chain.finalStats (c : Chain) (r : Row) (stored : StoredRow) : List (Word × Word) :=
  match c.epi.find? Stage.defers with
  | some st => if c.matchSep then deferStats st stored.vals else r.stats
  | none => []

/-- A SEG_STATS record row as bytes. -/
def statBytes (l : List (Word × Word)) : List Byte := l.flatMap (fun e => leBytes 4 e.1.toNat ++ leBytes 4 e.2.toNat)

/-- 1 where an operation of the whisk made a NaN of operands that held none (R81). -/
def made (r : Word) (ops : List Word) : Nat := b2n ((f32 r).isNan && !(hasNan ops))

/-- The key of the unit that computes row m of entry j. -/
def unitKey (j m : Nat) : Nat := 2 ^ 32 * j + m

/-- Bytes to be written at an address, by the unit with a key (`unitKey`). -/
structure Piece where
  row : Nat
  addr : Nat
  bytes : List Byte
  deriving DecidableEq, Repr

/-- The records of row m of entry j at the side-output stream (R99): the first of two, since a DEFER stage names none.
DEDUCED (log entry 57). DEDUCED (log entry 57). -/
def Chain.statPieces (c : Chain) (j m : Nat) (stats : List (Word × Word)) : List Piece :=
  match stats, c.outs[0]? with
  | [], _ | _, none => []
  | l, some x => [⟨unitKey j m, x.base + j * x.batchStride + m * x.rowStride, statBytes l⟩]

end Sys2Proof.Machine
end

