-- ==== Sys2Proof/Machine/Product.lean ====
section
/-! DEFINITION. What PRODUCT and ATTEND compute (R103 to R105, R122 to R125, R143 to R145, R299): the bytes each writes, from
the memory it reads. -/

namespace Sys2Proof.Machine

/-- A test or a value for each element, the first error ending the list. -/
def mapE {ε α β : Type} (f : α → Except ε β) : List α → Except ε (List β)
  | [] => .ok []
  | a :: t =>
    match f a with
    | .error e => .error e
    | .ok b => match mapE f t with
      | .error e => .error e
      | .ok l => .ok (b :: l)

/-- What a command computes with: a reader for the unit of each output row, the same reader held to the partition's windows
(for what no check at acceptance covers), seed, the header's RND, the free index of an arrival order, the whisk flush flag. -/
structure Run where
  rdOf : Nat → Reader
  chk : Nat → Reader
  seed : Dword
  rnd : Nat
  arrival : Option Nat
  ftz : Bool

/-- What a command ends with when it commits: bytes written, COUNT and FLAGS of its completion (R161, R162), its extended
record (empty where the opcode has none), and counts for its engines' pages. -/
structure Out where
  pieces : List Piece
  count : Nat
  flags : Nat
  info : List Byte
  stats : List Nat
  deriving DecidableEq, Repr

/-- The status and DETAIL a command ends with when it cannot read or write memory (R158): DETAIL is 0; the address stands above its
8 bits, for the event of the engine's page. -/
def memFail : MemErr → Nat × Nat
  | .access a => (0x08, 256 * a)
  | .data a => (0x0D, 256 * a)

/-- A memory result with the status of its error. -/
def orFail {α : Type} : Except MemErr α → Except (Nat × Nat) α
  | .error e => .error (memFail e)
  | .ok a => .ok a

/-! ### Descriptors -/

/-- The PRODUCT descriptor (R143). -/
structure ProdDesc where
  m : Nat
  n : Nat
  k : Nat
  fmtA : Nat
  fmtB : Nat
  fmtC : Nat
  plist : Bool
  aBase : Nat
  bBase : Nat
  cBase : Nat
  strA : Nat
  strB : Nat
  strC : Nat
  count : Nat
  scaleA : Nat
  scaleB : Nat
  chain : Nat
  chunk0 : Nat
  ctotal : Nat
  haloH : Nat
  haloSem : Nat
  conv : Nat
  deriving DecidableEq, Repr

def prodOf (b : List Byte) : ProdDesc :=
  ⟨fld b 0 4, fld b 4 4, fld b 8 4, fld b 0xC 1, fld b 0xD 1, fld b 0xE 1, bit (fld b 0xF 1) 0, fld b 0x10 8, fld b 0x18 8,
    fld b 0x20 8, fld b 0x28 4, fld b 0x2C 4, fld b 0x30 4, fld b 0x34 4, fld b 0x38 8, fld b 0x40 8, fld b 0x48 8,
    fld b 0x50 4, fld b 0x54 4, fld b 0x58 2, fld b 0x5A 2, fld b 0x60 8⟩

/-- The ATTEND descriptor (R145). -/
structure AttDesc where
  mode : Nat
  fmtQ : Nat
  fmtKV : Nat
  fmtO : Nat
  hq : Nat
  hkv : Nat
  dim : Nat
  mask : Nat
  paged : Bool
  unnorm : Bool
  window : Nat
  qBase : Nat
  kBase : Nat
  vBase : Nat
  oBase : Nat
  stats : Nat
  tau : Word
  count : Nat
  plist : Nat
  chain : Nat
  rows : Nat
  keys : Nat
  haloSem : Nat
  deriving DecidableEq, Repr

def attOf (b : List Byte) : AttDesc :=
  ⟨fld b 0 1, fld b 1 1, fld b 2 1, fld b 3 1, fld b 4 2, fld b 6 2, fld b 8 2, fld b 0xA 1, bit (fld b 0xB 1) 1,
    bit (fld b 0xB 1) 0, fld b 0xC 4, fld b 0x10 8, fld b 0x18 8, fld b 0x20 8, fld b 0x28 8, fld b 0x30 8,
    BitVec.ofNat 32 (fld b 0x38 4), fld b 0x3C 4, fld b 0x40 8, fld b 0x48 8, fld b 0x50 4, fld b 0x54 4, fld b 0x58 2⟩

/-- A pointer-list entry (R122). -/
structure Entry where
  a : Nat
  b : Nat
  c : Nat
  len : Nat
  dim : Nat
  pos : Nat
  deriving DecidableEq, Repr

def entryOf (b : List Byte) : Entry :=
  ⟨fld b 0 8, fld b 8 8, fld b 16 8, fld b 24 4, bits (fld b 28 4) 31 30, bits (fld b 28 4) 29 0⟩

/-- A dimension under an entry's actual length (R123, R125): 1 M, 2 N, 3 K. -/
def Entry.lim (e : Entry) (dim v : Nat) : Nat := if e.dim = dim then min v e.len else v

def readEntries (rd : Reader) (base count : Nat) : Except MemErr (List Entry) :=
  mapE (fun i => match rd (base + 32 * i) 32 with
    | .error e => .error e
    | .ok b => .ok (entryOf b)) (List.range count)

/-- The entries of a PRODUCT: its pointer list, or itself. -/
def ProdDesc.entries (d : ProdDesc) (rd : Reader) : Except MemErr (List Entry) :=
  if d.plist then readEntries rd d.aBase d.count else .ok [⟨d.aBase, d.bBase, d.cBase, 0, 0, 0⟩]

def fmtD (n : Nat) : Fmt := (fmtOf n).getD .bf16

/-- Operands A and B of entry j, with their scale arrays (R580). -/
def ProdDesc.opA (d : ProdDesc) (e : Entry) (j : Nat) : Opnd :=
  let o : Opnd := ⟨fmtD d.fmtA, e.a, d.strA, d.m, d.k, d.scaleA⟩
  if d.scaleA = 0 then o else { o with scale := d.scaleA + j * roundUp o.scaleBytes 64 }

def ProdDesc.opB (d : ProdDesc) (e : Entry) (j : Nat) : Opnd :=
  let o : Opnd := ⟨fmtD d.fmtB, e.b, d.strB, d.n, d.k, d.scaleB⟩
  if d.scaleB = 0 then o else { o with scale := d.scaleB + j * roundUp o.scaleBytes 64 }

/-- The chain block or blocks of a command: the first, and the second of a pair. -/
def readChains (rd : Reader) (addr : Nat) (pair : Bool) : Except MemErr (Chain × Chain) :=
  if addr = 0 then .ok (Chain.idle, Chain.idle)
  else match readChain rd addr 0 with
    | .error e => .error e
    | .ok c =>
      if pair && c.chained then
        match readChain rd c.next 32 with
        | .error e => .error e
        | .ok c2 => .ok (c, c2)
      else .ok (c, Chain.idle)

/-! ### Outputs in memory -/

/-- Where the scale array of an MX output begins (R579). -/
def scaleBase (base rows stride rowBytes : Nat) : Nat :=
  roundUp (base + (rows - 1) * stride + rowBytes) 64

/-- The last bytes of a row whose columns beyond n are not written keep those columns' bits. -/
def keepTail (f : Fmt) (n : Nat) (new old : List Byte) : List Byte :=
  let g := if f.bits = 4 then 1 else 3
  let per := if f.bits = 4 then 2 else 4
  if (f.bits = 4 || f.bits = 6) && n % per ≠ 0 then
    let off := n / per * g
    let b := n % per * f.bits
    new.take off ++ leBytes g (fld new off g % 2 ^ b + fld old off g / 2 ^ b * 2 ^ b)
  else new

/-- The pieces of one stored row: elements, scale bytes, and DEFER records, of the unit with key `key`. -/
def rowPieces (key : Nat) (rd : Reader) (c : Chain) (f : Fmt) (j m base stride rows total : Nat) (s : StoredRow)
    (stats : List (Word × Word)) (n : Nat) : Except MemErr (List Piece) :=
  let a := base + m * stride
  let old := if n < total then rd a (f.rowBytes n) else .ok []
  match old with
  | .error e => .error e
  | .ok o =>
    let data := if n < total then keepTail f n s.bytes o else s.bytes
    let sc := if s.scales = [] then []
      else [(⟨key, scaleBase base rows stride (f.rowBytes total) + m * ceilDiv total 32, s.scales⟩ : Piece)]
    .ok ((⟨key, a, data⟩ : Piece) :: sc ++ c.statPieces j m stats)

/-! ### One product -/

/-- The fed rows of B for output row m's unit. -/
def ProdDesc.rowsB (x : Run) (d : ProdDesc) (c : Chain) (e : Entry) (j m : Nat) : Except MemErr (List (List Elem × Word × Bool)) :=
  let k := e.lim 3 d.k
  let w : Where := ⟨x.rdOf (unitKey j m), x.seed, j, j, e.pos, d.n, d.k⟩
  mapE (fun n => (d.opB e j).fed c w c.proB c.feedB n k) (List.range (e.lim 2 d.n))

/-- Row m of the sums of a product after R29: its columns, and whether its A row is empty. -/
def ProdDesc.sums (x : Run) (d : ProdDesc) (c : Chain) (e : Entry) (j m : Nat) (a : List Elem × Word × Bool) (fa : Fmt) :
    Except MemErr (List Word × Bool) :=
  let fb := fedFmt (fmtD d.fmtB) c.proB c.feedB
  match d.rowsB x c e j m with
  | .error err => .error err
  | .ok bs => .ok (bs.map (fun b => scaleSum (dotSum x.arrival fa fb a.1 b.1) a.2.1 b.2.1), a.2.2)

/-- Row m of operand A at its feeder. -/
def ProdDesc.rowA (x : Run) (d : ProdDesc) (c : Chain) (e : Entry) (j m : Nat) : Except MemErr (List Elem × Word × Bool) :=
  (d.opA e j).fed c ⟨x.rdOf (unitKey j m), x.seed, j, j, e.pos, d.m, d.k⟩ c.proA c.feedA m (e.lim 3 d.k)

/-- Row m of the sums of an entry, from A in memory. -/
def ProdDesc.row (x : Run) (d : ProdDesc) (c : Chain) (e : Entry) (j m : Nat) : Except MemErr (List Word × Bool) :=
  match d.rowA x c e j m with
  | .error err => .error err
  | .ok a => d.sums x c e j m a (fedFmt (fmtD d.fmtA) c.proA c.feedA)

/-- A row of sums taken through the epilogue and stored. -/
def ProdDesc.finish (x : Run) (d : ProdDesc) (c : Chain) (e : Entry) (j m num : Nat) (sums : List Word) (empty : Bool) :
    Except MemErr (List Piece × Bool) :=
  let w : Where := ⟨x.rdOf (unitKey j m), x.seed, j, j, e.pos, d.m, d.n⟩
  match epiStages c w m c.epi ⟨c.enter w x.rnd num m sums, [], empty⟩ with
  | .error err => .error err
  | .ok r =>
    let f := fmtD d.fmtC
    let s := storeRow c w f x.rnd num m r.vals
    match rowPieces (unitKey j m) (x.rdOf (unitKey j m)) c f j m e.c d.strC d.m (c.stored d.n) s (c.finalStats r s) r.vals.length with
    | .error err => .error err
    | .ok l => .ok (l, r.empty)

/-- The pieces of rows, with the count of empty rows. -/
def rowsWork (f : Nat → Except MemErr (List Piece × Bool)) (rows : Nat) : Except MemErr (List Piece × Nat) :=
  match mapE f (List.range rows) with
  | .error e => .error e
  | .ok l => .ok (l.flatMap (·.1), (l.filter (·.2)).length)

/-- An entry of a product without a pair. -/
def ProdDesc.plain (x : Run) (d : ProdDesc) (c : Chain) (e : Entry) (j : Nat) : Except MemErr (List Piece × Nat) :=
  if e.lim 2 d.n = 0 then .ok ([], 0)
  else rowsWork (fun m => match d.row x c e j m with
    | .error err => .error err
    | .ok (v, empty) => d.finish x c e j m 0 v empty) (e.lim 1 d.m)

/-! ### Split products (R36, R144) -/

/-- Chunks of the range of a split product. -/
def ProdDesc.range (d : ProdDesc) : Nat × Nat :=
  (d.chunk0, d.chunk0 + ceilDiv d.k (chunkLen (fmtD d.fmtA) (fmtD d.fmtB)))

/-- An entry of a split product: its node buffers. FP8 and INT8 scales are not applied (R144). -/
def ProdDesc.split (x : Run) (d : ProdDesc) (e : Entry) (j : Nat) : Except MemErr (List Piece × Nat) :=
  let d : ProdDesc := { d with
    scaleA := if (fmtD d.fmtA).mx then d.scaleA else 0
    scaleB := if (fmtD d.fmtB).mx then d.scaleB else 0 }
  let fa := fmtD d.fmtA
  let fb := fmtD d.fmtB
  let r := d.range
  let nodes := nodesOf r.2 d.ctotal (r.2 - r.1 + 1) r.1
  let size := 16 + 4 * d.m * d.n
  let heads := nodes.zipIdx.map (fun (nd : (Nat × Nat) × Nat) =>
    (⟨unitKey j 0, e.c + nd.2 * size, leBytes 4 d.ctotal ++ leBytes 2 nd.1.1 ++ leBytes 2 0 ++ leBytes 4 nd.1.2 ++ leBytes 4 0⟩ : Piece))
  let cols := e.lim 2 d.n
  let row := fun (m : Nat) =>
    match d.rowA x Chain.idle e j m, d.rowsB x Chain.idle e j m with
    | .error err, _ => .error err
    | _, .error err => .error err
    | .ok a, .ok bs =>
      let cs := bs.map (fun b =>
        let l := chunkResults fa fb a.1 b.1
        l ++ List.replicate (r.2 - r.1 - l.length) Val.zero)
      .ok ((nodes.zipIdx.map (fun (nd : (Nat × Nat) × Nat) =>
        let sp := nodeSpan d.ctotal nd.1
        (⟨unitKey j m, e.c + nd.2 * size + 16 + 4 * d.n * m,
          cs.flatMap (fun l => leBytes 4 (toF32 (sumBy x.arrival ((l.drop (sp.1 - r.1)).take (sp.2 - sp.1)))).toNat)⟩ : Piece))), false)
  if cols = 0 || e.lim 1 d.m = 0 then .ok ([], 0)
  else match rowsWork row (e.lim 1 d.m) with
    | .error err => .error err
    | .ok (ps, n) => .ok (heads ++ ps, n)

/-! ### Chained pairs (R103, R104, R127) -/

/-- An FP32 word read or written by the whisk (R49). -/
def Run.fl (x : Run) (w : Word) : Word := flush x.ftz w

/-- A word that the whisk reads from an element of a format: an FP16 subnormal is normal in FP32, and flushed all the same (R49). -/
def Run.flOf (x : Run) (f : Fmt) (w : Word) : Word :=
  if f = .fp16 then flushFrom x.ftz encFP16 w else x.fl w

/-- The state of the recurrence of R104, and the NaNs made in it (R81). -/
structure Soft where
  mx : Word
  l : Word
  o : List Word
  nans : Nat
  deriving DecidableEq, Repr

/-- One chunk of the recurrence: scores s (masked ones −Inf), and for each output column the chunk's elements of the second
operand. `quant` rounds a chunk of p to CHAIN_FMT. -/
def softChunk (fl : Word → Word) (fq fb : Fmt) (quant : List Word → List Elem) (s : List Word) (v : List (List Elem)) (x : Soft) : Soft :=
  let mn := fl (s.foldl max32 x.mx)
  let sub := fun (a b : Word) => fl (f32Sub (fl a) (fl b))
  let alpha := if mn = negInf then f32One else exBy fl (sub x.mx mn)
  let p := s.map (fun a => if mn = negInf then 0#32 else exBy fl (sub a mn))
  let q := quant p
  let scaled := fun (a : Word) => fl (f32Mul a alpha)
  let part := fl (toF32 (exactSum (p.map f32)))
  let plus := fun (a b : Word) => fl (f32Add (scaled a) b)
  let o := (x.o.zip v).map (fun e => (e.1, fl (toF32 (chunkOf fq fb q e.2))))
  let grow := fun (a b : Word) => made (scaled a) [a, alpha] + made (plus a b) [scaled a, b]
  let subs := if mn = negInf then 0 else made (sub x.mx mn) [x.mx, mn] + (s.map (fun a => made (sub a mn) [a, mn])).sum
  ⟨mn, plus x.l part, o.map (fun e => plus e.1 e.2), x.nans + subs + grow x.l part + (o.map (fun e => grow e.1 e.2)).sum⟩

/-- The recurrence over chunks in ascending order. -/
def softRun (fl : Word → Word) (fq fb : Fmt) (quant : Nat → List Word → List Elem) (lc : Nat) :
    Nat → Nat → List Word → List (List Elem) → Soft → Soft
  | 0, _, _, _, x => x
  | fuel + 1, c, s, v, x =>
    if s = [] then x
    else softRun fl fq fb quant lc fuel (c + 1) (s.drop lc) (v.map (fun l => l.drop lc))
      (softChunk fl fq fb (quant (c * lc)) (s.take lc) (v.map (fun l => l.take lc)) x)

/-- The row the recurrence ends with (R104, R102): values, and whether the row is empty. -/
def Soft.final (fl : Word → Word) (x : Soft) : List Word × Bool :=
  if x.l = 0#32 || x.l = 0x80000000#32 then (x.o.map (fun _ => 0#32), true)
  else (x.o.map (fun a => fl (f32Mul a (fl (whiskRcp x.l)))), false)

/-- NaNs made in a recurrence and in its last division. -/
def Soft.nansFinal (fl : Word → Word) (x : Soft) : Nat :=
  x.nans + (if x.l = 0#32 || x.l = 0x80000000#32 then 0 else
    (x.o.map (fun a => made (f32Mul a (fl (whiskRcp x.l))) [a, fl (whiskRcp x.l)])).sum)

/-- Elements of an intermediate row in CHAIN_FMT. -/
def chainFeed (f : Fmt) (seed : Dword) (mode num first : Nat) (row : List Word) : List Elem :=
  feed f (row.zipIdx.map (fun (x : Word × Nat) => (f32 x.1, rndOf mode seed (first + x.2) num)))

/-- The stages of a chain before its SOFTMAX in CHAIN mode; all of them where it has none. -/
def Chain.before (c : Chain) : List Stage := c.epi.takeWhile (fun st => !st.chains)

/-- Row m of the first product of a pair, short of CHAIN_FMT, with the records of a stage in DEFER mode. It has the N columns that the
second product reads (R143); behind a GATE in pair mode those that R94 leaves without a value are free. DEDUCED (log entry 57). -/
def ProdDesc.interRow (x : Run) (d : ProdDesc) (c : Chain) (e : Entry) (j m : Nat) : Except MemErr (List Word × Bool × List Piece) :=
  let w : Where := ⟨x.rdOf (unitKey j m), x.seed, j, j, e.pos, d.m, d.n⟩
  match d.row x c e j m with
  | .error err => .error err
  | .ok (v, empty) => match epiStages c w m c.before ⟨c.enter w x.rnd 0 m v, [], empty⟩ with
    | .error err => .error err
    | .ok r => .ok (r.vals ++ (List.range (e.lim 2 d.n - r.vals.length)).map (Config.gateTail r.vals), r.empty,
        c.statPieces j m (c.finalStats r (storeRow c w (fmtD c.chainFmt) x.rnd 0 m r.vals)))

/-- The causal convolution of the intermediate rows (R127): H zeros stand before row 0 of an entry. DEDUCED (log entries 60, 61). -/
def convRows (x : Run) (f : Fmt) (d : ProdDesc) (taps : List (List Word)) (rows : List (List Word)) : List (List Word) :=
  let kept := rows.map (fun (r : List Word) => (feed f (r.map (fun w => (f32 w, Rnd.rne)))).map (fun (v : Elem) => x.flOf f (toF32 v.1)))
  rows.zipIdx.map (fun (r : List Word × Nat) => r.1.zipIdx.map (fun (v : Word × Nat) =>
    let win := (List.range (d.haloH + 1)).map (fun t =>
      if r.2 + t < d.haloH then 0#32 else nth 0#32 (nth [] kept (r.2 + t - d.haloH)) v.2)
    x.fl (Config.convolve ((nth [] taps v.2).map x.fl) win)))

/-- NaNs that the convolution of so many columns makes: at most one for each product and each sum. -/
def convNans (x : Run) (d : ProdDesc) (taps : List (List Word)) (rows : List (List Word)) : Nat :=
  (rows.map (fun r => (r.zipIdx.map (fun v => Config.convolveNans ((nth [] taps v.2).map x.fl) [v.1] % (2 * d.haloH + 2))).sum)).sum

/-- The taps of each column (R143). -/
def ProdDesc.taps (d : ProdDesc) (rd : Reader) (n : Nat) : Except MemErr (List (List Word)) :=
  mapE (fun i => match rd (d.conv + i * 4 * (d.haloH + 1)) (4 * (d.haloH + 1)) with
    | .error e => .error e
    | .ok b => .ok ((List.range (d.haloH + 1)).map (fun t => BitVec.ofNat 32 (fld b (4 * t) 4)))) (List.range n)

/-- An entry of a chained pair. R104 replaces the second product's tree and takes its A from the recurrence, so that an A prologue in the
second chain block acts only where the first has no SOFTMAX in CHAIN mode. DEDUCED (log entry 59). -/
def ProdDesc.pair (x : Run) (d d2 : ProdDesc) (c c2 : Chain) (e : Entry) (j : Nat) : Except MemErr (List Piece × Nat × Nat) :=
  let rows := e.lim 1 d.m
  let e2 : Entry := { e with len := 0, dim := 0, b := d2.bBase, c := e.c }
  let fq := fmtD c.chainFmt
  let fb2 := fedFmt (fmtD d2.fmtB) c2.proB c2.feedB
  let cols := d.n
  match mapE (fun m => d.interRow x c e j m) (List.range rows),
      (if d.conv = 0 then Except.ok [] else d.taps (x.rdOf 0) cols) with
  | .error err, _ => .error err
  | _, .error err => .error err
  | .ok inter, .ok taps =>
    let vals := if d.conv = 0 then inter.map (·.1) else convRows x fq d taps (inter.map (·.1))
    let row := fun (m : Nat) =>
      let v := nth [] vals m
      let soft := c.epi.find? Stage.chains
      let w2 : Where := ⟨x.rdOf (unitKey j m), x.seed, j, j, e.pos, d2.m, d2.k⟩
      match soft with
      | some st =>
        match d2.rowsB x c2 e2 j m with
        | .error err => .error err
        | .ok bs =>
          let quant := fun (off : Nat) (p : List Word) => chainFeed fq x.seed st.rnd st.num ((j * d.m + m) * d.n + off) p
          let s := softRun id fq fb2 quant (chunkLen fq fb2) (v.length + 1) 0 (v.map (fun a => f32Mul a st.imm)) (bs.map (·.1))
            ⟨negInf, 0#32, bs.map (fun _ => 0#32), 0⟩
          let r := Soft.final id s
          d2.finish x c2 e2 j m 32 ((r.1.zip bs).map (fun y => f32Mul y.1 (f32Mul f32One y.2.2.1))) (r.2 || (nth ([], false, []) inter m).2.1)
      | none =>
        let by_ := c.storeBy x.rnd 0
        let es := chainFeed fq x.seed by_.1 by_.2 ((j * d.m + m) * d.n) v
        match fedRow c2 w2 c2.proA c2.feedA fq.mx es f32One m with
        | .error err => .error err
        | .ok a =>
          match d2.sums x c2 e2 j m a (fedFmt fq c2.proA c2.feedA) with
          | .error err => .error err
          | .ok (t, empty) => d2.finish x c2 e2 j m 32 t (empty || (nth ([], false, []) inter m).2.1)
    if e.lim 2 d.n = 0 then .ok ([], 0, 0)
    else match rowsWork row rows with
      | .error err => .error err
      | .ok (ps, n) => .ok (inter.flatMap (·.2.2) ++ ps, n, if d.conv = 0 then 0 else convNans x d taps (inter.map (·.1)))

/-- Everything a PRODUCT writes, its count of empty rows, and the NaNs that its whisks made. -/
def productWork (x : Run) (body : List Byte) : Except MemErr (List Piece × Nat × Nat) :=
  let d := prodOf body
  let d2 := prodOf (body.drop 104)
  match d.entries (x.rdOf 0), readChains (x.rdOf 0) d.chain true with
  | .error e, _ => .error e
  | _, .error e => .error e
  | .ok es, .ok (c, c2) =>
    match mapE (fun (e : Entry × Nat) =>
        let calm := fun (r : Except MemErr (List Piece × Nat)) => r.map (fun y => (y.1, y.2, 0))
        if d.ctotal ≠ 0 then calm (d.split x e.1 e.2)
        else if c.chained then d.pair x d2 c c2 { e.1 with c := if d.plist then e.1.c else d2.cBase } e.2
        else calm (d.plain x c e.1 e.2)) es.zipIdx with
    | .error e => .error e
    | .ok l => .ok (l.flatMap (·.1), (l.map (·.2.1)).sum, (l.map (·.2.2)).sum)

/-! ### ATTEND -/

/-- What a PAGED ATTEND takes from its model and its partition's pools (R297, R302, R330); `redirect` holds the directory words that name a
private copy from the commit on, each with that copy (R308). -/
structure Paging where
  maxPos : Nat
  kvScale : Word
  hbmPool : Nat
  ddrPool : Nat
  frame : Nat
  redirect : List (Nat × Nat)
  deriving DecidableEq, Repr

/-- Where the page of a layer and position lies, from the directory entry (R302); none where no page is present. -/
def Paging.page (g : Paging) (rd : Reader) (dir layer pos : Nat) : Except MemErr (Option Nat) :=
  let a := dir + 4 * (layer * (g.maxPos / 64) + pos / 64)
  match rd a 4 with
  | .error e => .error e
  | .ok b =>
    let n := ((g.redirect.find? (fun e => e.1 = a)).map (·.2)).getD (leNat b)
    .ok (if n = 0xFFFFFFFF then none
      else some ((if bit n 31 then g.ddrPool else g.hbmPool) + n % 2 ^ 31 * g.frame))

/-- A packed row of n elements, with free block scales for an MX format. -/
def packedRow (rd : Reader) (f : Fmt) (a n : Nat) : Except MemErr (List Elem) :=
  match rd a (f.rowBytes n) with
  | .error e => .error e
  | .ok bs => .ok ((List.range n).map (fun i =>
      elemOf f (f.codeAt bs i) (if f.mx then e8m0 (Config.blockScale bs (i / 32)).toNat else some 0)))

/-- One entry of an ATTEND: where its queries, keys, values and outputs stand; its rows and keys under its actual length; position of
row 0; its first row of Q; and the rows of the output its O_BASE names, behind which an MX output has its scales (R579). -/
structure AttEntry where
  q : Nat
  k : Nat
  v : Nat
  o : Nat
  rows : Nat
  keys : Nat
  pos : Nat
  row0 : Nat
  total : Nat
  deriving DecidableEq, Repr

/-- Elements of a query row: the heads, and for a PAGED command the new keys and values (R299). -/
def AttDesc.qCols (d : AttDesc) : Nat := (d.hq + if d.paged then 2 * d.hkv else 0) * d.dim

/-- The entries of an ATTEND (R145, R299). In an unpaged entry the values follow the keys. DEDUCED (log entry 62). -/
def AttDesc.entries (d : AttDesc) (rd : Reader) : Except MemErr (List AttEntry) :=
  let kv := (fmtD d.fmtKV).rowBytes (d.hkv * d.dim)
  if d.count = 0 then .ok [⟨d.qBase, d.kBase, d.vBase, d.oBase, d.rows, d.keys, 0, 0, d.rows⟩]
  else match readEntries rd d.plist d.count with
    | .error e => .error e
    | .ok es =>
      if d.paged then
        let all := (es.map (fun e => e.len - e.pos)).sum
        .ok ((es.foldl (fun (a : List AttEntry × Nat) e =>
          let r := e.len - e.pos
          (a.1 ++ [(⟨d.qBase, e.b, 0, d.oBase, r, e.len, e.pos, a.2, all⟩ : AttEntry)], a.2 + r)) ([], 0)).1)
      else
        .ok (es.map (fun e => ⟨e.a, e.b, e.b + d.keys * kv, e.c, if e.lim 2 1 = 0 then 0 else e.lim 1 d.rows,
          e.lim 3 (e.lim 2 d.keys), e.pos, 0, d.rows⟩))

/-- The address of a position's keys (or values) of an entry. DEDUCED (log entry 62). -/
def AttDesc.kvAddr (d : AttDesc) (g : Paging) (rd : Reader) (e : AttEntry) (val : Bool) (pos : Nat) : Except MemErr Nat :=
  let kv := (fmtD d.fmtKV).rowBytes (d.hkv * d.dim)
  if d.paged then
    match g.page rd e.k (d.kBase % 0x10000) pos with
    | .error err => .error err
    | .ok none => .error (.access 0)
    | .ok (some a) => .ok (a + 64 + (if val then 64 * kv else 0) + pos % 64 * kv)
  else .ok ((if val then e.v else e.k) + pos * kv)

/-- The new keys and values of a PAGED entry, as they are written to their pages (R299), and the NaNs made in rotating them. -/
def AttDesc.newKv (x : Run) (d : AttDesc) (g : Paging) (c : Chain) (e : AttEntry) (j : Nat) : Except MemErr (List Piece × Nat) :=
  let f := fmtD d.fmtKV
  let fq := fmtD d.fmtQ
  let part := fun (m : Nat) (val : Bool) =>
    let r := e.row0 + m
    let rd := x.rdOf (unitKey j m)
    match packedRow rd fq (e.q + r * fq.rowBytes d.qCols) d.qCols, d.kvAddr g rd e val (e.pos + m) with
    | .error err, _ => .error err
    | _, .error err => .error err
    | .ok es, .ok a =>
      let first := (d.hq + if val then d.hkv else 0) * d.dim
      let heads := (List.range d.hkv).map (fun h => ((es.drop (first + h * d.dim)).take d.dim).map (fun (v : Elem) => x.flOf fq (toF32 v.1)))
      let w : Where := ⟨rd, x.seed, j, j, e.pos, e.rows, d.qCols⟩
      let turned := mapE (fun (h : List Word) => match c.proA.find? (fun st => st.op = 0x85) with
        | some st => if val then .ok (h, 0) else match c.srcOf st with
          | none => .ok (h, 0)
          | some y => match ropeRow c w st y m with
            | .error err => .error err
            | .ok t => .ok (rope x.fl (bit st.fn 0) st.ropeDim (t.map x.fl) h, ropeNans x.fl (bit st.fn 0) st.ropeDim (t.map x.fl) h)
        | none => .ok (h, 0)) heads
      match turned with
      | .error err => .error err
      | .ok hs =>
        let codes := (hs.flatMap (·.1)).zipIdx.map (fun (v : Word × Nat) =>
          let y := f32 v.1
          let y := if f = .e4m3 then (match y with
            | .fin n q => let s := f32 g.kvScale; Val.fin (n != s.signBit) (if s.rat = 0 then 0 else q / (if s.rat < 0 then -s.rat else s.rat))
            | y => y) else y
          f.encode (rndOf x.rnd x.seed (r * d.qCols + first + v.2) 0) y)
        .ok ((⟨unitKey j m, a, f.pack codes⟩ : Piece), (hs.map (·.2)).sum)
  match mapE (fun (i : Nat) => part (i / 2) (i % 2 = 1)) (List.range (2 * e.rows)) with
  | .error err => .error err
  | .ok l => .ok (l.map (·.1), (l.map (·.2)).sum)

/-- Key position j is seen from position p (R145, R299). -/
def AttDesc.sees (d : AttDesc) (p j : Nat) : Bool :=
  if d.paged && d.mask = 0 then j ≤ p
  else match d.mask with
    | 0 => true
    | 1 => j ≤ p
    | _ => j ≤ p && p < j + d.window

/-- CHAIN_FMT of an ATTEND whose CHAIN is 0 is free among the operand formats. DEDUCED (log entry 62). -/
def freeChainFmt : Fmt :=
  let l : List Fmt := [.bf16, .fp16, .e4m3, .e5m2, .int8, .mxE4M3, .mxE5M2, .mxE2M3, .mxE3M2, .mxE2M1, .mxInt8]
  nth .bf16 l (Config.attendFmt % 11)

/-- One head of one query row: the recurrence over its keys. DEDUCED (log entry 62). -/
def AttDesc.headRow (x : Run) (d : AttDesc) (g : Paging) (c c2 : Chain) (e : AttEntry) (j h m : Nat) :
    Except MemErr (Soft × List Word) :=
  let r := e.row0 + m
  let rd := x.rdOf (unitKey j m)
  let fq := fmtD d.fmtQ
  let fk := fmtD d.fmtKV
  let kvh := h / (d.hq / d.hkv)
  let ext := if d.paged && d.fmtKV = 3 then g.kvScale else f32One
  let w : Where := ⟨rd, x.seed, j, j, e.pos, e.rows, d.dim⟩
  let wk : Where := ⟨rd, x.seed, j, j, e.pos, e.keys, d.dim⟩
  let kvRow : Bool → Nat → Except MemErr (List Elem) := fun val p => match d.kvAddr g rd e val p with
    | .error err => .error err
    | .ok a => match packedRow rd fk a (d.hkv * d.dim) with
      | .error err => .error err
      | .ok es => .ok ((es.drop (kvh * d.dim)).take d.dim)
  let q : Except MemErr (List Elem × Word × Bool) := match packedRow rd fq (e.q + r * fq.rowBytes d.qCols) d.qCols with
    | .error err => .error err
    | .ok es => fedRow c w c.proA c.feedA fq.mx ((es.drop (h * d.dim)).take d.dim) f32One m
  let ks : Except MemErr (List (List Elem × Word × Bool)) := mapE (fun p => match kvRow false p with
    | .error err => .error err
    | .ok es => fedRow c wk c.proB c.feedB fk.mx es ext p) (List.range e.keys)
  let vs := mapE (kvRow true) (List.range e.keys)
  match q, ks, vs with
  | .error err, _, _ => .error err
  | _, .error err, _ => .error err
  | _, _, .error err => .error err
  | .ok q, .ok ks, .ok vs =>
    let fa := fedFmt fq c.proA c.feedA
    let fb := fedFmt fk c.proB c.feedB
    let ws : Where := ⟨rd, x.seed, j, j * d.hq + h, e.pos, e.rows, d.keys⟩
    let score := ks.map (fun k => scaleSum (dotSum x.arrival fa fb q.1 k.1) q.2.1 k.2.1)
    match epiStages c ws m c.before ⟨c.enter ws x.rnd 0 m score, [], false⟩,
        mapE (fun n => fedRow c2 ⟨rd, x.seed, j, j, e.pos, d.dim, e.keys⟩ c2.proB c2.feedB fk.mx
          (vs.map (fun v => nth (Val.zero, 0) v n)) ext n) (List.range d.dim) with
    | .error err, _ => .error err
    | _, .error err => .error err
    | .ok sr, .ok cols =>
      let soft := c.epi.find? Stage.chains
      let tau := match soft with | some st => st.imm | none => d.tau
      let mode := match soft with | some st => st.rnd | none => x.rnd
      let num := match soft with | some st => st.num | none => 0
      let fc := if d.chain = 0 then freeChainFmt else fmtD c.chainFmt
      let fv := fedFmt fk c2.proB c2.feedB
      let seen := sr.vals.zipIdx.map (fun (v : Word × Nat) => (x.fl v.1, d.sees (e.pos + m) v.2))
      let s := seen.map (fun (v : Word × Bool) => if v.2 then x.fl (f32Mul v.1 (x.fl tau)) else negInf)
      let nans := (seen.map (fun (v : Word × Bool) => if v.2 then made (f32Mul v.1 (x.fl tau)) [v.1, tau] else 0)).sum
      let quant := fun (off : Nat) (p : List Word) => chainFeed fc x.seed mode num (((j * d.hq + h) * e.rows + m) * d.keys + off) p
      .ok (softRun x.fl fc fv quant (chunkLen fc fv) (e.keys + 1) 0 s (cols.map (·.1)) ⟨negInf, 0#32, cols.map (fun _ => 0#32), nans⟩,
        cols.map (fun y => y.2.1))

/-- One query row of an ATTEND: outputs, statistics, the number of its heads that are empty, and the NaNs that its whisk made. DEDUCED (log entry 61). -/
def AttDesc.row (x : Run) (d : AttDesc) (g : Paging) (c c2 : Chain) (e : AttEntry) (j m : Nat) : Except MemErr (List Piece × Nat × Nat) :=
  let r := e.row0 + m
  let f := fmtD d.fmtO
  let w : Where := ⟨x.rdOf (unitKey j m), x.seed, j, j, e.pos, e.rows, d.hq * d.dim⟩
  let num := if c.chained then 32 else 0
  match mapE (fun h => d.headRow x g c c2 e j h m) (List.range d.hq) with
  | .error err => .error err
  | .ok hs =>
    let fin := hs.map (fun (y : Soft × List Word) =>
      let v : List Word × Bool := if d.unnorm then (y.1.o, y.1.l = 0#32) else y.1.final x.fl
      ((v.1.zip y.2).map (fun z => if z.2 = f32One then z.1 else f32Mul z.1 z.2), v.2))
    let vals := (fin.map (·.1)).flatten
    match epiStages c2 w m c2.epi ⟨c2.enter w x.rnd num m vals, [], false⟩ with
    | .error err => .error err
    | .ok rw =>
      let s := storeRow c2 w f x.rnd num m rw.vals
      let stride := f.rowBytes (d.hq * d.dim)
      match rowPieces (unitKey j m) (x.rdOf (unitKey j m)) c2 f j r e.o stride e.total (d.hq * d.dim) s (c2.finalStats rw s) rw.vals.length with
      | .error err => .error err
      | .ok ps =>
        let st := if d.unnorm then
            [(⟨unitKey j m, d.stats + 8 * d.hq * (r + j * (if d.paged then 0 else d.rows)),
              hs.flatMap (fun y => leBytes 4 y.1.mx.toNat ++ leBytes 4 y.1.l.toNat)⟩ : Piece)]
          else []
        .ok (ps ++ st, (fin.filter (·.2)).length, (hs.map (fun y => if d.unnorm then y.1.nans else y.1.nansFinal x.fl)).sum)

/-- The combine form (R105): partials in ascending order of range; the rows it writes, its empty rows, and the NaNs that its whisks made.
DEDUCED (log entry 61). DEDUCED (log entry 61). -/
def AttDesc.combine (x : Run) (d : AttDesc) : Except MemErr (List Piece × Nat × Nat) :=
  let step := d.vBase % 2 ^ 48
  let f := fmtD d.fmtO
  let row := fun (m : Nat) =>
    let rd := x.rdOf m
    let words : Nat → Nat → Except MemErr (List Word) := fun a n => match rd a (4 * n) with
      | .error e => .error e
      | .ok b => .ok ((List.range n).map (fun i => x.fl (BitVec.ofNat 32 (fld b (4 * i) 4))))
    match mapE (β := Word × Word × List Word) (fun i => match words (d.kBase + i * step + 8 * m) 2, words (d.qBase + i * step + 4 * d.dim * m) d.dim with
        | .error e, _ => .error e
        | _, .error e => .error e
        | .ok s, .ok o => .ok (nth 0#32 s 0, nth 0#32 s 1, o)) (List.range d.hq) with
    | .error e => .error e
    | .ok ps =>
      let mx := x.fl (ps.foldl (fun a p => max32 a p.1) negInf)
      let r := ps.foldl (fun (y : Soft) p =>
        let a := if p.1 = negInf then 0#32 else exBy x.fl (f32Sub p.1 mx)
        let part := fun (w : Word) => x.fl (f32Mul w a)
        let plus := fun (u w : Word) => x.fl (f32Add u (part w))
        let grow := fun (u w : Word) => made (part w) [w, a] + made (plus u w) [u, part w]
        ⟨mx, plus y.l p.2.1, (y.o.zip p.2.2).map (fun z => plus z.1 z.2),
          y.nans + (if p.1 = negInf then 0 else made (f32Sub p.1 mx) [p.1, mx]) + grow y.l p.2.1
            + ((y.o.zip p.2.2).map (fun z => grow z.1 z.2)).sum⟩) (⟨mx, 0#32, List.replicate d.dim 0#32, 0⟩ : Soft)
      let v := Soft.final x.fl r
      let w : Where := ⟨rd, x.seed, 0, 0, 0, d.rows, d.dim⟩
      match rowPieces m rd Chain.idle f 0 m d.oBase (f.rowBytes d.dim) d.rows d.dim (storeRow Chain.idle w f x.rnd 0 m v.1) [] d.dim with
      | .error e => .error e
      | .ok l => .ok (l, v.2, r.nansFinal x.fl)
  match mapE row (List.range d.rows) with
  | .error e => .error e
  | .ok l => .ok (l.flatMap (·.1), (l.filter (·.2.1)).length, (l.map (·.2.2)).sum)

/-- New keys and values of every entry of a PAGED ATTEND, and the NaNs made in rotating them. -/
def attendKv (x : Run) (g : Paging) (body : List Byte) : Except MemErr (List Piece × Nat) :=
  let d := attOf body
  if d.mode = 1 || !d.paged then .ok ([], 0)
  else match d.entries (x.rdOf 0), readChains (x.rdOf 0) d.chain true with
    | .error e, _ => .error e
    | _, .error e => .error e
    | .ok es, .ok (c, _) => match mapE (fun (e : AttEntry × Nat) => d.newKv x g c e.1 e.2) es.zipIdx with
      | .error e => .error e
      | .ok l => .ok (l.flatMap (·.1), (l.map (·.2)).sum)

/-- Everything an ATTEND writes but for new keys and values, which its reader already finds in their pages. -/
def attendWork (x : Run) (g : Paging) (body : List Byte) : Except MemErr (List Piece × Nat × Nat) :=
  let d := attOf body
  if d.mode = 1 then d.combine x
  else match d.entries (x.rdOf 0), readChains (x.rdOf 0) d.chain true with
    | .error e, _ => .error e
    | _, .error e => .error e
    | .ok es, .ok (c, c2) =>
      match mapE (fun (e : AttEntry × Nat) =>
          match mapE (fun m => d.row x g c c2 e.1 e.2 m) (List.range e.1.rows) with
          | .error err => .error err
          | .ok l => .ok (l.flatMap (·.1), (l.map (·.2.1)).sum, (l.map (·.2.2)).sum)) es.zipIdx with
      | .error e => .error e
      | .ok l => .ok (l.flatMap (·.1), (l.map (·.2.1)).sum, (l.map (·.2.2)).sum)

end Sys2Proof.Machine
end

