-- ==== Sys2Proof/Machine/Tables.lean ====
section
/-! DEFINITION. Tables (08): the table descriptor and its checks (R184, R187), row formats (R188), indices (R189), GATHER and its
pools (R190 to R196), SCATTER_ADD (R197, R198), expert tables (R202 to R204) and the extended record (R206). -/

namespace Sys2Proof.Machine

/-- A table descriptor (R187). -/
structure TableDesc where
  rows : Nat
  base : Nat
  rowBytes : Nat
  dim : Nat
  fmt : Nat
  kind : Nat
  tscale : Word
  hotCount : Nat
  hotDir : Nat
  hotRows : Nat
  hotPeriod : Nat
  sample : Nat
  deriving DecidableEq, Repr

def tableOf (b : List Byte) : TableDesc :=
  ⟨fld b 0 5, fld b 8 8, fld b 0x10 6, fld b 0x18 4, fld b 0x1C 1, fld b 0x1D 1, BitVec.ofNat 32 (fld b 0x20 4), fld b 0x24 4,
    fld b 0x28 8, fld b 0x30 8, fld b 0x38 4, fld b 0x40 8⟩

/-- The row formats of R188. -/
def rowFmt (f : Nat) : Bool := f = 0x00 || f = 0x01 || f = 0x03 || f = 0x04 || f = 0x05 || f = 0x16

/-- Used bytes of a row (R188). -/
def TableDesc.used (t : TableDesc) : Nat :=
  match t.fmt with
  | 0x00 => 4 * t.dim
  | 0x01 => 2 * t.dim
  | 0x05 => 4 + t.dim
  | 0x16 => ceilDiv t.dim 32 + ceilDiv t.dim 2
  | _ => t.dim

/-- The first field of a descriptor that breaks R187 or R188, by its offset; `hotBad` says that the directory breaks R194, and
`share` is the size of the partition's stockpot share. DEDUCED (log entry 45). -/
def TableDesc.bad (t : TableDesc) (share : Nat) (hotBad : Bool) : Option Nat :=
  let data := t.kind = 0
  let f := fun (off : Nat) (b : Bool) => if b then some off else none
  f 0x00 (t.rows = 0 || (t.kind = 1 && 2 ^ 24 < t.rows))
  <|> f 0x08 (t.base % 64 ≠ 0 || !(match zoneOf t.base with | .hbm | .ddr | .fls => true | _ => false))
  <|> f 0x10 (if data then t.rowBytes % 16 ≠ 0 || t.rowBytes < 16 || 8192 < t.rowBytes
      else t.kind = 1 && (t.rowBytes % pageBytes ≠ 0 || t.rowBytes = 0 || 2 ^ 36 < t.rowBytes))
  <|> f 0x18 (data && (t.dim = 0 || (rowFmt t.fmt && t.rowBytes < t.used)))
  <|> f 0x1C (data && !(rowFmt t.fmt))
  <|> f 0x1D (1 < t.kind)
  <|> f 0x24 (65536 < t.hotCount || (t.kind = 1 && t.hotCount ≠ 0))
  <|> f 0x28 (t.hotCount ≠ 0 && (share < t.hotDir + 8 * t.hotCount || hotBad))
  <|> f 0x30 (t.hotCount ≠ 0 && share < t.hotRows + t.rowBytes * t.hotCount)

/-- A hot directory is strictly ascending and names rows of the table (R194). -/
def hotDirBad (rows : Nat) : List Nat → Bool
  | [] => false
  | [a] => rows ≤ a
  | a :: b :: t => b ≤ a || rows ≤ a || hotDirBad rows (b :: t)

/-- The elements of a row widened to FP32 (R188). -/
def TableDesc.widen (t : TableDesc) (row : List Byte) : List Word :=
  let f := fmtD t.fmt
  let one := fun (i : Nat) =>
    match t.fmt with
    | 0x05 => toF32 ((f.decode (f.codeAt (row.drop 4) i)).mul (f32 (BitVec.ofNat 32 (fld row 0 4))))
    | 0x16 =>
      let nb := ceilDiv t.dim 32
      toF32 (elemOf f (f.codeAt (row.drop nb) i) (e8m0 (fld row (i / 32) 1))).1
    | 0x03 | 0x04 => toF32 ((f.decode (f.codeAt row i)).mul (f32 t.tscale))
    | _ => toF32 (f.decode (f.codeAt row i))
  (List.range t.dim).map one

/-! ### Indices -/

/-- 64-bit indices from memory. -/
def readIndices (rd : Reader) (base count : Nat) : Except MemErr (List Nat) :=
  mapE (fun i => match rd (base + 8 * i) 8 with
    | .error e => .error e
    | .ok b => .ok (leNat b)) (List.range count)

/-- A position's row: none where the index is dropped (R189). -/
def validRow (rows : Nat) (i : Nat) : Option Nat := if i < rows then some i else none

def missingCount (rows : Nat) (l : List Nat) : Nat := (l.filter (fun i => rows ≤ i && i = 2 ^ 64 - 1)).length
def invalidCount (rows : Nat) (l : List Nat) : Nat := (l.filter (fun i => rows ≤ i && i ≠ 2 ^ 64 - 1)).length

/-- Without repeats, in the order of first appearance. -/
def firsts : List Nat → List Nat → List Nat
  | seen, [] => seen.reverse
  | seen, a :: t => if seen.contains a then firsts seen t else firsts (a :: seen) t

/-- Ascending. -/
def ascending (l : List Nat) : List Nat := l.foldl insertNat []

/-- An address of the tiered range that is a multiple of 64. -/
def tieredAddr (a : Nat) : Bool := a % 64 = 0 && (match zoneOf a with | .hbm | .ddr | .fls => true | _ => false)

/-- A saturating 32-bit count as bytes. -/
def c32 (n : Nat) : List Byte := leBytes 4 (min n 0xFFFFFFFF)

/-- The extended record of GATHER and SCATTER_ADD (R206). -/
def tableInfo (inv mis dist hot empty version stalls excess : Nat) : List Byte :=
  c32 inv ++ c32 mis ++ c32 dist ++ c32 hot ++ c32 empty ++ leBytes 4 version ++ c32 stalls ++ c32 excess

/-! ### GATHER -/

/-- The GATHER descriptor (R146). -/
structure GatherDesc where
  slot : Nat
  pool : Nat
  fmt : Nat
  count : Nat
  idx : Nat
  bag : Nat
  out : Nat
  bags : Nat
  stride : Nat
  deriving DecidableEq, Repr

def gatherOf (b : List Byte) : GatherDesc :=
  ⟨fld b 0 2, fld b 2 1, fld b 3 1, fld b 4 4, fld b 8 8, fld b 0x10 8, fld b 0x18 8, fld b 0x20 4, fld b 0x24 4⟩

/-- What depends on the captured table: the check of OUT_FMT and POOL against it (R190, R202), by descriptor offset. -/
def GatherDesc.bad (d : GatherDesc) (t : TableDesc) : Option Nat :=
  if t.kind = 1 then (if d.pool ≠ 0 then some 2 else if d.fmt ≠ 0xFF then some 3 else none)
  else if d.fmt ≤ 2 then none
  else if d.fmt ≠ t.fmt then some 3
  else if d.pool ≠ 0 then some 2
  else none

/-- Output rows are copies of table rows. -/
def GatherDesc.copies (d : GatherDesc) (t : TableDesc) : Bool := d.fmt = t.fmt && d.pool = 0

/-- Bytes of an output row. -/
def GatherDesc.rowBytes (d : GatherDesc) (t : TableDesc) : Nat :=
  if d.copies t then t.used else if d.fmt = 0 then 4 * t.dim else 2 * t.dim

def GatherDesc.outRows (d : GatherDesc) : Nat := if d.pool = 0 then d.count else d.bags

/-- Where the hot set of a position's die lies: the address of the partition's share there; none where the set is ignored. -/
abbrev HotAt := Nat → Option Nat

/-- A row read for a position: its bytes, and whether a hot copy served it (R195). -/
def readRow (x : Run) (t : TableDesc) (hot : HotAt) (pos r : Nat) : Except MemErr (List Byte × Bool) :=
  let tier : Except MemErr (List Byte × Bool) := match x.chk pos (t.base + r * t.rowBytes) t.rowBytes with
    | .error e => .error e
    | .ok b => .ok (b, false)
  match hot pos with
  | none => tier
  | some share =>
    if t.hotCount = 0 then tier
    else
      match mapE (fun i => match x.rdOf pos (share + t.hotDir + 8 * i) 8 with
        | .error e => .error e
        | .ok b => .ok (leNat b)) (List.range t.hotCount) with
      | .error e => .error e
      | .ok dir =>
        match dir.findIdx? (· = r) with
        | none => tier
        | some i => match x.rdOf pos (share + t.hotRows + i * t.rowBytes) t.rowBytes with
          | .error e => .error e
          | .ok b => .ok (b, true)

/-- Positions in a batch (R193). -/
def batchLen : Nat := 1048576

/-- Every row read for the positions of a test: batch, row, bytes, and whether a hot copy served it; each distinct valid row of a
batch once. -/
def batchReads (x : Run) (t : TableDesc) (hot : HotAt) (use : Nat → Bool) (idx : List Nat) : Except MemErr (List (Nat × Nat × List Byte × Bool)) :=
  let want := idx.zipIdx.foldl (fun (l : List (Nat × Nat × Nat)) e =>
    if e.1 < t.rows && use e.2 && !(l.any (fun (a : Nat × Nat × Nat) => a.1 = e.2 / batchLen && a.2.1 = e.1)) then l ++ [(e.2 / batchLen, e.1, e.2)] else l) []
  mapE (fun (a : Nat × Nat × Nat) => match readRow x t hot a.2.2 a.2.1 with
    | .error e => .error e
    | .ok b => .ok (a.1, a.2.1, b.1, b.2)) want

/-- Exact division of an FP32 value by a count, rounded once. -/
def divCount (v : Val) (n : Nat) : Word :=
  toF32 (match v with
    | .fin s m => .fin s (m / (n : Rat))
    | v => v)

/-- One element of a pooled bag (R191, R192): the widened elements in position order. -/
def poolOne (pool : Nat) (w : List Word) : Word :=
  match w with
  | [] => 0#32
  | a :: rest =>
    if pool = 1 then treeWords w
    else if pool = 2 then divCount (treeSum (w.map f32)) w.length
    else if w.any (fun v => (f32 v).isNan) then f32Nan
    else rest.foldl (fun y v => if (f32 y).lt (f32 v) then v else y) a

/-- An output row of FP32 words stored in OUT_FMT (R190). -/
def storeOut (x : Run) (fmt dim r : Nat) (row : List Word) : List Byte :=
  let f := fmtD fmt
  f.pack (row.zipIdx.map (fun (v : Word × Nat) => f.encode (rndOf x.rnd x.seed (r * dim + v.2) 0) (f32 v.1)))

/-- The offsets of bags, checked (R191). -/
def readBags (x : Run) (d : GatherDesc) : Except (Nat × Nat) (List Nat) :=
  match mapE (fun i => match x.rdOf 0 (d.bag + 4 * i) 4 with
    | .error e => .error e
    | .ok b => .ok (leNat b)) (List.range (d.bags + 1)) with
  | .error e => .error (memFail e)
  | .ok l =>
    let rises := (l.zip (l.drop 1)).all (fun (e : Nat × Nat) => e.1 ≤ e.2)
    if rises && (l.getLast?).getD 0 ≤ d.count then .ok l else .error (0x06, 0x10)

/-- A position lies in a bag (R191). -/
def inBag (offs : List Nat) (p : Nat) : Bool := offs.headD 0 ≤ p && p < (offs.getLast?).getD 0

/-- GATHER on a data table (R190 to R193). Positions outside every bag are read for classification only. `stats` holds rows read, hot hits, coalesced, invalid, missing, and then the rows that
missed the hot set, in position order. -/
def gatherData (x : Run) (d : GatherDesc) (t : TableDesc) (hot : HotAt) (version : Nat) : Except (Nat × Nat) Out :=
  match orFail (readIndices (x.rdOf 0) d.idx d.count) with
  | .error e => .error e
  | .ok idx =>
    match (if d.pool = 0 then Except.ok [] else readBags x d) with
    | .error e => .error e
    | .ok offs =>
      let use := fun (p : Nat) => d.pool = 0 || inBag offs p
      match orFail (batchReads x t hot use idx) with
      | .error e => .error e
      | .ok reads =>
        let bytesAt := fun (p i : Nat) =>
          match reads.find? (fun (a : Nat × Nat × List Byte × Bool) => a.1 = p / batchLen && a.2.1 = i) with
          | some a => a.2.2.1
          | none => []
        let rowBytes := d.rowBytes t
        let rowAt := fun (p i : Nat) => if i < t.rows then some (bytesAt p i) else none
        let put := fun (r : Nat) (bs : List Byte) => (⟨r, d.out + r * d.stride, bs⟩ : Piece)
        let pieces :=
          if d.pool = 0 then
            idx.zipIdx.map (fun (e : Nat × Nat) => put e.2 (match rowAt e.2 e.1 with
              | none => List.replicate rowBytes 0#8
              | some b => if d.copies t then b.take rowBytes else storeOut x d.fmt t.dim e.2 (t.widen b)))
          else
            (List.range d.bags).map (fun b =>
              let lo := nth 0 offs b
              let hi := nth 0 offs (b + 1)
              let rows := ((List.range' lo (hi - lo)).filterMap (fun p => rowAt p (nth (2 ^ 64 - 1) idx p))).map t.widen
              put b (storeOut x d.fmt t.dim b ((List.range t.dim).map (fun k => poolOne d.pool (rows.map (fun r => nth 0#32 r k))))))
        let empty := if d.pool = 0 then 0 else
          ((List.range d.bags).filter (fun b => (List.range' (nth 0 offs b) (nth 0 offs (b + 1) - nth 0 offs b)).all
            (fun p => t.rows ≤ nth (2 ^ 64 - 1) idx p))).length
        let inv := invalidCount t.rows idx
        let mis := missingCount t.rows idx
        let hits := (reads.filter (fun a => a.2.2.2)).length
        let missed := firsts [] ((reads.filter (fun a => !a.2.2.2)).map (fun a => a.2.1))
        .ok ⟨pieces, d.outRows, (if inv + mis = 0 then 0 else 8) + (if empty = 0 then 0 else 64),
          tableInfo inv mis reads.length hits empty version 0 0,
          [reads.length - hits, hits, (idx.zipIdx.filter (fun e => e.1 < t.rows && use e.2)).length - reads.length, inv, mis] ++ missed⟩

/-! ### Expert tables -/

/-- The distinct valid experts that GATHER lists: the lowest BAGS of them (R203, R204). -/
def expertsOf (t : TableDesc) (bags : Nat) (idx : List Nat) : List Nat :=
  (ascending (idx.filter (fun i => i < t.rows))).take bags

/-- GATHER on an expert table (R202 to R204). `stats` is as for a data table, without rows read. DEDUCED (log entry 65). -/
def gatherExpert (x : Run) (d : GatherDesc) (t : TableDesc) (version : Nat) : Except (Nat × Nat) Out :=
  match orFail (readIndices (x.rdOf 0) d.idx d.count), orFail (x.rdOf 0 d.bag 32) with
  | .error e, _ => .error e
  | _, .error e => .error e
  | .ok idx, .ok blk =>
    let all := ascending (idx.filter (fun i => i < t.rows))
    let listed := expertsOf t d.bags idx
    let a0 := fld blk 0 8
    let c0 := fld blk 8 8
    let sa := fld blk 0x10 4
    let sc := fld blk 0x14 4
    let cnt := fun (e : Nat) => (idx.filter (· = e)).length
    let before := fun (j : Nat) => ((listed.take j).map cnt).sum
    let entries := (List.range d.bags).map (fun j =>
      match listed[j]? with
      | some e => leBytes 8 (a0 + before j * sa) ++ leBytes 8 (t.base + e * t.rowBytes) ++ leBytes 8 (c0 + before j * sc)
          ++ leBytes 4 (cnt e) ++ leBytes 4 (2 ^ 30)
      | none => leBytes 24 0 ++ leBytes 4 0 ++ leBytes 4 (2 ^ 30))
    let grouped := idx.zipIdx.map (fun (e : Nat × Nat) =>
      match listed.findIdx? (· = e.1) with
      | some j => leBytes 4 (before j + ((idx.take e.2).filter (· = e.1)).length)
      | none => leBytes 4 0xFFFFFFFF)
    let inv := invalidCount t.rows idx
    let mis := missingCount t.rows idx
    let excess := (idx.filter (fun i => i < t.rows && !(listed.contains i))).length
    .ok ⟨[⟨0, d.out, entries.flatten⟩, ⟨0, d.out + d.stride, grouped.flatten⟩], all.length,
      (if inv + mis = 0 then 0 else 8) + (if excess = 0 then 0 else 1),
      tableInfo inv mis listed.length 0 0 version 0 excess,
      [0, 0, idx.length - inv - mis - excess - listed.length, inv, mis]⟩

/-! ### SCATTER_ADD -/

/-- The SCATTER_ADD descriptor (R146). -/
structure ScatterDesc where
  slot : Nat
  fmt : Nat
  count : Nat
  idx : Nat
  upd : Nat
  stride : Nat
  deriving DecidableEq, Repr

def scatterOf (b : List Byte) : ScatterDesc :=
  ⟨fld b 0 2, fld b 2 1, fld b 4 4, fld b 8 8, fld b 0x10 8, fld b 0x18 4⟩

/-- A row after its update (R197, Application). -/
def TableDesc.applied (x : Run) (t : TableDesc) (r : Nat) (row : List Byte) (u : List Word) : List Byte :=
  let f := fmtD t.fmt
  let v := ((t.widen row).zip u).map (fun e => f32Add e.1 e.2)
  let rnd := fun (k : Nat) => rndOf x.rnd x.seed (r * t.dim + k) 0
  let div := fun (w s : Word) => match f32 w, f32 s with
    | .fin n m, .fin k q => if q = 0 then (if m = 0 then Val.nan else .inf (n != k)) else .fin (n != k) (m / q)
    | .inf n, .fin k _ => .inf (n != k)
    | .fin n _, .inf k => .fin (n != k) 0
    | _, _ => .nan
  let out := match t.fmt with
    | 0x05 =>
      let s := BitVec.ofNat 32 (fld row 0 4)
      row.take 4 ++ f.pack (v.map (fun w => f.encode .rne (div w s)))
    | 0x16 =>
      let q := quantMx f (v.zipIdx.map (fun (w : Word × Nat) => (f32 w.1, rnd w.2)))
      q.1 ++ f.pack q.2
    | 0x03 | 0x04 => f.pack (v.zipIdx.map (fun (w : Word × Nat) => f.encode (rnd w.2) (div w.1 t.tscale)))
    | _ => f.pack (v.zipIdx.map (fun (w : Word × Nat) => f.encode (rnd w.2) (f32 w.1)))
  out ++ row.drop t.used

/-- The update log: each distinct valid row in ascending order, with its combined update (R197, Combining). DEDUCED (log entry 65). -/
def scatterLog (x : Run) (d : ScatterDesc) (t : TableDesc) : Except MemErr (List (Nat × List Word) × List Nat) :=
  let f := fmtD d.fmt
  match readIndices (x.rdOf 0) d.idx d.count with
  | .error e => .error e
  | .ok idx =>
    match mapE (fun p => match x.rdOf p (d.upd + p * d.stride) (f.rowBytes t.dim) with
      | .error e => .error e
      | .ok b => .ok ((List.range t.dim).map (fun k => toF32 (f.decode (f.codeAt b k))))) (List.range d.count) with
    | .error e => .error e
    | .ok upd =>
      .ok ((ascending (idx.filter (fun i => i < t.rows))).map (fun r =>
        let mine := (idx.zip upd).filter (fun e => e.1 = r)
        (r, (List.range t.dim).map (fun k => treeWords (mine.map (fun e => nth 0#32 e.2 k))))), idx)

end Sys2Proof.Machine
end

