-- ==== Sys2Proof/Machine/Unicode.lean ====
section
/-! DEFINITION. The general category of each code point (R269): Unicode 15.1.0, a standard that the spec names, as runs of code
points of one category, sixteen to a number. PRESUMED (log entry 10): from the Unicode character database. -/

namespace Sys2Proof.Machine

/-- Runs of code points, 28 bits each, the first in the highest bits: first code point, then the category (R269) in 5 bits. -/
def catRuns0 : List Nat :=
  [0x1900004160000431000049300004b1000050d000052e00005510000572000059100005ac00005d100006080000751000079200007f1,
   0x8200000b6d0000b910000bae0000bd40000beb0000c140000c210000f6d0000f920000fae0000fd20000ff9000141600014310001453,
   0x14d500014f1000151400015350001544000156f000159200015ba00015d500015f400016150001632000164a000169400016a100016d1,
   0x1714000172a00017440001770000178a00017f100018000001af20001b000001be10001ef20001f010002000000202100020400002061,
   0x208000020a100020c000020e10002100000212100021400002161000218000021a100021c000021e10002200000222100022400002261,
   0x228000022a100022c000022e10002300000232100023400002361000238000023a100023c000023e10002400000242100024400002461,
   0x248000024a100024c000024e10002500000252100025400002561000258000025a100025c000025e10002600000262100026400002661,
   0x268000026a100026c000026e1000272000027410002760000278100027a000027c100027e000028010002820000284100028600002881,
   0x28a000028c100028e0000290100029400002961000298000029a100029c000029e10002a000002a210002a400002a610002a800002aa1,
   0x2ac00002ae10002b000002b210002b400002b610002b800002ba10002bc00002be10002c000002c210002c400002c610002c800002ca1,
   0x2cc00002ce10002d000002d210002d400002d610002d800002da10002dc00002de10002e000002e210002e400002e610002e800002ea1,
   0x2ec00002ee10002f000002f410002f600002f810002fa00002fc100030200003061000308000030a100030c0000310100031200003181,
   0x31c00003241000326000032a100032c00003321000338000033c100033e0000342100034400003461000348000034a100034c00003501,
   0x35200003541000358000035a100035c000036010003620000368100036a000036c100036e000037210003764000378000037a10003804,
   0x388000038a200038c100038e00003902000392100039400003962000398100039a000039c100039e00003a010003a200003a410003a60,
   0x3a810003aa00003ac10003ae00003b010003b200003b410003b600003b810003bc00003be10003c000003c210003c400003c610003c80,
   0x3ca10003cc00003ce10003d000003d210003d400003d610003d800003da10003dc00003de10003e200003e420003e610003e800003ea1,
   0x3ec00003f210003f400003f610003f800003fa10003fc00003fe10004000000402100040400004061000408000040a100040c000040e1,
   0x4100000412100041400004161000418000041a100041c000041e10004200000422100042400004261000428000042a100042c000042e1,
   0x4300000432100043400004361000438000043a100043c000043e10004400000442100044400004461000448000044a100044c000044e1,
   0x4500000452100045400004561000458000045a100045c000045e100046000004621000464000046610004740000478100047a000047e1,
   0x48200004841000486000048e10004900000492100049400004961000498000049a100049c000049e1000528400052a100056030005854,
   0x58c30005a540005c030005cb40005d830005db40005dc30005df400060050006e000006e210006e400006e610006e830006eb40006ec0,
   0x6ee10006f1d0006f430006f610006fd10006fe0000701d000709400070c000070f10007100000717d000718000071bd00071c00007201,
   0x7220000745d0007460000758100079e00007a010007a400007aa10007b000007b210007b400007b610007b800007ba10007bc00007be1,
   0x7c000007c210007c400007c610007c800007ca10007cc00007ce10007d000007d210007d400007d610007d800007da10007dc00007de1,
   0x7e800007ea10007ed20007ee00007f010007f200007f610007fa000086010008c000008c210008c400008c610008c800008ca10008cc0,
   0x8ce10008d000008d210008d400008d610008d800008da10008dc00008de10008e000008e210008e400008e610008e800008ea10008ec0,
   0x8ee10008f000008f210008f400008f610008f800008fa10008fc00008fe10009000000902100090550009065000910700091400009161,
   0x918000091a100091c000091e10009200000922100092400009261000928000092a100092c000092e10009300000932100093400009361,
   0x938000093a100093c000093e10009400000942100094400009461000948000094a100094c000094e10009500000952100095400009561,
   0x958000095a100095c000095e10009600000962100096400009661000968000096a100096c000096e10009700000972100097400009761]

/-- Runs of code points, 28 bits each, the first in the highest bits: first code point, then the category (R269) in 5 bits. -/
def catRuns1 : List Nat :=
  [0x978000097a100097c000097e1000980000098410009860000988100098a000098c100098e000099010009920000994100099600009981,
   0x99a000099c10009a000009a210009a400009a610009a800009aa10009ac00009ae10009b000009b210009b400009b610009b800009ba1,
   0x9bc00009be10009c000009c210009c400009c610009c800009ca10009cc00009ce10009d000009d210009d400009d610009d800009da1,
   0x9dc00009de10009e000009e210009e400009e610009e800009ea10009ec00009ee10009f000009f210009f400009f610009f800009fa1,
   0x9fc00009fe1000a000000a021000a040000a061000a080000a0a1000a0c0000a0e1000a100000a121000a140000a161000a180000a1a1,
   0xa1c0000a1e1000a200000a221000a240000a261000a280000a2a1000a2c0000a2e1000a300000a321000a340000a361000a380000a3a1,
   0xa3c0000a3e1000a400000a421000a440000a461000a480000a4a1000a4c0000a4e1000a500000a521000a540000a561000a580000a5a1,
   0xa5c0000a5e1000a61d000a620000aafd000ab23000ab51000ac01000b131000b14c000b17d000b1b5000b1f3000b21d000b225000b7cc,
   0xb7e5000b811000b825000b871000b885000b8d1000b8e5000b91d000ba04000bd7d000bde4000be71000bebd000c01a000c0d2000c131,
   0xc173000c191000c1d5000c205000c371000c39a000c3b1000c404000c803000c824000c965000cc08000cd51000cdc4000ce05000ce24,
   0xda91000daa4000dac5000dbba000dbd5000dbe5000dca3000dce5000dd35000dd45000ddc4000de08000df44000dfb5000dfe4000e011,
   0xe1dd000e1fa000e204000e225000e244000e605000e97d000e9a4000f4c5000f624000f65d000f808000f944000fd65000fe83000fed5,
   0xfef1000ff43000ff7d000ffa5000ffd3001000400102c500103430010365001048300104a50010503001052500105dd001061100107fd,
   0x108040010b250010b9d0010bd10010bfd0010c040010d7d0010e040011114001112400111fd001121a001125d001130500114040011923,
   0x119450011c5a0011c650012066001208400127450012766001278500127a400127c60012825001292600129a500129c60012a040012a25,
   0x12b040012c450012c910012cc80012e110012e230012e4400130250013046001309d00130a400131bd00131e4001323d0013264001353d,
   0x13544001363d0013644001367d00136c4001375d001378500137a400137c6001382500138bd00138e6001393d001396600139a500139c4,
   0x139fd0013ae60013b1d0013b840013bdd0013be40013c450013c9d0013cc80013e040013e530013e8a0013f550013f730013f840013fb1,
   0x13fc50013ffd00140250014066001409d00140a4001417d00141e4001423d0014264001453d0014544001463d0014644001469d00146a4,
   0x146fd0014704001475d001478500147bd00147c60014825001487d00148e5001493d001496500149dd0014a250014a5d0014b240014bbd,
   0x14bc40014bfd0014cc80014e050014e440014ea50014ed10014efd00150250015066001509d00150a400151dd00151e4001525d0015264,
   0x1553d0015544001563d0015644001569d00156a4001575d001578500157a400157c6001582500158dd00158e50015926001595d0015966,
   0x159a500159dd0015a040015a3d0015c040015c450015c9d0015cc80015e110015e330015e5d0015f240015f45001601d00160250016046,
   0x1609d00160a400161bd00161e4001623d0016264001653d0016544001663d0016644001669d00166a4001675d001678500167a400167c6,
   0x167e50016806001682500168bd00168e6001693d001696600169a500169dd0016aa50016ae60016b1d0016b840016bdd0016be40016c45,
   0x16c9d0016cc80016e150016e240016e4a0016f1d00170450017064001709d00170a4001717d00171c4001723d001724400172dd0017324,
   0x1737d001738400173bd00173c4001741d001746400174bd0017504001757d00175c4001775d00177c600178050017826001787d00178c6,
   0x1793d001794600179a500179dd0017a040017a3d0017ae60017b1d0017cc80017e0a0017e750017f330017f550017f7d00180050018026,
   0x1808500180a400181bd00181c4001823d0018244001853d0018544001875d001878500187a400187c5001882600188bd00188c5001893d,
   0x1894500189dd0018aa50018afd0018b040018b7d0018ba40018bdd0018c040018c450018c9d0018cc80018e1d0018ef10018f0a0018ff5,
   0x1900400190250019046001909100190a400191bd00191c4001923d0019244001953d0019544001969d00196a4001975d001978500197a4,
   0x197c600197e5001980600198bd00198c500198e6001993d0019946001998500199dd0019aa60019afd0019ba40019bfd0019c040019c45]

/-- Runs of code points, 28 bits each, the first in the highest bits: first code point, then the category (R269) in 5 bits. -/
def catRuns2 : List Nat :=
  [0x19c9d0019cc80019e1d0019e240019e660019e9d001a005001a046001a084001a1bd001a1c4001a23d001a244001a765001a7a4001a7c6,
   0x1a825001a8bd001a8c6001a93d001a946001a9a5001a9c4001a9f5001aa1d001aa84001aae6001ab0a001abe4001ac45001ac9d001acc8,
   0x1ae0a001af35001af44001b01d001b025001b046001b09d001b0a4001b2fd001b344001b65d001b664001b79d001b7a4001b7dd001b804,
   0x1b8fd001b945001b97d001b9e6001ba45001babd001bac5001bafd001bb06001bc1d001bcc8001be1d001be46001be91001bebd001c024,
   0x1c625001c644001c685001c77d001c7f3001c804001c8c3001c8e5001c9f1001ca08001cb51001cb9d001d024001d07d001d084001d0bd,
   0x1d0c4001d17d001d184001d49d001d4a4001d4dd001d4e4001d625001d644001d685001d7a4001d7dd001d804001d8bd001d8c3001d8fd,
   0x1d905001d9fd001da08001db5d001db84001dc1d001e004001e035001e091001e275001e291001e2b5001e305001e355001e408001e54a,
   0x1e695001e6a5001e6d5001e6e5001e715001e725001e74d001e76e001e78d001e7ae001e7c6001e804001e91d001e924001edbd001ee25,
   0x1efe6001f005001f0b1001f0c5001f104001f1a5001f31d001f325001f7bd001f7d5001f8c5001f8f5001f9bd001f9d5001fa11001fab5,
   0x1fb31001fb7d0020004002056600205a50020626002064500207060020725002076600207a500207e4002080800209510020a040020ac6,
   0x20b050020b440020bc50020c240020c460020ca40020ce60020dc40020e250020ea40021045002106600210a500210e600211a500211c4,
   0x211e60021208002134600213a500213d5002140000218dd00218e0002191d00219a000219dd0021a010021f710021f830021fa10022004,
   0x2493d002494400249dd0024a040024afd0024b040024b3d0024b440024bdd0024c04002513d002514400251dd0025204002563d0025644,
   0x256dd002570400257fd0025804002583d002584400258dd00259040025afd0025b04002623d002624400262dd00263040026b7d0026ba5,
   0x26c110026d2a0026fbd00270040027215002735d00274000027edd0027f010027fdd002800c0028024002cdb5002cdd1002cde4002d016,
   0x2d024002d36d002d38e002d3bd002d404002dd71002ddc9002de24002df3d002e004002e245002e2a6002e2dd002e3e4002e645002e686,
   0x2e6b1002e6fd002e804002ea45002ea9d002ec04002edbd002edc4002ee3d002ee45002ee9d002f004002f685002f6c6002f6e5002f7c6,
   0x2f8c5002f8e6002f925002fa91002fae3002fb11002fb73002fb84002fba5002fbdd002fc08002fd5d002fe0a002ff5d003001100300cc,
   0x300f1003016500301da00301e50030208003035d0030404003086300308840030f3d003100400310a500310e400315250031544003157d,
   0x316040031edd003200400323fd0032405003246600324e50032526003259d0032606003264500326660032725003279d0032815003283d,
   0x3289100328c80032a040032ddd0032e040032ebd0033004003359d0033604003395d0033a080033b4a0033b7d0033bd5003400400342e5,
   0x343260034365003439d00343d100344040034aa60034ac50034ae60034b050034bfd0034c050034c260034c450034c660034ca50034da6,
   0x34e650034fbd0034fe50035008003515d0035208003535d003541100354e3003551100355dd003560500357c700357e500359fd0036005,
   0x3608600360a4003668500366a600366c50036766003678500367a60036845003686600368a400369bd0036a080036b510036c350036d65,
   0x36e950036fb10036ffd0037005003704600370640037426003744500374c600375050037546003756500375c4003760800377440037cc5,
   0x37ce60037d050037d460037da50037dc60037de50037e460037e9d0037f91003800400384860038585003868600386c5003871d0038771,
   0x38808003895d00389a40038a080038b440038f030038fd10039001003913d0039200003977d00397a00039811003991d0039a050039a71,
   0x39a850039c260039c450039d240039da50039dc40039e850039ea40039ee60039f050039f440039f7d003a001003a583003ad61003af03,
   0x3af21003b363003b805003c000003c021003c040003c061003c080003c0a1003c0c0003c0e1003c100003c121003c140003c161003c180,
   0x3c1a1003c1c0003c1e1003c200003c221003c240003c261003c280003c2a1003c2c0003c2e1003c300003c321003c340003c361003c380,
   0x3c3a1003c3c0003c3e1003c400003c421003c440003c461003c480003c4a1003c4c0003c4e1003c500003c521003c540003c561003c580,
   0x3c5a1003c5c0003c5e1003c600003c621003c640003c661003c680003c6a1003c6c0003c6e1003c700003c721003c740003c761003c780]

/-- Runs of code points, 28 bits each, the first in the highest bits: first code point, then the category (R269) in 5 bits. -/
def catRuns3 : List Nat :=
  [0x3c7a1003c7c0003c7e1003c800003c821003c840003c861003c880003c8a1003c8c0003c8e1003c900003c921003c940003c961003c980,
   0x3c9a1003c9c0003c9e1003ca00003ca21003ca40003ca61003ca80003caa1003cac0003cae1003cb00003cb21003cb40003cb61003cb80,
   0x3cba1003cbc0003cbe1003cc00003cc21003cc40003cc61003cc80003cca1003ccc0003cce1003cd00003cd21003cd40003cd61003cd80,
   0x3cda1003cdc0003cde1003ce00003ce21003ce40003ce61003ce80003cea1003cec0003cee1003cf00003cf21003cf40003cf61003cf80,
   0x3cfa1003cfc0003cfe1003d000003d021003d040003d061003d080003d0a1003d0c0003d0e1003d100003d121003d140003d161003d180,
   0x3d1a1003d1c0003d1e1003d200003d221003d240003d261003d280003d2a1003d3c0003d3e1003d400003d421003d440003d461003d480,
   0x3d4a1003d4c0003d4e1003d500003d521003d540003d561003d580003d5a1003d5c0003d5e1003d600003d621003d640003d661003d680,
   0x3d6a1003d6c0003d6e1003d700003d721003d740003d761003d780003d7a1003d7c0003d7e1003d800003d821003d840003d861003d880,
   0x3d8a1003d8c0003d8e1003d900003d921003d940003d961003d980003d9a1003d9c0003d9e1003da00003da21003da40003da61003da80,
   0x3daa1003dac0003dae1003db00003db21003db40003db61003db80003dba1003dbc0003dbe1003dc00003dc21003dc40003dc61003dc80,
   0x3dca1003dcc0003dce1003dd00003dd21003dd40003dd61003dd80003dda1003ddc0003dde1003de00003de21003de40003de61003de80,
   0x3dea1003dec0003dee1003df00003df21003df40003df61003df80003dfa1003dfc0003dfe1003e100003e201003e2dd003e300003e3dd,
   0x3e401003e500003e601003e700003e801003e8dd003e900003e9dd003ea01003eb1d003eb20003eb5d003eb60003eb9d003eba0003ebdd,
   0x3ebe0003ec01003ed00003ee01003efdd003f001003f102003f201003f302003f401003f502003f601003f6bd003f6c1003f700003f782,
   0x3f7b4003f7c1003f7f4003f841003f8bd003f8c1003f900003f982003f9b4003fa01003fa9d003fac1003fb00003fb9d003fbb4003fc01,
   0x3fd00003fdb4003fe1d003fe41003febd003fec1003ff00003ff82003ffb4003fffd0040016004017a004020c00402d1004030f0040330,
   0x4034d004036f00403b000403cd00403ef004041100405170040538004055a00405f60040611004072f0040750004077100407eb0040831,
   0x4089200408ad00408ce00408f10040a520040a710040a8b0040ab10040bf60040c1a0040cbd0040cda0040e0a0040e230040e5d0040e8a,
   0x40f520040fad0040fce0040fe3004100a004115200411ad00411ce00411fd004120300413bd0041413004183d0041a050041ba70041c25,
   0x41c470041ca50041e3d00420150042040004207500420e000421150042141004216000421c100422000042261004229500422a000422d5,
   0x42312004232000423d5004248000424b500424c000424f500425000042535004254000425d500425e10042600004268100426a40042721,
   0x42755004278100427c0004281200428a000428c100429550042972004299500429c100429f50042a0a0042c090043060004308100430a9,
   0x4312a0043155004319d004321200432b500433520043395004341200434350043472004349500434d200434f500435d200435f500439d2,
   0x43a150043a520043a750043a920043ab50043e920046015004610d004612e004614d004616e004619500464120046455004652d004654e,
   0x465750046f920046fb5004737200476950047b920047c5500484fd0048815004897d0048c0a00493950049d4a004a015004b6f2004b715,
   0x4b832004b855004bf12004c015004cdf2004ce15004ed0d004ed2e004ed4d004ed6e004ed8d004edae004edcd004edee004ee0d004ee2e,
   0x4ee4d004ee6e004ee8d004eeae004eeca004f295004f812004f8ad004f8ce004f8f2004fccd004fcee004fd0d004fd2e004fd4d004fd6e,
   0x4fd8d004fdae004fdcd004fdee004fe1200500150052012005306d005308e00530ad00530ce00530ed005310e005312d005314e005316d,
   0x5318e00531ad00531ce00531ed005320e005322d005324e005326d005328e00532ad00532ce00532ed005330e00533320053b0d0053b2e,
   0x53b4d0053b6e0053b920053f8d0053fae0053fd20056015005661200568b500568f200569b50056e9d0056ed500572dd00572f50058000,
   0x586010058c000058c210058c400058ca10058ce00058d010058d200058d410058d600058d810058da00058e210058e400058e610058ea0,
   0x58ec10058f830058fc0005902100590400059061005908000590a100590c000590e10059100005912100591400059161005918000591a1]

/-- Runs of code points, 28 bits each, the first in the highest bits: first code point, then the category (R269) in 5 bits. -/
def catRuns4 : List Nat :=
  [0x591c000591e10059200005922100592400059261005928000592a100592c000592e10059300005932100593400059361005938000593a1,
   0x593c000593e10059400005942100594400059461005948000594a100594c000594e10059500005952100595400059561005958000595a1,
   0x595c000595e10059600005962100596400059661005968000596a100596c000596e10059700005972100597400059761005978000597a1,
   0x597c000597e10059800005982100598400059861005988000598a100598c000598e10059900005992100599400059961005998000599a1,
   0x599c000599e10059a000059a210059a400059a610059a800059aa10059ac00059ae10059b000059b210059b400059b610059b800059ba1,
   0x59bc00059be10059c000059c210059c400059c610059cb50059d600059d810059da00059dc10059de50059e400059e610059e9d0059f31,
   0x59faa0059fd1005a001005a4dd005a4e1005a51d005a5a1005a5dd005a604005ad1d005ade3005ae11005ae3d005afe5005b004005b2fd,
   0x5b404005b4fd005b504005b5fd005b604005b6fd005b704005b7fd005b804005b8fd005b904005b9fd005ba04005bafd005bb04005bbfd,
   0x5bc05005c011005c04f005c070005c08f005c0b0005c0d1005c12f005c150005c171005c18f005c1b0005c1d1005c2ec005c311005c34c,
   0x5c371005c38f005c3b0005c3d1005c40f005c430005c44d005c46e005c48d005c4ae005c4cd005c4ee005c50d005c52e005c551005c5e3,
   0x5c611005c74c005c791005c80c005c831005c84d005c871005ca15005ca51005caad005cace005caed005cb0e005cb2d005cb4e005cb6d,
   0x5cb8e005cbac005cbdd005d015005d35d005d375005de9d005e015005fadd005fe1500600160060031006009500600a300600c400600e9,
   0x6010d006012e006014d006016e006018d00601ae00601cd00601ee006020d006022e0060255006028d00602ae00602cd00602ee006030d,
   0x6032e006034d006036e006038c00603ad00603ce00604150060429006054500605c6006060c006062300606d5006070900607630060784,
   0x607b100607d5006081d006082400612fd0061325006137400613a300613e4006140c00614240061f710061f830061fe4006201d00620a4,
   0x6261d006262400631fd0063215006324a00632d5006340400638150063c9d0063df50063e04006401500643fd006440a0064555006490a,
   0x64a150064a2a0064c15006500a0065155006562a00658150068004009b815009c00401402a301402c401491bd014921501498fd0149a04,
   0x149f030149fd1014a004014c183014c1b1014c204014c408014c544014c59d014c800014c821014c840014c861014c880014c8a1014c8c0,
   0x14c8e1014c900014c921014c940014c961014c980014c9a1014c9c0014c9e1014ca00014ca21014ca40014ca61014ca80014caa1014cac0,
   0x14cae1014cb00014cb21014cb40014cb61014cb80014cba1014cbc0014cbe1014cc00014cc21014cc40014cc61014cc80014cca1014ccc0,
   0x14cce1014cd00014cd21014cd40014cd61014cd80014cda1014cdc4014cde5014ce07014ce71014ce85014cfd1014cfe3014d000014d021,
   0x14d040014d061014d080014d0a1014d0c0014d0e1014d100014d121014d140014d161014d180014d1a1014d1c0014d1e1014d200014d221,
   0x14d240014d261014d280014d2a1014d2c0014d2e1014d300014d321014d340014d361014d383014d3c5014d404014dcc9014de05014de51,
   0x14df1d014e014014e2e3014e414014e440014e461014e480014e4a1014e4c0014e4e1014e500014e521014e540014e561014e580014e5a1,
   0x14e5c0014e5e1014e640014e661014e680014e6a1014e6c0014e6e1014e700014e721014e740014e761014e780014e7a1014e7c0014e7e1,
   0x14e800014e821014e840014e861014e880014e8a1014e8c0014e8e1014e900014e921014e940014e961014e980014e9a1014e9c0014e9e1,
   0x14ea00014ea21014ea40014ea61014ea80014eaa1014eac0014eae1014eb00014eb21014eb40014eb61014eb80014eba1014ebc0014ebe1,
   0x14ec00014ec21014ec40014ec61014ec80014eca1014ecc0014ece1014ed00014ed21014ed40014ed61014ed80014eda1014edc0014ede1,
   0x14ee03014ee21014ef20014ef41014ef60014ef81014efa0014efe1014f000014f021014f040014f061014f080014f0a1014f0c0014f0e1,
   0x14f103014f134014f160014f181014f1a0014f1c1014f1e4014f200014f221014f240014f261014f2c0014f2e1014f300014f321014f340,
   0x14f361014f380014f3a1014f3c0014f3e1014f400014f421014f440014f461014f480014f4a1014f4c0014f4e1014f500014f521014f540,
   0x14f5e1014f600014f6a1014f6c0014f6e1014f700014f721014f740014f761014f780014f7a1014f7c0014f7e1014f800014f821014f840]

/-- Runs of code points, 28 bits each, the first in the highest bits: first code point, then the category (R269) in 5 bits. -/
def catRuns5 : List Nat :=
  [0x14f861014f880014f901014f920014f941014f97d014fa00014fa21014fa5d014fa61014fa9d014faa1014fac0014fae1014fb00014fb21,
   0x14fb5d014fe43014fea0014fec1014fee4014ff03014ff41014ff640150045015006401500c501500e401501650150184015046601504a5,
   0x1504e60150515015058501505bd015060a01506d501507130150735015075d01508040150e910150f1d0151006015104401516860151885,
   0x1518dd01519d10151a080151b5d0151c050151e440151f110151f640151f910151fa40151fe50152008015214401524c501525d10152604,
   0x1528e50152a460152a9d0152bf10152c040152fbd0153005015306601530840153665015368601536c50153746015378501537c60153831,
   0x1539dd01539e30153a080153b5d0153bd10153c040153ca50153cc30153ce40153e080153f440153ffd0154004015452501545e60154625,
   0x15466601546a501546fd015480401548650154884015498501549a601549dd0154a080154b5d0154b910154c040154e030154e240154ef5,
   0x154f440154f660154f850154fa60154fc401556050155624015564501556a401556e5015572401557c5015580401558250155844015587d,
   0x155b640155ba30155bd10155c040155d660155d850155dc60155e110155e440155e630155ea60155ec50155efd015602401560fd0156124,
   0x1561fd015622401562fd015640401564fd015650401565fd01566010156b740156b830156c010156d230156d540156d9d0156e010157804,
   0x157c660157ca50157cc60157d050157d260157d710157d860157da50157ddd0157e080157f5d015800401af49d01af60401af8fd01af964,
   0x1aff9d01b001b01c001c01f200401f4ddd01f4e0401f5b5d01f600101f60fd01f626101f631d01f63a401f63c501f63e401f653201f6544,
   0x1f66fd01f670401f67bd01f67c401f67fd01f680401f685d01f686401f68bd01f68c401f765401f787d01f7a6401fa7ce01fa7ed01fa815,
   0x1faa0401fb21d01fb24401fb91d01fb9f501fba1d01fbe0401fbf9301fbfb501fc00501fc21101fc2ed01fc30e01fc33101fc35d01fc405,
   0x1fc61101fc62c01fc66b01fc6ad01fc6ce01fc6ed01fc70e01fc72d01fc74e01fc76d01fc78e01fc7ad01fc7ce01fc7ed01fc80e01fc82d,
   0x1fc84e01fc86d01fc88e01fc8b101fc8ed01fc90e01fc93101fc9ab01fca1101fca7d01fca9101fcb0c01fcb2d01fcb4e01fcb6d01fcb8e,
   0x1fcbad01fcbce01fcbf101fcc5201fcc6c01fcc9201fccfd01fcd1101fcd3301fcd5101fcd9d01fce0401fcebd01fcec401fdfbd01fdffa,
   0x1fe01d01fe03101fe09301fe0b101fe10d01fe12e01fe15101fe17201fe19101fe1ac01fe1d101fe20801fe35101fe39201fe3f101fe420,
   0x1fe76d01fe79101fe7ae01fe7d401fe7eb01fe81401fe82101feb6d01feb9201febae01febd201febed01fec0e01fec3101fec4d01fec6e,
   0x1fec9101fecc401fee0301fee2401ff3c301ff40401ff7fd01ff84401ff91d01ff94401ffa1d01ffa4401ffb1d01ffb4401ffbbd01ffc13,
   0x1ffc5201ffc7401ffc9501ffcb301ffcfd01ffd1501ffd3201ffdb501ffdfd01fff3a01fff9501fffdd0200004020019d02001a402004fd,
   0x200504020077d020078402007dd02007e402009dd0200a040200bdd02010040201f7d0202011020207d02020ea020269d02026f50202809,
   0x202eaa0202f35020314a020319502031fd020321502033bd0203415020343d0203a150203fa50203fdd020500402053bd02054040205a3d,
   0x205c050205c2a0205f9d0206004020640a020649d02065a4020682902068440206949020697d0206a040206ec50206f7d020700402073dd,
   0x2073f10207404020789d02079040207a110207a290207add020800002085010208a0402093dd0209408020955d02096000209a9d0209b01,
   0x209f9d020a004020a51d020a604020ac9d020adf1020ae00020af7d020af80020b17d020b180020b27d020b280020b2dd020b2e1020b45d,
   0x20b461020b65d020b661020b75d020b761020b7bd020c004020e6fd020e804020eadd020ec04020ed1d020f003020f0dd020f0e3020f63d,
   0x20f643020f77d021000402100dd0210104021013d021014402106dd02106e4021073d021078402107bd02107e40210add0210af10210b0a,
   0x210c040210ef50210f2a021100402113fd02114ea021161d0211c040211e7d0211e840211edd0211f6a021200402122ca021239d02123f1,
   0x212404021275d02127f1021281d0213004021371d021378a02137c4021380a0213a1d0213a4a02140040214025021409d02140a502140fd,
   0x2141850214204021429d02142a4021431d021432402146dd0214705021477d02147e5021480a021493d0214a110214b3d0214c040214faa,
   0x214ff1021500402153aa021541d0215804021591502159240215ca50215cfd0215d6a0215e110215efd021600402166dd02167310216804]

/-- Runs of code points, 28 bits each, the first in the highest bits: first code point, then the category (R269) in 5 bits. -/
def catRuns6 : List Nat :=
  [0x216add0216b0a0216c040216e7d0216f0a0217004021725d021733102173bd021752a021761d0218004021893d0219000021967d0219801,
   0x219e7d0219f4a021a004021a485021a51d021a608021a75d021cc0a021cffd021d004021d55d021d565021d5ac021d5dd021d604021d65d,
   0x21dfa5021e004021e3aa021e4e4021e51d021e604021e8c5021ea2a021eab1021eb5d021ee04021f045021f0d1021f15d021f604021f8aa,
   0x21f99d021fc04021fefd0220006022002502200460220064022070502208f102209dd0220a4a0220cc80220e050220e240220e650220ea4,
   0x220edd0220fe5022104602210640221606022166502216e60221725022177102217ba02217d10221845022187d02219ba02219dd0221a04,
   0x221d3d0221e080221f5d0222005022206402224e5022258602225a502226bd02226c80222811022288402228a602228e4022291d0222a04,
   0x222e650222e910222ec40222efd022300502230460223064022366602236c502237e6022382402238b1022392502239b102239c602239e5,
   0x223a080223b440223b710223b840223bb10223c1d0223c2a0223ebd0224004022425d0224264022458602245e50224646022468502246a6,
   0x2246c5022471102247c502247e40224825022485d022500402250fd0225104022513d022514402251dd02251e402253dd02253e40225531,
   0x22555d02256040225be50225c060225c650225d7d0225e080225f5d02260050226046022609d02260a402261bd02261e4022623d0226264,
   0x22653d0226544022663d0226644022669d02266a4022675d022676502267a402267c60226805022682602268bd02268e6022693d0226966,
   0x2269dd0226a040226a3d0226ae60226b1d0226ba40226c460226c9d0226cc50226dbd0226e050226ebd022800402286a602287050228806,
   0x22884502288a602288c502288e402289710228a080228b510228b9d0228bb10228bc50228be40228c5d0229004022960602296650229726,
   0x229745022976602297e502298260229845022988402298d102298e4022991d0229a080229b5d022b004022b5e6022b645022b6dd022b706,
   0x22b785022b7c6022b7e5022b831022bb04022bb85022bbdd022c004022c606022c665022c766022c7a5022c7c6022c7e5022c831022c884,
   0x22c8bd022ca08022cb5d022cc11022cdbd022d004022d565022d586022d5a5022d5c6022d605022d6c6022d6e5022d704022d731022d75d,
   0x22d808022d95d022e004022e37d022e3a5022e406022e445022e4c6022e4e5022e59d022e608022e74a022e791022e7f5022e804022e8fd,
   0x230004023058602305e5023070602307250230771023079d023140002318010231c080231d4a0231e7d0231fe402320fd0232124023215d,
   0x232184023229d02322a402322fd0232304023260602326dd02326e6023273d023276502327a602327c502327e4023280602328240232846,
   0x232865023289102328fd0232a080232b5d0233404023351d02335440233a260233a850233b1d0233b450233b860233c050233c240233c51,
   0x233c640233c860233cbd023400402340250234164023466502347260234744023476502347f102348e5023491d0234a040234a250234ae6,
   0x234b250234b84023514502352e60235305023535102353a402353d1023547d02356040235f3d0236011023615d0238004023813d0238144,
   0x2385e6023860502386fd023870502387c602387e50238804023883102388dd0238a080238b4a0238dbd0238e110238e44023921d0239245,
   0x23951d0239526023954502396260239645023968602396a502396fd023a004023a0fd023a104023a15d023a164023a625023a6fd023a745,
   0x23a77d023a785023a7dd023a7e5023a8c4023a8e5023a91d023aa08023ab5d023ac04023acdd023ace4023ad3d023ad44023b146023b1fd,
   0x23b205023b25d023b266023b2a5023b2c6023b2e5023b304023b33d023b408023b55d023dc04023de65023dea6023def1023df3d023e005,
   0x23e044023e066023e084023e23d023e244023e686023e6c5023e77d023e7c6023e805023e826023e845023e871023ea08023eb5d023f604,
   0x23f63d023f80a023fab5023fbb3023fc35023fe5d023fff10240004024735d02480090248dfd0248e110248ebd0249004024a89d025f204,
   0x25fe31025fe7d0260004026861a0268805026882402688e50268add0288004028c8fd02d000402d473d02d480402d4bfd02d4c0802d4d5d,
   0x2d4dd102d4e0402d57fd02d580802d595d02d5a0402d5ddd02d5e0502d5eb102d5edd02d600402d660502d66f102d679502d680302d6891,
   0x2d68b502d68dd02d6a0802d6b5d02d6b6a02d6c5d02d6c6402d6f1d02d6fa402d721d02dc80002dcc0102dd00a02dd2f102dd37d02de004,
   0x2de97d02de9e502dea0402dea2602df11d02df1e502df26302df41d02dfc0302dfc5102dfc6302dfc8502dfcbd02dfe0602dfe5d02e0004]

/-- Runs of code points, 28 bits each, the first in the highest bits: first code point, then the category (R269) in 5 bits. -/
def catRuns7 : List Nat :=
  [0x30ff1d03100040319add031a004031a13d035fe03035fe9d035fea3035ff9d035ffa3035fffd0360004036247d0362644036267d0362a04,
   0x362a7d0362aa40362add0362c840362d1d0362e040365f9d03780040378d7d0378e040378fbd0379004037913d0379204037935d0379395,
   0x3793a503793f1037941a037949d039e005039e5dd039e605039e8fd039ea15039f89d03a001503a1edd03a201503a24fd03a253503a2ca6,
   0x3a2ce503a2d5503a2da603a2e7a03a2f6503a307503a30a503a319503a354503a35d503a3d7d03a401503a484503a48b503a48dd03a580a,
   0x3a5a9d03a5c0a03a5e9d03a601503a6afd03a6c0a03a6f3d03a800003a834103a868003a89c103a8abd03a8ac103a8d0003a904103a9380,
   0x3a93bd03a93c003a941d03a944003a947d03a94a003a94fd03a952003a95bd03a95c003a96c103a975d03a976103a979d03a97a103a989d,
   0x3a98a103a9a0003a9d4103aa08003aa0dd03aa0e003aa17d03aa1a003aa2bd03aa2c003aa3bd03aa3c103aa70003aa75d03aa76003aa7fd,
   0x3aa80003aa8bd03aa8c003aa8fd03aa94003aaa3d03aaa4103aad8003ab0c103ab40003ab74103aba8003abdc103ac10003ac44103ac780,
   0x3acac103ace0003ad14103ad4dd03ad50003ad83203ad84103adb7203adb8103adc4003adf7203adf8103ae2b203ae2c103ae38003ae6b2,
   0x3ae6c103ae9f203aea0103aeac003aedf203aee0103af13203af14103af20003af53203af54103af87203af88103af94003af96103af99d,
   0x3af9c803b001503b400503b46f503b476503b4db503b4ea503b4ed503b508503b50b503b50f103b519d03b536503b541d03b542503b561d,
   0x3be00103be14403be16103be3fd03be4a103be57d03c000503c00fd03c010503c033d03c036503c045d03c046503c04bd03c04c503c057d,
   0x3c060303c0ddd03c11e503c121d03c200403c25bd03c260503c26e303c27dd03c280803c295d03c29c403c29f503c2a1d03c520403c55c5,
   0x3c55fd03c580403c5d8503c5e0803c5f5d03c5ff303c601d03c9a0403c9d6303c9d8503c9e0803c9f5d03cfc0403cfcfd03cfd0403cfd9d,
   0x3cfda403cfdfd03cfe0403cfffd03d000403d18bd03d18ea03d1a0503d1afd03d200003d244103d288503d296303d299d03d2a0803d2b5d,
   0x3d2bd103d2c1d03d8e2a03d959503d95aa03d961303d962a03d96bd03da02a03da5d503da5ea03da7dd03dc00403dc09d03dc0a403dc41d,
   0x3dc42403dc47d03dc48403dc4bd03dc4e403dc51d03dc52403dc67d03dc68403dc71d03dc72403dc75d03dc76403dc79d03dc84403dc87d,
   0x3dc8e403dc91d03dc92403dc95d03dc96403dc99d03dc9a403dca1d03dca2403dca7d03dca8403dcabd03dcae403dcb1d03dcb2403dcb5d,
   0x3dcb6403dcb9d03dcba403dcbdd03dcbe403dcc1d03dcc2403dcc7d03dcc8403dccbd03dcce403dcd7d03dcd8403dce7d03dce8403dcf1d,
   0x3dcf2403dcfbd03dcfc403dcffd03dd00403dd15d03dd16403dd39d03dd42403dd49d03dd4a403dd55d03dd56403dd79d03dde1203dde5d,
   0x3e001503e059d03e061503e129d03e141503e15fd03e163503e181d03e183503e1a1d03e1a3503e1edd03e200a03e21b503e35dd03e3cd5,
   0x3e407d03e421503e479d03e481503e493d03e4a1503e4a5d03e4c1503e4cdd03e601503e7f7403e801503edb1d03edb9503eddbd03ede15,
   0x3edfbd03ee01503eeefd03eef7503efb5d03efc1503efd9d03efe1503efe3d03f001503f019d03f021503f091d03f0a1503f0b5d03f0c15,
   0x3f111d03f121503f15dd03f161503f165d03f201503f4a9d03f4c1503f4ddd03f4e1503f4fbd03f501503f513d03f521503f57dd03f57f5,
   0x3f58dd03f59d503f5b9d03f5c1503f5d3d03f5e1503f5f3d03f601503f727d03f729503f797d03f7e0803f7f5d0400004054dc1d054e004,
   0x56e75d056e80405703dd0570404059d45d059d60405d7c3d05d7e0405dcbdd05f000405f43dd0600004062697d0626a04064761d1c0003a,
   0x1c0005d1c0041a1c0101d1c020051c03e1d1e0001c1ffffdd200001c21fffdd21fffdd21fffdd21fffdd21fffdd21fffdd21fffdd21fffdd]

/-- Run i of sixteen. -/
def catRun (n i : Nat) : Nat := n / 2 ^ (28 * (15 - i)) % 2 ^ 28

/-- The last number whose first run starts at or below code point c. -/
def catPick (c : Nat) : List Nat → Nat → Nat
  | [], n => n
  | h :: t, n => if catRun h 0 / 32 ≤ c then catPick c t h else n

/-- The general category of code point c, as the class table numbers them (R269). PRESUMED (log entry 10). -/
def generalCategory (c : Nat) : Nat :=
  let n := catPick c (catRuns0 ++ catRuns1 ++ catRuns2 ++ catRuns3 ++ catRuns4 ++ catRuns5 ++ catRuns6 ++ catRuns7) 0
  (List.range 16).foldl (fun r i => if catRun n i / 32 ≤ c then catRun n i % 32 else r) 29

end Sys2Proof.Machine
end

