-- ==== Sys2Proof/Machine/Text.lean ====
section
/-! DEFINITION. Text (11): UTF-8 and its ill-formed subsequences, trie images, pieces and tokens, the strainer, grammar masks, prompt
packing; what TOKENIZE, DETOKENIZE and PACK write. -/

namespace Sys2Proof.Machine

/-! ### UTF-8 (R269) -/

/-- What a unit of text is: a well-formed character with its code point, a maximal ill-formed subsequence, or a character that the
text ends inside of, well-formed so far. -/
inductive UKind where
  | char (c : Nat)
  | bad
  | cut
  deriving DecidableEq, Repr

structure TUnit where
  kind : UKind
  bytes : List Byte
  deriving DecidableEq, Repr

/-- Following bytes a lead byte asks for and the range of the first of them; none for a byte that leads no character (RFC 3629). -/
def utf8Lead (b : Nat) : Option (Nat × Nat × Nat) :=
  if b < 0x80 then some (0, 0, 0)
  else if b < 0xC2 then none
  else if b < 0xE0 then some (1, 0x80, 0xBF)
  else if b = 0xE0 then some (2, 0xA0, 0xBF)
  else if b = 0xED then some (2, 0x80, 0x9F)
  else if b < 0xF0 then some (2, 0x80, 0xBF)
  else if b = 0xF0 then some (3, 0x90, 0xBF)
  else if b < 0xF4 then some (3, 0x80, 0xBF)
  else if b = 0xF4 then some (3, 0x80, 0x8F)
  else none

/-- How many of the n bytes wanted follow in their ranges. -/
def utf8Follow : Nat → Nat → Nat → List Byte → Nat
  | 0, _, _, _ => 0
  | _, _, _, [] => 0
  | n + 1, lo, hi, b :: t => if lo ≤ b.toNat && b.toNat ≤ hi then 1 + utf8Follow n 0x80 0xBF t else 0

/-- The first unit of a text that is not empty. -/
def utf8First (bs : List Byte) : TUnit :=
  let b := (nth 0#8 bs 0).toNat
  match utf8Lead b with
  | none => ⟨.bad, bs.take 1⟩
  | some (n, lo, hi) =>
    let k := utf8Follow n lo hi (bs.drop 1)
    if k = n then
      let c := (bs.drop 1).take n
      ⟨.char (c.foldl (fun v x => v * 64 + x.toNat % 64) (if n = 0 then b else b % 2 ^ (6 - n))), bs.take (n + 1)⟩
    else if bs.length = k + 1 then ⟨.cut, bs⟩
    else ⟨.bad, bs.take (k + 1)⟩

/-- A text as units. -/
def utf8Units : Nat → List Byte → List TUnit
  | 0, _ => []
  | _ + 1, [] => []
  | n + 1, bs => let u := utf8First bs; u :: utf8Units n (bs.drop u.bytes.length)

def unitsOf (bs : List Byte) : List TUnit := utf8Units bs.length bs

/-- A text is valid UTF-8. -/
def utf8Valid (bs : List Byte) : Bool := (unitsOf bs).all (fun u => match u.kind with | .char _ => true | _ => false)

/-- U+FFFD. -/
def replacement : List Byte := [0xEF#8, 0xBF#8, 0xBD#8]

/-! ### Trie images (R267, R268) -/

structure Trie where
  byteFb : Bool
  vocab : Nat
  nodes : Nat
  byteBase : Nat
  replace : Nat
  nodeBase : Nat
  edgeBase : Nat
  strIndex : Nat
  strBase : Nat
  classBase : Nat
  deriving DecidableEq, Repr

def trieOf (b : List Byte) : Trie :=
  ⟨bit (fld b 2 2) 0, fld b 4 4, fld b 8 4, fld b 0xC 4, fld b 0x10 4, fld b 0x18 8, fld b 0x20 8, fld b 0x28 8, fld b 0x30 8,
    fld b 0x38 8⟩

/-- The first header field of a trie image that breaks the layout (R265, R267). -/
def trieBad (b : List Byte) : Option Nat :=
  let t := trieOf b
  if fld b 0 2 ≠ 1 then some 0
  else if t.vocab = 0 || 2 ^ 20 < t.vocab then some 4
  else if t.nodes = 0 || 2 ^ 28 < t.nodes then some 8
  else if t.byteFb && t.vocab ≤ t.byteBase + 255 then some 0xC
  else if t.vocab ≤ t.replace then some 0x10
  else if !(tieredAddr t.nodeBase) then some 0x18
  else if !(tieredAddr t.edgeBase) then some 0x20
  else if !(tieredAddr t.strIndex) then some 0x28
  else if !(tieredAddr t.strBase) then some 0x30
  else if t.classBase ≠ 0 && !(tieredAddr t.classBase) then some 0x38
  else none

/-- A record of an image that breaks its rules, as it is read (R268). -/
def badImage : Nat × Nat := (0x06, 0x40)

/-- A node's token (none: no token ends there), edges and first edge. -/
def Trie.node (t : Trie) (rd : Reader) (i : Nat) : Except (Nat × Nat) (Option Nat × Nat × Nat) :=
  match rd (t.nodeBase + 16 * i) 16 with
  | .error e => .error (memFail e)
  | .ok b =>
    let tok := fld b 0 4 % 2 ^ 20
    let n := fld b 4 2
    if 256 < n || (tok ≠ 0xFFFFF && t.vocab ≤ tok) then .error badImage
    else .ok (if tok = 0xFFFFF then none else some tok, n, fld b 8 4)

/-- Edges ascend strictly and lead to nodes of the image. -/
def edgesFit (nodes : Nat) : Option Nat → List (Nat × Nat) → Bool
  | _, [] => true
  | last, e :: t => (match last with | none => true | some l => l < e.1) && e.2 < nodes && edgesFit nodes (some e.1) t

/-- The child of a node on a byte. -/
def Trie.child (t : Trie) (rd : Reader) (n first : Nat) (b : Byte) : Except (Nat × Nat) (Option Nat) :=
  match rd (t.edgeBase + 8 * first) (8 * n) with
  | .error e => .error (memFail e)
  | .ok raw =>
    let es := (List.range n).map (fun j => (fld raw (8 * j) 1, fld raw (8 * j + 4) 4))
    if edgesFit t.nodes none es then .ok ((es.find? (fun e => e.1 = b.toNat)).map (·.2)) else .error badImage

/-- The walk of R270 from a node with `n` edges from `first`: the longest token met, with the bytes it takes. -/
def Trie.walk (t : Trie) (rd : Reader) (n first i : Nat) (best : Option (Nat × Nat)) :
    List Byte → Except (Nat × Nat) (Option (Nat × Nat))
  | [] => .ok best
  | b :: rest =>
    match t.child rd n first b with
    | .error e => .error e
    | .ok none => .ok best
    | .ok (some c) =>
      match t.node rd c with
      | .error e => .error e
      | .ok x => Trie.walk t rd x.2.1 x.2.2 (i + 1) (match x.1 with | some k => some (k, i + 1) | none => best) rest

/-- The longest token at the start of some bytes. -/
def Trie.longest (t : Trie) (rd : Reader) (bs : List Byte) : Except (Nat × Nat) (Option (Nat × Nat)) :=
  match t.node rd 0 with
  | .error e => .error e
  | .ok x => t.walk rd x.2.1 x.2.2 0 none bs

/-- A token's string; none for a token at or above VOCAB (R276). -/
def Trie.string (t : Trie) (rd : Reader) (tok : Nat) : Except (Nat × Nat) (Option (List Byte)) :=
  if t.vocab ≤ tok then .ok none
  else match rd (t.strIndex + 8 * tok) 8 with
    | .error e => .error (memFail e)
    | .ok b =>
      let len := fld b 5 2 % 512
      if 256 < len then .error badImage
      else match rd (t.strBase + fld b 0 5) len with
        | .error e => .error (memFail e)
        | .ok s => .ok (some s)

/-! ### Pieces (R269) -/

/-- A piece: its units with their class bytes; an ill-formed subsequence has none. -/
abbrev TPiece := List (TUnit × Option Nat)

def attachNext (c : Option Nat) : Option Bool := c.map (fun b => bit b 4)

/-- A split falls between two units. -/
def splits (a b : Option Nat) : Bool :=
  match a, b with
  | some x, some y => x % 16 != y % 16 || bit x 5 || bit y 5
  | _, _ => true

/-- Units grouped into pieces. -/
def group : List (TUnit × Option Nat) → List TPiece
  | [] => []
  | u :: t =>
    match group t with
    | (v :: p) :: ps => if splits u.2 v.2 then [u] :: (v :: p) :: ps else (u :: v :: p) :: ps
    | ps => [u] :: ps

/-- A last ATTACH_NEXT character moves to the next piece where that begins with another; empty pieces disappear. -/
def attach : List TPiece → Option (TUnit × Option Nat) → List TPiece
  | [], _ => []
  | p :: ps, carry =>
    let lead := ((ps.head?).bind List.head?).bind (fun u => attachNext u.2)
    let move := ((p.getLast?).bind (fun u => attachNext u.2)) = some true && lead = some false
    let own := carry.toList ++ (if move then p.dropLast else p)
    let rest := attach ps (if move then p.getLast? else none)
    if own = [] then rest else own :: rest

/-- The pieces of units; without a class table each run of characters is one piece. -/
def piecesOf (classes : Option (List Byte)) (us : List TUnit) : List TPiece :=
  let cls := fun (u : TUnit) => match u.kind with
    | .char c => (match classes with | some t => some (fld t (generalCategory c) 1) | none => some 0)
    | _ => none
  attach (group (us.map (fun u => (u, cls u)))) none

/-! ### Tokens (R270) -/

/-- What tokenizing makes: tokens in order, byte tokens emitted, REPLACE tokens emitted, units of well-formed text without a token. -/
structure Toks where
  toks : List Nat
  fallback : Nat
  replaced : Nat
  unknown : Nat
  deriving DecidableEq, Repr

/-- Units from which `n` bytes have been taken off the front. -/
def dropBytes : List (TUnit × Option Nat) → Nat → List (TUnit × Option Nat)
  | us, 0 => us
  | [], _ => []
  | u :: t, n + 1 =>
    if n + 1 < u.1.bytes.length then (⟨u.1.kind, u.1.bytes.drop (n + 1)⟩, u.2) :: t
    else dropBytes t (n + 1 - u.1.bytes.length)

/-- Tokens of one piece; `fuel` is its number of bytes. -/
def Trie.piece (t : Trie) (rd : Reader) : Nat → TPiece → Toks → Except (Nat × Nat) Toks
  | 0, _, r => .ok r
  | _, [], r => .ok r
  | fuel + 1, u :: us, r =>
    match t.longest rd ((u :: us).flatMap (·.1.bytes)) with
    | .error e => .error e
    | .ok (some (tok, n)) => Trie.piece t rd fuel (dropBytes (u :: us) n) { r with toks := r.toks ++ [tok] }
    | .ok none =>
      let r := match u.1.kind with
        | .char _ => { r with unknown := r.unknown + 1 }
        | _ => r
      let r : Toks := if t.byteFb then
          { r with
            toks := r.toks ++ u.1.bytes.map (fun b => t.byteBase + b.toNat)
            fallback := r.fallback + u.1.bytes.length }
        else { r with toks := r.toks ++ [t.replace], replaced := r.replaced + 1 }
      Trie.piece t rd fuel us r

def Trie.allPieces (t : Trie) (rd : Reader) : List TPiece → Toks → Except (Nat × Nat) Toks
  | [], r => .ok r
  | p :: ps, r =>
    match t.piece rd (p.flatMap (·.1.bytes)).length p r with
    | .error e => .error e
    | .ok r => Trie.allPieces t rd ps r

/-! ### TOKENIZE (R271 to R275) -/

structure TokDesc where
  slot : Nat
  stream : Nat
  len : Nat
  base : Nat
  limit : Nat
  trunc : Nat
  head : Nat
  out : Nat
  deriving DecidableEq, Repr

def tokenizeOf (b : List Byte) : TokDesc :=
  ⟨fld b 0 2, fld b 2 2, fld b 4 4, fld b 8 8, fld b 0x10 4, fld b 0x14 1, fld b 0x18 4, fld b 0x20 8⟩

/-- Tokens kept under the limit (R275). -/
def TokDesc.keep (d : TokDesc) (l : List Nat) : List Nat :=
  if l.length ≤ d.limit then l
  else if d.trunc = 1 then l.take d.head ++ l.drop (l.length - (d.limit - d.head))
  else l.take d.limit

/-- The units a TOKENIZE works on and the bytes it carries out (R273): `pend` the carried bytes. -/
def TokDesc.units (d : TokDesc) (pend text : List Byte) : List TUnit × List Byte :=
  let asBad := fun (us : List TUnit) => us.map (fun u => if u.kind = .cut then { u with kind := .bad } else u)
  if d.stream ≠ 0xFFFF && d.len = 0 then (if pend = [] then [] else [⟨.bad, pend⟩], [])
  else
    let us := unitsOf (pend ++ text)
    if d.stream = 0xFFFF then (asBad us, [])
    else (us.filter (fun u => u.kind ≠ .cut), (us.filter (fun u => u.kind = .cut)).flatMap (·.bytes))

/-- Everything a TOKENIZE writes. `inline` is the text after the descriptor, `entry` the address of its stream's entry. `stats`: bytes
taken, tokens, ill-formed subsequences, whether truncated. -/
def tokenizeWork (x : Run) (d : TokDesc) (inline : List Byte) (ptr version : Nat) (entry : Option Nat) : Except (Nat × Nat) Out :=
  match x.chk 0 ptr 64 with
  | .error e => .error (memFail e)
  | .ok hd =>
    let t := trieOf hd
    let old : Except MemErr (List Byte) := match entry with | some a => x.rdOf 0 a 16 | none => .ok (List.replicate 16 0#8)
    let text : Except MemErr (List Byte) := if d.base = 0 then .ok (inline.take d.len) else x.rdOf 0 d.base d.len
    let classes : Except MemErr (Option (List Byte)) :=
      if t.classBase = 0 then .ok none else (x.chk 0 t.classBase 32).map some
    match old, text, classes with
    | .error e, _, _ | _, .error e, _ | _, _, .error e => .error (memFail e)
    | .ok o, .ok txt, .ok cls =>
      let pend := (o.drop 1).take (min 3 (fld o 0 1))
      let (us, carry) := d.units pend txt
      match t.allPieces (x.chk 0) (piecesOf cls us) ⟨[], 0, 0, 0⟩ with
      | .error e => .error e
      | .ok r =>
        let bad := (us.filter (fun u => u.kind = .bad)).length
        let kept := d.keep r.toks
        let cutOff := d.limit < r.toks.length
        let ent := match entry with
          | some a => [(⟨0, a, leBytes 1 carry.length ++ padTo 3 carry ++ leBytes 4 0 ++ leBytes 8 (fld o 8 8 + d.len)⟩ : Piece)]
          | none => []
        .ok ⟨(if kept = [] then [] else [(⟨0, d.out, kept.flatMap (leBytes 4)⟩ : Piece)]) ++ ent, kept.length,
          (if cutOff then 4 else 0) + (if bad = 0 then 0 else 16),
          c32 r.toks.length ++ c32 bad ++ c32 r.fallback ++ c32 r.replaced ++ c32 r.unknown ++ c32 pend.length ++ c32 carry.length
            ++ leBytes 4 version,
          [txt.length, kept.length, bad, b2n cutOff]⟩

/-! ### The strainer (R276 to R281) -/

/-- A stop set: each entry's string (R278). -/
abbrev StopSet := List (List Byte)

/-- The stop set at an address; BAD_DESCRIPTOR names what is wrong with it. -/
def readStops (rd : Reader) (a : Nat) : Except (Nat × Nat) StopSet :=
  if a = 0 then .ok []
  else match rd a 16 with
    | .error e => .error (memFail e)
    | .ok h =>
      let n := fld h 0 1
      if 16 < n then .error (0x06, 0x60)
      else mapE (fun i => match rd (a + 16 + 80 * i) 80 with
        | .error e => .error (memFail e)
        | .ok b =>
          let len := fld b 0 1
          let str := (b.drop 16).take len
          if len = 0 || 64 < len || !(utf8Valid str) then .error (0x06, 0x50 + i) else .ok str) (List.range n)

/-- What a stream of text holds between tokens: held bytes, STOPPED, STOP_INDEX, tokens consumed and bytes emitted in all. -/
structure Strain where
  held : List Byte
  stopped : Bool
  stopIndex : Nat
  tokens : Nat
  bytesOut : Nat
  deriving DecidableEq, Repr

def Strain.start : Strain := ⟨[], false, 0xFF, 0, 0⟩

/-- A strainer entry (R279). -/
def strainOf (b : List Byte) : Strain :=
  ⟨(b.drop 0x10).take (min 64 (fld b 0 1)), bit (fld b 1 1) 0, if bit (fld b 1 1) 0 then fld b 2 1 else 0xFF, fld b 4 4, fld b 8 8⟩

def Strain.bytes (x : Strain) : List Byte :=
  [BitVec.ofNat 8 x.held.length, BitVec.ofNat 8 (b2n x.stopped), BitVec.ofNat 8 x.stopIndex, 0#8] ++ leBytes 4 x.tokens
    ++ leBytes 8 x.bytesOut ++ padTo 64 x.held ++ List.replicate 48 0#8

/-- Text after R277: ill-formed subsequences replaced, with their number; an incomplete last character stays. -/
def repaired (bs : List Byte) : List Byte × Nat :=
  let us := unitsOf bs
  (us.flatMap (fun u => if u.kind = .bad then replacement else u.bytes), (us.filter (fun u => u.kind = .bad)).length)

/-- The stop string that ends at byte e of a text and starts first there: start and entry. -/
def stopAt (stops : StopSet) (text : List Byte) (e : Nat) : Option (Nat × Nat) :=
  stops.zipIdx.foldl (fun (r : Option (Nat × Nat)) x =>
    let n := x.1.length
    if n ≤ e && (text.drop (e - n)).take n = x.1 then
      match r with
      | some b => if e - n < b.1 then some (e - n, x.2) else r
      | none => some (e - n, x.2)
    else r) none

/-- The occurrence whose end comes first: start, end, entry. -/
def stopIn (stops : StopSet) (text : List Byte) : Option (Nat × Nat × Nat) :=
  (List.range (text.length + 1)).findSome? (fun e => (stopAt stops text e).map (fun r => (r.1, e, r.2)))

/-- Bytes of the longest suffix that is an incomplete character or a proper prefix of a stop string. -/
def holdBack (stops : StopSet) (text : List Byte) : Nat :=
  let cut := ((unitsOf text).filter (fun u => u.kind = .cut)).foldl (fun n u => n + u.bytes.length) 0
  stops.foldl (fun m x =>
    (List.range (min x.length (text.length + 1))).foldl (fun m n =>
      if m < n && x.take n = text.drop (text.length - n) then n else m) m) cut

/-- What a run over tokens makes: the stream's state, text emitted, and counts: consumed, replaced, tokens at or above VOCAB, silent
tokens; whether a stop string was met. -/
structure Strained where
  st : Strain
  text : List Byte
  consumed : Nat
  replaced : Nat
  bad : Nat
  silent : Nat
  stop : Bool
  deriving DecidableEq, Repr

/-- One token's string appended (R280); none is a token at or above VOCAB. -/
def strainTok (stops : StopSet) (incl : Bool) (str : Option (List Byte)) (x : Strained) : Strained :=
  let add := str.getD []
  let fixed := repaired (x.st.held ++ add)
  let pending := fixed.1
  let y : Strained := { x with
    consumed := x.consumed + 1
    replaced := x.replaced + fixed.2
    bad := x.bad + b2n str.isNone
    silent := x.silent + b2n (str = some []) }
  match stopIn stops pending with
  | some (a, e, k) =>
    { y with
      st := { y.st with held := [], stopped := true, stopIndex := k }
      text := y.text ++ pending.take (if incl then e else a)
      stop := true }
  | none =>
    let h := holdBack stops pending
    { y with
      st := { y.st with held := pending.drop (pending.length - h) }
      text := y.text ++ pending.take (pending.length - h) }

/-- Tokens in order, until a stop string. -/
def strainAll (t : Trie) (rd : Reader) (stops : StopSet) (incl : Bool) : List Nat → Strained → Except (Nat × Nat) Strained
  | [], x => .ok x
  | k :: ks, x =>
    match t.string rd k with
    | .error e => .error e
    | .ok s =>
      let y := strainTok stops incl s x
      if y.stop then .ok y else strainAll t rd stops incl ks y

/-- A flush: an incomplete character becomes U+FFFD, and every held byte is emitted. -/
def Strained.flush (x : Strained) : Strained :=
  let us := unitsOf x.st.held
  let bad := (us.filter (fun u => match u.kind with | .char _ => false | _ => true)).length
  { x with
    st := { x.st with held := [] }
    text := x.text ++ us.flatMap (fun u => match u.kind with | .char _ => u.bytes | _ => replacement)
    replaced := x.replaced + bad }

/-- Text cut into text records of at most 240 bytes that end on character boundaries (R281). -/
def textCuts : Nat → List Byte → List (List Byte)
  | 0, _ => []
  | _ + 1, [] => []
  | fuel + 1, bs =>
    let n := if bs.length ≤ 240 then bs.length
      else ((unitsOf (bs.take 240)).filter (fun u => u.kind ≠ .cut)).foldl (fun k u => k + u.bytes.length) 0
    let n := if n = 0 then min 240 bs.length else n
    bs.take n :: textCuts fuel (bs.drop n)

structure DetokDesc where
  slot : Nat
  stream : Nat
  count : Nat
  base : Nat
  stop : Nat
  out : Nat
  incl : Bool
  deriving DecidableEq, Repr

def detokOf (b : List Byte) : DetokDesc :=
  ⟨fld b 0 2, fld b 2 2, fld b 4 4, fld b 8 8, fld b 0x10 8, fld b 0x18 8, bit (fld b 0x20 1) 0⟩

/-- Everything a DETOKENIZE writes, and the text it emits. `stats`: tokens consumed, bytes emitted, stops, substitutions. -/
def detokWork (x : Run) (d : DetokDesc) (ptr version : Nat) (entry : Option Nat) : Except (Nat × Nat) (Out × List Byte) :=
  let old : Except MemErr (List Byte) := match entry with | some a => x.rdOf 0 a 128 | none => .ok Strain.start.bytes
  match x.chk 0 ptr 64, old, x.rdOf 0 d.base (4 * d.count), readStops (x.rdOf 0) d.stop with
  | .error e, _, _, _ | _, .error e, _, _ | _, _, .error e, _ => .error (memFail e)
  | _, _, _, .error e => .error e
  | .ok hd, .ok o, .ok tb, .ok stops =>
    let st := strainOf o
    let toks := (List.range d.count).map (fun i => fld tb (4 * i) 4)
    let init : Strained := ⟨st, [], 0, 0, 0, 0, false⟩
    let run : Except (Nat × Nat) Strained :=
      if st.stopped then .ok init
      else match strainAll (trieOf hd) (x.chk 0) stops d.incl toks init with
        | .error e => .error e
        | .ok y => .ok (if d.stream = 0xFFFF || d.count = 0 then y.flush else y)
    match run with
    | .error e => .error e
    | .ok y =>
      let fin := { y.st with tokens := y.st.tokens + y.consumed, bytesOut := y.st.bytesOut + y.text.length }
      let outp := if d.out = 0 then []
        else [(⟨0, d.out, leBytes 4 y.text.length ++ leBytes 4 y.consumed ++ [BitVec.ofNat 8 fin.stopIndex, BitVec.ofNat 8 (b2n fin.stopped)]
          ++ leBytes 6 0 ++ y.text⟩ : Piece)]
      let ent := match entry with
        | some a => if st.stopped then [] else [(⟨0, a, fin.bytes⟩ : Piece)]
        | none => []
      .ok (⟨outp ++ ent, y.consumed, (if y.bad = 0 then 0 else 8) + (if y.replaced = 0 then 0 else 16),
        c32 y.consumed ++ c32 y.text.length ++ c32 y.replaced ++ c32 y.bad ++ c32 fin.held.length ++ leBytes 4 fin.stopIndex
          ++ c32 y.silent ++ leBytes 4 version,
        [y.consumed, y.text.length, b2n y.stop, y.replaced]⟩, y.text)

/-! ### Grammar masks (R282 to R284) -/

structure Grammar where
  ends : List Nat
  states : Nat
  vocab : Nat
  start : Nat
  runs : Nat
  stateBase : Nat
  runBase : Nat
  deriving DecidableEq, Repr

def grammarOf (b : List Byte) : Grammar :=
  ⟨(List.range (min 4 (fld b 2 1))).map (fun i => fld b (0x28 + 4 * i) 4 % 2 ^ 20), fld b 4 4, fld b 8 4, fld b 0xC 2, fld b 0x10 4,
    fld b 0x18 8, fld b 0x20 8⟩

/-- The first header field of an automaton image that breaks the layout (R265, R282). -/
def grammarBad (b : List Byte) : Option Nat :=
  let n := fld b 2 1
  let fields : List (Nat × Bool) :=
    [((0, decide (fld b 0 2 ≠ 1)) : Nat × Bool), (2, decide (4 < n)), (4, fld b 4 4 = 0 || decide (65536 < fld b 4 4)),
      (0xC, decide (fld b 4 4 ≤ fld b 0xC 2)), (0x10, fld b 0x10 4 = 0 || decide (2 ^ 24 < fld b 0x10 4))]
      ++ (List.range (min 4 n)).map (fun i => ((0x28 + 4 * i, decide (fld b 8 4 ≤ fld b (0x28 + 4 * i) 4 % 2 ^ 20)) : Nat × Bool))
  (fields.find? (·.2)).map (·.1)

/-- The state that no token leaves (R283). -/
def deadState : Nat := 0xFFFFFFFF

/-- A run: first and last token, target. -/
structure GRun where
  first : Nat
  last : Nat
  target : Nat
  deriving DecidableEq, Repr

/-- How a state reads: dead; malformed, with the INFO of MALFORMED and how many run records were read; or its runs and ACCEPT. -/
inductive GState where
  | dead
  | malformed (run read : Nat)
  | ok (runs : List GRun) (accept : Bool)
  deriving DecidableEq, Repr

/-- Runs read in order from index i; the first that breaks R282 decides. -/
def readRuns (rd : Reader) (g : Grammar) : Nat → Nat → Nat → List GRun → Except MemErr (Sum Nat (List GRun))
  | 0, _, _, l => .ok (.inr l.reverse)
  | n + 1, i, lo, l =>
    if g.runs ≤ i then .ok (.inl i)
    else match rd (g.runBase + 8 * i) 8 with
      | .error e => .error e
      | .ok b =>
        let v := leNat b
        let r : GRun := ⟨bits v 19 0, bits v 39 20, bits v 55 40⟩
        if r.first < lo || r.last < r.first || g.vocab ≤ r.last || g.states ≤ r.target then .ok (.inl i)
        else readRuns rd g n (i + 1) (r.last + 1) (r :: l)

def Grammar.state (g : Grammar) (rd : Reader) (st : Nat) : Except MemErr GState :=
  if st = deadState then .ok .dead
  else if g.states ≤ st then .ok (.malformed 0xFFFFFFFF 0)
  else match rd (g.stateBase + 8 * st) 8 with
    | .error e => .error e
    | .ok b =>
      let first := fld b 0 4
      if g.runs < first then .ok (.malformed first 0)
      else match readRuns rd g (fld b 4 2) first 0 [] with
      | .error e => .error e
      | .ok (.inl i) => .ok (.malformed i (if g.runs ≤ i then i - first else i - first + 1))
      | .ok (.inr l) => .ok (.ok l (bit (fld b 6 2) 0))

/-- A token is allowed in a state. -/
def GState.allows (x : GState) (g : Grammar) (t : Nat) : Bool :=
  match x with
  | .ok runs acc => t < g.vocab && (runs.any (fun r => r.first ≤ t && t ≤ r.last) || (acc && g.ends.contains t))
  | _ => false

/-- The state after a token, and whether the token ends the request under the grammar. -/
def GState.next (x : GState) (g : Grammar) (st t : Nat) : Nat × Bool :=
  match x with
  | .ok runs acc =>
    if acc && g.ends.contains t then (st, true)
    else match runs.find? (fun r => r.first ≤ t && t ≤ r.last) with
      | some r => (r.target, false)
      | none => (deadState, false)
  | _ => (deadState, false)

/-- An empty mask: no token is allowed. -/
def GState.isEmpty (x : GState) (g : Grammar) : Bool :=
  match x with
  | .ok runs acc => runs = [] && !(acc && g.ends ≠ [])
  | _ => true

/-- Runs read for a state's mask. -/
def GState.runsRead (x : GState) : Nat :=
  match x with
  | .ok runs _ => runs.length
  | .malformed _ n => n
  | .dead => 0

/-! ### PACK (R286 to R289) -/

structure PackDesc where
  tmpl : Nat
  list : Nat
  passages : Nat
  budget : Nat
  out : Nat
  clip : Bool
  deriving DecidableEq, Repr

def packOf (b : List Byte) : PackDesc :=
  ⟨fld b 0 8, fld b 8 8, fld b 0x10 4, fld b 0x14 4, fld b 0x18 8, bit (fld b 0x20 1) 0⟩

/-- A template item. -/
structure PItem where
  slot : Bool
  max : Nat
  count : Nat
  base : Nat
  deriving DecidableEq, Repr

/-- The items of a template; a template outside R286 ends the command with BAD_DESCRIPTOR at TEMPLATE_BASE. -/
def readTemplate (rd : Reader) (a : Nat) : Except (Nat × Nat) (List PItem) :=
  match rd a 16 with
  | .error e => .error (memFail e)
  | .ok h =>
    let n := fld h 0 2
    if n = 0 || 64 < n then .error (0x06, 0)
    else mapE (fun i => match rd (a + 16 + 32 * i) 32 with
      | .error e => .error (memFail e)
      | .ok b => if 1 < fld b 0 1 then .error (0x06, 0) else .ok ⟨fld b 0 1 = 1, fld b 2 2, fld b 4 4, fld b 8 8⟩) (List.range n)

/-- F of R288. -/
def fixedTokens (l : List PItem) : Nat := ((l.filter (fun i => !i.slot)).map (·.count)).sum

/-- Addresses of the passages to consider, in order (R287). -/
def PackDesc.rows (d : PackDesc) (rd chk : Reader) : Except (Nat × Nat) (List Nat) :=
  match rd d.list 32 with
  | .error e => .error (memFail e)
  | .ok h =>
    if fld h 0 1 = 0 then
      match rd (d.list + 32) (8 * d.passages) with
      | .error e => .error (memFail e)
      | .ok b => .ok ((List.range d.passages).map (fun i => fld b (8 * i) 8))
    else if fld h 0 1 = 1 then
      let order := fld h 0x18 8
      match chk order 16 with
      | .error e => .error (memFail e)
      | .ok hd =>
        match mapE (fun i => match chk (order + 16 + 8 * i) 4 with
          | .error e => .error (memFail e)
          | .ok b => .ok (fld b 0 4)) (List.range (min d.passages (fld hd 0 4))) with
        | .error e => .error e
        | .ok idx => .ok ((idx.takeWhile (· ≠ 0xFFFFFFFF)).map (fun i => fld h 8 8 + i * fld h 0x10 4))
    else .error (0x06, 8)

/-- A passage row: its tokens and bounds. -/
def readPassage (chk : Reader) (a : Nat) : Except MemErr (List Nat × List Nat) :=
  match chk a 16 with
  | .error e => .error e
  | .ok h =>
    let n := fld h 0 4
    let k := fld h 4 2
    match chk (a + 16) (4 * n + 4 * k) with
    | .error e => .error e
    | .ok b => .ok ((List.range n).map (fun i => fld b (4 * i) 4), (List.range k).map (fun i => fld b (4 * n + 4 * i) 4))

/-- Where placement stands: passages placed by item, room left, tokens clipped, whether a passage was not placed whole. -/
structure Placed where
  byItem : List (Nat × List Nat)
  room : Int
  clipped : Nat
  short : Bool
  deriving DecidableEq, Repr

def Placed.inItem (x : Placed) (i : Nat) : List (List Nat) := (x.byItem.filter (fun e => e.1 = i)).map (·.2)

/-- The first passage slot with room for one more passage. -/
def Placed.slot (x : Placed) (items : List PItem) : Option (Nat × PItem) :=
  (items.zipIdx.find? (fun e => e.1.slot && (e.1.max = 0 || (x.inItem e.2).length < e.1.max))).map (fun e => (e.2, e.1))

/-- The loop of R288. -/
def placeAll (items : List PItem) (clip : Bool) (rd : Nat → Except MemErr (List Nat × List Nat)) :
    List Nat → Placed → Except MemErr Placed
  | [], x => .ok x
  | a :: rest, x =>
    match x.slot items with
    | none => .ok { x with short := true }
    | some (i, it) =>
      match rd a with
      | .error e => .error e
      | .ok (toks, bounds) =>
        let sep : Nat := if x.inItem i = [] then 0 else it.count
        let cost : Nat := toks.length + sep
        if (cost : Int) ≤ x.room then
          placeAll items clip rd rest { x with byItem := x.byItem ++ [(i, toks)], room := x.room - cost }
        else
          let fit := bounds.filter (fun (b : Nat) => ((b + sep : Nat) : Int) ≤ x.room)
          let best := fit.foldl max 0
          if clip && fit ≠ [] then
            .ok { x with
              byItem := x.byItem ++ [(i, toks.take best)]
              room := x.room - ((best + sep : Nat) : Int)
              clipped := toks.length - best
              short := true }
          else .ok { x with short := true }

/-- Passages of a slot with separators between them. -/
def joinPassages (sep : List Nat) : List (List Nat) → List Nat
  | [] => []
  | [p] => p
  | p :: ps => p ++ sep ++ joinPassages sep ps

/-- Everything a PACK writes. `stats` is empty: no counter of the page counts a PACK's work. -/
def packWork (x : Run) (d : PackDesc) : Except (Nat × Nat) Out :=
  match readTemplate (x.rdOf 0) d.tmpl, d.rows (x.rdOf 0) (x.chk 0) with
  | .error e, _ | _, .error e => .error e
  | .ok items, .ok rows =>
    let f := fixedTokens items
    match placeAll items d.clip (readPassage (x.chk 0)) rows ⟨[], (d.budget : Int) - (f : Int), 0, false⟩ with
    | .error e => .error (memFail e)
    | .ok r =>
      match mapE (fun (e : PItem × Nat) => match x.chk 0 e.1.base (4 * e.1.count) with
        | .error err => .error (memFail err)
        | .ok b =>
          let ts := (List.range e.1.count).map (fun i => fld b (4 * i) 4)
          .ok (if e.1.slot then joinPassages ts (r.inItem e.2) else ts)) (items.zipIdx.filter
            (fun e => !e.1.slot || 1 < (r.inItem e.2).length || (r.inItem e.2) ≠ [])) with
      | .error e => .error e
      | .ok parts =>
        let toks := parts.flatten
        .ok ⟨[⟨0, d.out, leBytes 4 toks.length ++ leBytes 4 r.byItem.length ++ leBytes 4 r.clipped ++ leBytes 4 0
            ++ toks.flatMap (leBytes 4)⟩], r.byItem.length,
          (if r.short then 1 else 0) + (if d.budget < f then 4 else 0),
          c32 toks.length ++ c32 r.byItem.length ++ c32 r.clipped ++ c32 rows.length ++ c32 f ++ leBytes 12 0, []⟩

end Sys2Proof.Machine
end

