-- ==== Sys2Proof/Machine/Models.lean ====
section
/-! DEFINITION. What the serving engine reads of a partition (12): the serving area (R296), model records (R297), step contexts
(R298), request-table entries and admit records (R300, R301), pages and directories (R302). -/

namespace Sys2Proof.Machine

/-! ### Model records -/

/-- A model record (R297). -/
structure Model where
  layers : Nat
  kvFmt : Nat
  draftMax : Nat
  hkv : Nat
  headDim : Nat
  maxPos : Nat
  batch : Nat
  stages : Nat
  stage : Nat
  fwd : Nat
  fwdCount : Nat
  vocab : Nat
  ctx : Nat
  trie : Nat
  comm : Nat
  kvScale : Word
  ends : List Nat
  pf : Nat
  pfCount : Nat
  pfRows : Nat
  pfCtx : Nat
  deriving DecidableEq, Repr

def modelOf (b : List Byte) : Model :=
  ⟨fld b 0 2, fld b 2 1, fld b 3 1, fld b 4 2, fld b 6 2, fld b 8 4, fld b 0xC 2, fld b 0xE 1, fld b 0xF 1, fld b 0x10 8,
    fld b 0x18 4, fld b 0x1C 4, fld b 0x20 8, fld b 0x28 2, fld b 0x2A 2, BitVec.ofNat 32 (fld b 0x2C 4),
    (List.range 4).map (fun i => fld b (0x30 + 4 * i) 4 % 2 ^ 20), fld b 0x40 8, fld b 0x48 4, fld b 0x4C 4, fld b 0x50 8⟩

/-- Bytes of one element of KV_FMT. -/
def Model.kvBytes (m : Model) : Nat := if m.kvFmt = 3 then 1 else 2

/-- Bytes of a page (R302). -/
def Model.pageSize (m : Model) : Nat := 64 + 128 * m.hkv * m.headDim * m.kvBytes

/-- A record with a field outside its range (R297), or a page that exceeds a frame of `frame` bytes (R302). -/
def Model.bad (m : Model) (frame : Nat) : Bool :=
  m.layers = 0 || 1024 < m.layers || !(m.kvFmt = 1 || m.kvFmt = 2 || m.kvFmt = 3) || 16 < m.draftMax || m.hkv = 0 || 64 < m.hkv
    || m.headDim < 16 || 512 < m.headDim || m.headDim % 16 ≠ 0 || m.maxPos % 64 ≠ 0 || m.maxPos < 64 || 2 ^ 22 < m.maxPos
    || m.batch = 0 || 4096 < m.batch || m.stages = 0 || 64 < m.stages || m.stages ≤ m.stage || m.fwdCount = 0 || 4096 < m.fwdCount
    || m.vocab = 0 || 2 ^ 20 < m.vocab || m.pfCount = 0 || 4096 < m.pfCount || m.pfRows % 64 ≠ 0 || m.pfRows < 256
    || 16384 < m.pfRows || frame < m.pageSize

/-- The model's last stage: where its requests may be cancelled (R321). -/
def Model.last (m : Model) : Bool := m.stage + 1 = m.stages

/-! ### Step contexts (R298) -/

def Model.maskBytes (m : Model) : Nat := ceilDiv m.vocab 512 * 64
def Model.logitBytes (m : Model) : Nat := 64 * ceilDiv m.vocab 16

/-- Where the regions HEAD, TOK, POS, PLIST, SAMPLE, MASK, LOGITS of a context for b rows begin, and its end. -/
def Model.layout (m : Model) (base b : Nat) : List Nat :=
  let sizes := [64, 4 * b, 4 * b, 32 * b, 48 * b, b * m.maskBytes, b * m.logitBytes]
  (sizes.foldl (fun (a : List Nat) z => a ++ [roundUp ((a.getLast?).getD 0 + z) 64]) [base])

/-- Bytes of a context. -/
def Model.ctxBytes (m : Model) (b : Nat) : Nat := ((m.layout 0 b).getLast?).getD 0

/-! ### The serving area (R296) -/

/-- A word of SRV_CFG or of a pool register as it is in effect: what stood there at the enabling, while serving is enabled (R330). DEDUCED (log entry 71). -/
def State.srvWord (s : State) (p off : Nat) : Nat :=
  let x := (s.part p).srv
  if x.enabled then ((x.config.find? (fun e => e.1 = off)).map (·.2)).getD 0 else s.field (pgSRV p) off 31 0

def State.reqLog2 (s : State) (p : Nat) : Nat := min 16 (max 10 (bits (s.srvWord p oSRV_SRV_CFG) 4 0))
def State.handleLog2 (s : State) (p : Nat) : Nat := min 20 (max 10 (bits (s.srvWord p oSRV_SRV_CFG) 12 8))
def State.frameBytes (s : State) (p : Nat) : Nat := 1024 * bits (s.srvWord p oSRV_SRV_CFG) 31 16
def State.hbmPool (s : State) (p : Nat) : Nat := s.srvWord p oSRV_HBM_POOL_LO + 2 ^ 32 * s.srvWord p oSRV_HBM_POOL_HI
def State.ddrPool (s : State) (p : Nat) : Nat := s.srvWord p oSRV_DDR_POOL_LO + 2 ^ 32 * s.srvWord p oSRV_DDR_POOL_HI
def State.hbmPoolFrames (s : State) (p : Nat) : Nat := s.srvWord p oSRV_HBM_FRAMES
def State.ddrPoolFrames (s : State) (p : Nat) : Nat := min (2 ^ 31 - 1) (s.srvWord p oSRV_DDR_FRAMES)

/-- Bytes of the serving area. -/
def State.servingBytes (s : State) (p : Nat) : Nat := 0x10000 + 128 * 2 ^ s.reqLog2 p + 32 * 2 ^ s.handleLog2 p

def State.modelAddr (s : State) (p m : Nat) : Nat := (s.part p).servingBase + 256 * m
def State.entryAddr (s : State) (p i : Nat) : Nat := (s.part p).servingBase + 0x10000 + 128 * i
def State.handleAddr (s : State) (p i : Nat) : Nat := (s.part p).servingBase + 0x10000 + 128 * 2 ^ s.reqLog2 p + 32 * i

/-- The record of model m of partition p, if it can be read. -/
def State.model? (s : State) (p m : Nat) : Option Model :=
  match s.readBytes p (s.modelAddr p m) 256 with
  | .ok b => some (modelOf b)
  | .error _ => none

/-- The address of a page number (R302). -/
def State.pageAddr (s : State) (p n : Nat) : Nat :=
  (if bit n 31 then s.ddrPool p else s.hbmPool p) + n % 2 ^ 31 * s.frameBytes p

/-- What a PAGED ATTEND of the step or pass with an acceptance number needs of its model. -/
def State.paging (s : State) (p : Nat) (m : Model) (seq : Nat) : Paging :=
  let v := (s.part p).srv
  let took := (v.steps.filter (fun t => t.cmd.seq = seq)).map (·.taken) ++ (v.passes.filter (fun t => t.cmd.seq = seq)).map (·.taken)
  ⟨m.maxPos, m.kvScale, s.hbmPool p, s.ddrPool p, s.frameBytes p, took.flatMap (·.renames)⟩

/-! ### Requests (R300, R301) -/

/-- A request-table entry or an admit record. -/
structure Request where
  tag : Nat
  st : Nat
  flags : Nat
  model : Nat
  prompt : Nat
  length : Nat
  generated : Nat
  maxNew : Nat
  step : Nat
  seed : Nat
  temp : Nat
  topK : Nat
  topP : Nat
  gstate : Nat
  handle : Nat
  dir : Nat
  promptBase : Nat
  out : Nat
  draft : Nat
  stop : Nat
  stream : Nat
  grammar : Nat
  pubLen : Nat
  seq : Nat
  deriving DecidableEq, Repr

def requestOf (b : List Byte) : Request :=
  ⟨fld b 0 8, fld b 8 1, fld b 9 1, fld b 0xA 2, fld b 0xC 4, fld b 0x10 4, fld b 0x14 4, fld b 0x18 4, fld b 0x1C 4, fld b 0x20 8,
    fld b 0x28 4, fld b 0x2C 4, fld b 0x30 4, fld b 0x34 4, fld b 0x38 8, fld b 0x40 8, fld b 0x48 8, fld b 0x50 8, fld b 0x58 8,
    fld b 0x60 8, fld b 0x68 2, fld b 0x6A 2, fld b 0x6C 4, fld b 0x70 4⟩

def Request.bytes (r : Request) : List Byte :=
  leBytes 8 r.tag ++ leBytes 1 r.st ++ leBytes 1 r.flags ++ leBytes 2 r.model ++ leBytes 4 r.prompt ++ leBytes 4 r.length
    ++ leBytes 4 r.generated ++ leBytes 4 r.maxNew ++ leBytes 4 r.step ++ leBytes 8 r.seed ++ leBytes 4 r.temp ++ leBytes 4 r.topK
    ++ leBytes 4 r.topP ++ leBytes 4 r.gstate ++ leBytes 8 r.handle ++ leBytes 8 r.dir ++ leBytes 8 r.promptBase ++ leBytes 8 r.out
    ++ leBytes 8 r.draft ++ leBytes 8 r.stop ++ leBytes 2 r.stream ++ leBytes 2 r.grammar ++ leBytes 4 r.pubLen ++ leBytes 4 r.seq
    ++ leBytes 12 0

/-- States of a request (R300). -/
def rqFREE : Nat := 0
def rqQUEUED : Nat := 1
def rqPREFILL : Nat := 2
def rqRUNNING : Nat := 3
def rqDRAINING : Nat := 4

def Request.live (r : Request) : Bool := 1 ≤ r.st && r.st ≤ 4

/-- Flag bits of byte 0x09. -/
def Request.publishes (r : Request) : Bool := bit r.flags 0
def Request.missed (r : Request) : Bool := bit r.flags 1
def Request.unpublished (r : Request) : Bool := bit r.flags 2
def Request.waits (r : Request) : Bool := bit r.flags 3
def Request.cancelling (r : Request) : Bool := bit r.flags 4
def Request.dropsOut (r : Request) : Bool := bit r.flags 5

/-- A flag bit of a request set or cleared. -/
def Request.flag (r : Request) (b : Nat) (v : Bool) : Request :=
  { r with flags := if v then r.flags ||| 2 ^ b else r.flags - b2n (bit r.flags b) * 2 ^ b }

/-- Entry i of partition p's request table. -/
def State.request (s : State) (p i : Nat) : Request := requestOf (s.readZ p (s.entryAddr p i) 128)

def State.setRequest (s : State) (p i : Nat) (r : Request) : State := s.writeZ p (s.entryAddr p i) r.bytes

/-- Live requests of partition p with their indexes, in index order. -/
def State.liveRequests (s : State) (p : Nat) : List (Nat × Request) :=
  if (s.part p).srv.enabled then
    ((List.range (2 ^ s.reqLog2 p)).map (fun i => (i, s.request p i))).filter (fun e => e.2.live)
  else []

/-- Live requests in admission order. -/
def byAdmission (l : List (Nat × Request)) : List (Nat × Request) :=
  l.foldl (fun a e => (a.takeWhile (fun b => b.2.seq ≤ e.2.seq)) ++ e :: a.dropWhile (fun b => b.2.seq ≤ e.2.seq)) []

/-- The address of the directory entry of a layer and a page of 64 positions. -/
def Request.dirAt (r : Request) (m : Model) (layer page : Nat) : Nat := r.dir + 4 * (layer * (m.maxPos / 64) + page)

/-- A directory that has no page there. -/
def noPage : Nat := 0xFFFFFFFF

/-! ### Forward lists (R298, R141) -/

/-- The records of a list: address and bytes, while they can be read with `rd`; the flag says that all could. -/
def listRecords (rd : Reader) : Nat → Nat → List (Nat × List Byte) × Bool
  | _, 0 => ([], true)
  | a, n + 1 =>
    match rd a 64 with
    | .error _ => ([], false)
    | .ok h =>
      let len := fld h 2 2
      if len < 64 || 4096 < len then ([], false)
      else match rd a len with
        | .error _ => ([], false)
        | .ok b =>
          let r := listRecords rd (a + roundUp len 64) n
          ((a, b) :: r.1, r.2)

/-- The bytes a list of n records covers, as far as `rd` can read their headers: the header that cannot be read counts. -/
def listSpan (rd : Reader) : Nat → Nat → Nat
  | _, 0 => 0
  | a, n + 1 =>
    match rd a 64 with
    | .error _ => 64
    | .ok h =>
      let len := max 64 (fld h 2 2)
      roundUp len 64 + listSpan rd (a + roundUp len 64) n

end Sys2Proof.Machine
end

