-- ==== Sys2Proof/Machine/Search.lean ====
section
/-! DEFINITION. Vector search (09): index descriptors and images (R211 to R218), keys (R219 to R221), graph and flat search
(R222 to R226), filters (R227, R228), refinement and results (R229 to R231), and index merge (R233, R234). -/

namespace Sys2Proof.Machine

/-- An index descriptor (R211). -/
structure IndexDesc where
  image : Nat
  seq : Nat
  side : Nat
  deriving DecidableEq, Repr

def indexOf (b : List Byte) : IndexDesc := ⟨fld b 0 8, fld b 8 4, fld b 0xC 4⟩

/-- An image header (R215), with its bytes. -/
structure Image where
  raw : List Byte
  layout : Nat
  kind : Nat
  metric : Nat
  dim : Nat
  codeFmt : Nat
  refineFmt : Nat
  nodes : Nat
  degMax : Nat
  entries : Nat
  attrs : Nat
  codeStride : Nat
  nodeBytes : Nat
  tscale : Word
  refineStride : Nat
  sideCap : Nat
  beam : Nat
  code : Nat
  aux : Nat
  graph : Nat
  entry : Nat
  label : Nat
  tomb : Nat
  sideBase : Nat
  refine : Nat
  sideRefine : Nat
  deriving DecidableEq, Repr

def imageOf (b : List Byte) : Image :=
  ⟨b, fld b 0 2, fld b 2 1, fld b 3 1, fld b 4 2, fld b 6 1, fld b 7 1, fld b 8 4, fld b 0xC 1, fld b 0xD 1, fld b 0xE 1,
    fld b 0x10 4, fld b 0x14 4, BitVec.ofNat 32 (fld b 0x18 4), fld b 0x1C 4, fld b 0x20 4, fld b 0x24 2, fld b 0x28 8,
    fld b 0x30 8, fld b 0x38 8, fld b 0x40 8, fld b 0x48 8, fld b 0x50 8, fld b 0x58 8, fld b 0x60 8, fld b 0x68 8⟩

def Image.attr (g : Image) (c : Nat) : Nat := fld g.raw (0x80 + 8 * c) 8

/-- The table whose rows an image's codes are (R215). -/
def Image.codes (g : Image) : TableDesc := ⟨g.nodes, g.code, g.codeStride, g.dim, g.codeFmt, 0, g.tscale, 0, 0, 0, 0, 0⟩

def Image.isGraph (g : Image) : Bool := g.kind = 1
def Image.refines (g : Image) : Bool := g.refineFmt ≠ 0xFF

/-- Bytes of a side entry (R217). -/
def Image.sideStride (g : Image) : Nat := roundUp (48 + g.codeStride) 64

/-- The first field of an image header that breaks R215, by its offset. -/
def Image.bad (g : Image) : Option Nat :=
  let f := fun (off : Nat) (b : Bool) => if b then some off else none
  let codeOk := g.codeFmt = 0 || g.codeFmt = 1 || g.codeFmt = 3 || g.codeFmt = 5 || g.codeFmt = 0x16
  let addr := fun (off : Nat) => f off (!(tieredAddr (fld g.raw off 8)))
  f 0 (g.layout ≠ 2) <|> f 2 (1 < g.kind) <|> f 3 (2 < g.metric) <|> f 4 (g.dim = 0 || 4096 < g.dim) <|> f 6 (!codeOk)
  <|> f 7 (g.refineFmt ≠ 0 && g.refineFmt ≠ 1 && g.refineFmt ≠ 0xFF)
  <|> f 8 (g.nodes = 0 || g.nodes = 0xFFFFFFFF)
  <|> f 0xC (if g.isGraph then g.degMax = 0 || 64 < g.degMax else g.degMax ≠ 0)
  <|> f 0xD (if g.isGraph then g.entries = 0 || 64 < g.entries else g.entries ≠ 0)
  <|> f 0xE (8 < g.attrs)
  <|> f 0x10 (g.codeStride % 16 ≠ 0 || g.codeStride < g.codes.used)
  <|> f 0x14 (g.isGraph && (g.nodeBytes % 16 ≠ 0 || g.nodeBytes < 4 + 4 * g.degMax))
  <|> f 0x1C (g.refines && (g.refineStride % 16 ≠ 0 || g.refineStride < g.dim * (if g.refineFmt = 0 then 4 else 2)))
  <|> f 0x20 (2 ^ 24 < g.sideCap) <|> f 0x24 (g.beam < 16 || 1024 < g.beam)
  <|> addr 0x28 <|> (if g.metric = 0 then none else addr 0x30) <|> addr 0x38 <|> addr 0x40
  <|> (if g.label = 0 then none else addr 0x48) <|> addr 0x50 <|> addr 0x58
  <|> (if g.refines then addr 0x60 else none) <|> (if g.refines then addr 0x68 else none) <|> addr 0x70
  <|> ((List.range g.attrs).find? (fun c => !(tieredAddr (g.attr c)))).map (fun c => 0x80 + 8 * c)

/-! ### Vectors and keys -/

/-- An element of a query or a code as an operand of R220: FP32 takes BF16's rule of the combined exponent. -/
def searchElem (f : Fmt) (c : Nat) (sc : Option Int) : Elem :=
  if f = .fp32 then
    let v := f.decode c
    (v, match v with
      | .fin _ m => if m = 0 then -126 else max (-126) (expOf m)
      | _ => -126)
  else elemOf f c sc

/-- A code's elements and its scale for R29. -/
def codeElems (g : Image) (row : List Byte) : List Elem × Word :=
  let f := fmtD g.codeFmt
  match g.codeFmt with
  | 0x05 => ((List.range g.dim).map (fun i => searchElem f (f.codeAt (row.drop 4) i) none), BitVec.ofNat 32 (fld row 0 4))
  | 0x16 =>
    let nb := ceilDiv g.dim 32
    ((List.range g.dim).map (fun i => searchElem f (f.codeAt (row.drop nb) i) (e8m0 (fld row (i / 32) 1))), f32One)
  | 0x03 => ((List.range g.dim).map (fun i => searchElem f (f.codeAt row i) none), g.tscale)
  | _ => ((List.range g.dim).map (fun i => searchElem f (f.codeAt row i) none), f32One)

/-- A vector of FP32 words as elements in FP32, or rounded to BF16. -/
def wordElems (bf : Bool) (v : List Word) : List Elem :=
  v.map (fun w => if bf then searchElem .bf16 (Fmt.bf16.encode .rne (f32 w)) none else searchElem .fp32 w.toNat none)

/-- top of an operand format in a skimmer. -/
def searchTop (f : Fmt) : Int := if f = .fp32 then 0 else f.top

/-- dot of R220: chunks of 128, g = 8, the tree, and the code's scale. -/
def skimDot (fa fb : Fmt) (a b : List Elem) (sb : Word) : Word :=
  let cs := ((runsOf 128 (a.length + 1) a).zip (runsOf 128 (b.length + 1) b)).map (fun e =>
    windowSum ((e.1.zip e.2).map (fun p => (p.1.1.mul p.2.1, p.1.2 + p.2.2))) (searchTop fa + searchTop fb) 8)
  scaleSum (treeSum cs) f32One sb

/-- A query as the skimmer uses it: its elements and format, and its square sum. -/
structure Query where
  fmt : Fmt
  els : List Elem
  qsq : Word
  deriving DecidableEq, Repr

/-- A query against codes: FP32 is kept against FP32 codes, else rounded to BF16 (R219). -/
def queryOf (v : List Word) (keep : Bool) : Query :=
  let es := wordElems (!keep) v
  let f : Fmt := if keep then .fp32 else .bf16
  ⟨f, es, skimDot f f es es f32One⟩

/-- The key of a vector (R220). -/
def keyOf (metric : Nat) (q : Query) (fv : Fmt) (v : List Elem) (sv aux : Word) : Word :=
  let d := skimDot q.fmt fv q.els v sv
  match metric with
  | 0 => d
  | 1 =>
    let qinv := if (f32 q.qsq).numEq Val.zero then 0#32 else whiskRsqrt q.qsq
    f32Mul (f32Mul d qinv) aux
  | _ => neg32 (max32 (f32Sub (f32Add q.qsq aux) (f32Mul 0x40000000#32 d)) 0#32)

/-- Rank order (R221): key descending, then ID ascending. -/
def ranks (a b : Word × Nat) : Bool :=
  if (f32 b.1).lt (f32 a.1) then true else if (f32 a.1).lt (f32 b.1) then false else decide (a.2 < b.2)

/-- A vector inserted in rank order, the list kept to n members. -/
def rankIn (n : Nat) (e : Word × Nat) (l : List (Word × Nat)) : List (Word × Nat) :=
  let rec go : List (Word × Nat) → List (Word × Nat)
    | [] => [e]
    | h :: t => if ranks e h then e :: h :: t else h :: go t
  (go l).take n

/-! ### Traversal (R222, R223) -/

/-- What a traversal asks of its graph: a node's neighbours and its bad edges, its key, and whether it may be a match (live
and passing), with the reason where not: 1 tombstoned, 2 filtered. -/
structure Space where
  nbrs : Nat → Except MemErr (List Nat × Nat)
  key : Nat → Except MemErr Word
  fits : Nat → Except (Nat × Nat) Nat

/-- The state of a traversal. -/
structure Trav where
  visited : List Nat
  c : List (Word × Nat)
  w : List (Word × Nat)
  m : List (Word × Nat)
  b : Nat
  full : Bool
  keys : Nat
  expansions : Nat
  doublings : Nat
  filtered : Nat
  tombs : Nat
  nans : Nat
  bad : Nat
  deriving DecidableEq, Repr

/-- DEDUCED (log entry 63). -/
def travStart (b : Nat) : Trav := ⟨[], [], [], [], b, false, 0, 0, 0, 0, 0, 0, 0⟩

/-- The largest visited set of one query (R223). DEDUCED (log entry 63). -/
def visitMax : Nat := 131072

/-- visit(v) of R222. -/
def visit (sp : Space) (k v : Nat) (t : Trav) : Except (Nat × Nat) Trav :=
  if t.visited.contains v then .ok t
  else if visitMax ≤ t.visited.length then .ok t
  else
    match orFail (sp.key v), sp.fits v with
    | .error e, _ => .error e
    | .ok x, f =>
      let t := { t with visited := v :: t.visited, keys := t.keys + 1, full := decide (visitMax ≤ t.visited.length + 1) }
      if (f32 x).isNan then .ok { t with nans := t.nans + 1 }
      else
        let e := (x, v)
        let enter := t.w.length < t.b || (match t.w.getLast? with | some l => ranks e l | none => true)
        let t := if enter then { t with w := rankIn t.b e t.w, c := rankIn (t.c.length + 1) e t.c } else t
        match f with
        | .error er => .error er
        | .ok 0 => .ok { t with m := rankIn k e t.m }
        | .ok 1 => .ok { t with tombs := t.tombs + 1 }
        | .ok _ => .ok { t with filtered := t.filtered + 1 }

def visitAll (sp : Space) (k : Nat) : List Nat → Trav → Except (Nat × Nat) Trav
  | [], t => .ok t
  | v :: rest, t =>
    match visit sp k v t with
    | .error e => .error e
    | .ok t => visitAll sp k rest t

/-- The loop of R222; `fuel` bounds expansions and doublings. -/
def traverse (sp : Space) (k expand : Nat) : Nat → Trav → Except (Nat × Nat) Trav
  | 0, t => .ok t
  | fuel + 1, t =>
    let stop := fun (t : Trav) =>
      t.full || t.c = [] || k ≤ t.m.length || t.b = expand
    match t.c with
    | [] => .ok t
    | u :: rest =>
      let past := t.w.length = t.b && (match t.w.getLast? with | some l => ranks l u | none => false)
      if past then
        if stop t then .ok t
        else traverse sp k expand fuel { t with b := min (2 * t.b) expand, doublings := t.doublings + 1 }
      else
        match orFail (sp.nbrs u.2) with
        | .error e => .error e
        | .ok (ns, bad) =>
          match visitAll sp k ns { t with c := rest, expansions := t.expansions + 1, bad := t.bad + bad } with
          | .error e => .error e
          | .ok t => if t.full then .ok t else traverse sp k expand fuel t

/-! ### Filters -/

/-- A vector's attribute value: `side` names an entry of the side list. -/
def attrAt (rd : Reader) (g : Image) (side : Bool) (i c : Nat) : Except MemErr Nat :=
  match rd (if side then g.sideBase + i * g.sideStride + 0x10 + 4 * c else g.attr c + 4 * i) 4 with
  | .error e => .error e
  | .ok b => .ok (leNat b)

/-- A filter record breaks R228. -/
def filterBad (g : Image) (r : List Byte) : Bool :=
  8 < fld r 0 1 || (List.range (fld r 0 1)).any (fun p => 2 < fld r (0x11 + 16 * p) 1 || g.attrs ≤ fld r (0x10 + 16 * p) 1)

/-- One predicate of a record (R227). -/
def predicate (rd : Reader) (g : Image) (r : List Byte) (side : Bool) (i p : Nat) : Except MemErr Bool :=
  match attrAt rd g side i (fld r (0x10 + 16 * p) 1) with
  | .error e => .error e
  | .ok v =>
    let a := fld r (0x14 + 16 * p) 4
    let b := fld r (0x18 + 16 * p) 8
    match fld r (0x11 + 16 * p) 1 with
    | 0 => .ok (v = a)
    | 1 => .ok (a ≤ v && v ≤ b % 2 ^ 32)
    | _ =>
      if v < a then
        match rd (b + v / 8) 1 with
        | .error e => .error e
        | .ok w => .ok (bit (leNat w) (v % 8))
      else .ok false

/-- Whether a vector passes a record (R228). -/
def passes (rd : Reader) (g : Image) (r : List Byte) (side : Bool) (i : Nat) : Except MemErr Bool :=
  match mapE (predicate rd g r side i) (List.range (fld r 0 1)) with
  | .error e => .error e
  | .ok l =>
    if !(l.all id) then .ok false
    else if bit (fld r 1 1) 0 then
      let n := if side then g.nodes + i else i
      match rd (fld r 8 8 + n / 8) 1 with
      | .error e => .error e
      | .ok b => .ok (bit (leNat b) (n % 8))
    else .ok true

/-! ### One query -/

/-- The SEARCH descriptor (R146). -/
structure SearchDesc where
  slot : Nat
  k : Nat
  beam : Nat
  refine : Nat
  queries : Nat
  expand : Nat
  query : Nat
  filter : Nat
  out : Nat
  qfmt : Nat
  deriving DecidableEq, Repr

def searchOf (b : List Byte) : SearchDesc :=
  ⟨fld b 0 2, fld b 2 2, fld b 4 2, fld b 6 2, fld b 8 4, fld b 0xC 4, fld b 0x10 8, fld b 0x18 8, fld b 0x20 8, fld b 0x28 1⟩

def SearchDesc.limit (d : SearchDesc) : Nat := if d.expand = 0 then d.beam else d.expand
def SearchDesc.slots (d : SearchDesc) : Nat := if d.refine ≠ 0 then d.refine else d.k

/-- Bytes between result blocks (R231) and between queries (R219). -/
def SearchDesc.blockBytes (d : SearchDesc) : Nat := roundUp (16 + 16 * d.slots) 64
def SearchDesc.queryBytes (d : SearchDesc) (dim : Nat) : Nat := roundUp (dim * if d.qfmt = 0 then 4 else 2) 64

/-- A match: key, whether a side entry, its position, its label. -/
structure Match where
  key : Word
  side : Bool
  pos : Nat
  label : Nat
  deriving DecidableEq, Repr

/-- The order of R225: key descending, node before side entry, position ascending. -/
def Match.before (a b : Match) : Bool :=
  if (f32 b.key).lt (f32 a.key) then true else if (f32 a.key).lt (f32 b.key) then false
  else if a.side ≠ b.side then b.side
  else decide (a.pos < b.pos)

def Match.insert (e : Match) : List Match → List Match
  | [] => [e]
  | h :: t => if e.before h then e :: h :: t else h :: Match.insert e t

/-- Matches in order, the first of each label kept. -/
def unionOf (k : Nat) (l : List Match) : List Match :=
  let sorted := l.foldl (fun a e => e.insert a) []
  (sorted.foldl (fun (a : List Match) e => if a.any (fun f => f.label = e.label) then a else a ++ [e]) []).take k

def word32 (rd : Reader) (a : Nat) : Except MemErr Nat :=
  match rd a 4 with
  | .error e => .error e
  | .ok b => .ok (leNat b)

/-- The key of node v, or of side entry v. -/
def Image.keyAt (g : Image) (rd : Reader) (q : Query) (side : Bool) (v : Nat) : Except MemErr Word :=
  let at_ := g.sideBase + v * g.sideStride
  match rd (if side then at_ + 0x30 else g.code + v * g.codeStride) g.codes.used,
      (if g.metric = 0 then Except.ok 0 else word32 rd (if side then at_ + 0xC else g.aux + 4 * v)) with
  | .error e, _ => .error e
  | _, .error e => .error e
  | .ok row, .ok a =>
    let c := codeElems g row
    .ok (keyOf g.metric q (fmtD g.codeFmt) c.1 c.2 (BitVec.ofNat 32 a))

/-- A tombstone word in force under SEQ s (R218). -/
def tombed (s w : Nat) : Bool := w ≠ 0 && w ≤ s

def Image.tombAt (g : Image) (rd : Reader) (side : Bool) (v : Nat) : Except MemErr Nat :=
  word32 rd (if side then g.sideBase + v * g.sideStride + 8 else g.tomb + 4 * v)

/-- 0: live and passing; 1: tombstoned; 2: filtered. -/
def Image.fitsAt (g : Image) (rd : Reader) (seq : Nat) (flt : Option (List Byte)) (side : Bool) (v : Nat) : Except (Nat × Nat) Nat :=
  match g.tombAt rd side v with
  | .error e => .error (memFail e)
  | .ok w =>
    if tombed seq w then .ok 1
    else match flt with
      | none => .ok 0
      | some r => match passes rd g r side v with
        | .error e => .error (memFail e)
        | .ok b => .ok (if b then 0 else 2)

/-- A node's neighbours and its bad edges (R216). -/
def Image.nbrsAt (g : Image) (rd : Reader) (v : Nat) : Except MemErr (List Nat × Nat) :=
  match rd (g.graph + v * g.nodeBytes) g.nodeBytes with
  | .error e => .error e
  | .ok b =>
    let l := (List.range (fld b 0 1)).map (fun i => fld b (4 + 4 * i) 4)
    let good := l.filter (fun n => n < g.nodes && n ≠ v)
    .ok (good, l.length - good.length)

def Image.labelAt (g : Image) (rd : Reader) (side : Bool) (v : Nat) : Except MemErr Nat :=
  let a := if side then g.sideBase + v * g.sideStride else g.label + 8 * v
  if !side && g.label = 0 then .ok v
  else match rd a 8 with
    | .error e => .error e
    | .ok b => .ok (leNat b)

/-- A flat scan (R224), and the scan of the side list (R225): node or side positions 0 to n - 1. -/
def scan (g : Image) (rd : Reader) (q : Query) (seq : Nat) (flt : Option (List Byte)) (side : Bool) (k : Nat) :
    List Nat → Trav → Except (Nat × Nat) Trav
  | [], t => .ok t
  | v :: rest, t =>
    match orFail (g.keyAt rd q side v), g.fitsAt rd seq flt side v with
    | .error e, _ => .error e
    | _, .error e => .error e
    | .ok x, .ok f =>
      let t := { t with keys := t.keys + 1 }
      let t := if (f32 x).isNan then { t with nans := t.nans + 1 }
        else if f = 0 then { t with m := rankIn k (x, v) t.m }
        else if f = 1 then { t with tombs := t.tombs + 1 }
        else { t with filtered := t.filtered + 1 }
      scan g rd q seq flt side k rest t

/-- The graph or flat part of a query. -/
def Image.run (g : Image) (rd : Reader) (q : Query) (seq : Nat) (flt : Option (List Byte)) (k b expand : Nat) : Except (Nat × Nat) Trav :=
  if g.isGraph then
    let sp : Space := ⟨g.nbrsAt rd, g.keyAt rd q false, g.fitsAt rd seq flt false⟩
    match mapE (fun i => orFail (word32 rd (g.entry + 4 * i))) (List.range g.entries) with
    | .error e => .error e
    | .ok es => match visitAll sp k (es.filter (· < g.nodes)) (travStart b) with
      | .error e => .error e
      | .ok t => traverse sp k expand (g.nodes + 16) t
  else scan g rd q seq flt false k (List.range g.nodes) (travStart 0)

/-- The refined key of a match (R230). -/
def Image.refined (g : Image) (rd : Reader) (v : List Word) (qfmt : Nat) (m : Match) : Except MemErr Word :=
  let f := fmtD g.refineFmt
  let a := (if m.side then g.sideRefine else g.refine) + m.pos * g.refineStride
  match rd a (f.rowBytes g.dim) with
  | .error e => .error e
  | .ok b =>
    let els := (List.range g.dim).map (fun i => searchElem f (f.codeAt b i) none)
    let q := queryOf v (qfmt = 0)
    let sq := skimDot f f els els f32One
    let aux := if g.metric = 1 then (if (f32 sq).numEq Val.zero then 0#32 else whiskRsqrt sq) else sq
    .ok (keyOf g.metric q f els f32One aux)

/-- What one query leaves: its block, N, FLAGS, and counts (keys, expansions, doublings, filtered, tombstoned, NaN, side
entries scanned, ended full, refine reads, bad edges, FILTER_SHORT). -/
structure QueryOut where
  block : List Byte
  n : Nat
  flags : Nat
  counts : List Nat
  deriving DecidableEq, Repr

/-- The elements of query i as FP32 words. -/
def SearchDesc.vec (d : SearchDesc) (rd : Reader) (dim i : Nat) : Except MemErr (List Word) :=
  let f : Fmt := if d.qfmt = 0 then .fp32 else .bf16
  match rd (d.query + i * d.queryBytes dim) (f.rowBytes dim) with
  | .error e => .error e
  | .ok b => .ok ((List.range dim).map (fun j => toF32 (f.decode (f.codeAt b j))))

/-- One query of a SEARCH (R222 to R231). -/
def searchOne (x : Run) (d : SearchDesc) (g : Image) (ix : IndexDesc) (i : Nat) : Except (Nat × Nat) QueryOut :=
  let rd := x.chk i
  let flt : Except (Nat × Nat) (Option (List Byte)) := if d.filter = 0 then .ok none
    else match x.rdOf i (d.filter + 160 * i) 160 with
      | .error e => .error (memFail e)
      | .ok r => if filterBad g r then .error (0x06, 0x18) else .ok (some r)
  match flt, orFail (d.vec (x.rdOf i) g.dim i) with
  | .error e, _ => .error e
  | _, .error e => .error e
  | .ok flt, .ok v =>
    let q := queryOf v (d.qfmt = 0 && g.codeFmt = 0)
    match g.run rd q ix.seq flt d.k d.beam d.limit, scan g rd q ix.seq flt true d.k (List.range ix.side) (travStart 0) with
    | .error e, _ => .error e
    | _, .error e => .error e
    | .ok t, .ok sd =>
      match mapE (fun (e : Bool × (Word × Nat)) => match g.labelAt rd e.1 e.2.2 with
        | .error er => .error (memFail er)
        | .ok l => .ok (⟨e.2.1, e.1, e.2.2, l⟩ : Match)) (t.m.map (fun e => (false, e)) ++ sd.m.map (fun e => (true, e))) with
      | .error e => .error e
      | .ok ms =>
        let found := unionOf d.k ms
        let short := found.length < d.k
        let fin : Except (Nat × Nat) (List Match × Nat) :=
          if d.refine = 0 then .ok (found, 0)
          else match mapE (fun m => match g.refined rd v d.qfmt m with
            | .error e => .error (memFail e)
            | .ok w => .ok ({ m with key := w } : Match)) found with
            | .error e => .error e
            | .ok l =>
              let good := (l.zipIdx.filter (fun (e : Match × Nat) => !(f32 e.1.key).isNan)).map (fun e => (e.1.key, e.2))
              let best := good.foldl (fun a e => rankIn d.refine e a) []
              .ok (best.filterMap (fun e => l[e.2]?), l.length - good.length)
        match fin with
        | .error e => .error e
        | .ok (res, refNan) =>
          let nans := t.nans + sd.nans + refNan
          let flags := (if short then (if flt.isSome then 2 else 1) else 0)
            + (if short && t.full && flt.isSome then 1 else 0) + (if nans = 0 then 0 else 32)
          let slot := fun (m : Match) => leBytes 8 m.label ++ leBytes 4 m.key.toNat ++ leBytes 4 (b2n m.side)
          let empty := leBytes 8 (2 ^ 64 - 1) ++ leBytes 4 0xFF800000 ++ leBytes 4 0
          let block := leBytes 4 res.length ++ leBytes 2 flags ++ leBytes 2 (if g.isGraph then t.b else 0) ++ leBytes 4 t.keys ++ leBytes 4 0
            ++ res.flatMap slot ++ (List.replicate (d.slots - res.length) empty).flatten
          .ok ⟨block, res.length, flags, [t.keys, t.expansions, t.doublings, t.filtered + sd.filtered, t.tombs + sd.tombs, nans,
            ix.side, b2n t.full, if d.refine = 0 then 0 else found.length, t.bad, if bit flags 1 then 1 else 0]⟩

/-- The sums of the counts of queries, place by place. -/
def sumCounts (l : List (List Nat)) : List Nat := (List.range 11).map (fun i => (l.map (fun c => nth 0 c i)).sum)

/-- A SEARCH (R222 to R231), with its extended record (R239). -/
def searchWork (x : Run) (d : SearchDesc) (g : Image) (ix : IndexDesc) (version : Nat) : Except (Nat × Nat) Out :=
  match mapE (searchOne x d g ix) (List.range d.queries) with
  | .error e => .error e
  | .ok qs =>
    let c := sumCounts (qs.map (·.counts))
    let n := fun (i : Nat) => c32 (nth 0 c i)
    let info := n 0 ++ n 1 ++ n 2 ++ n 3 ++ n 4 ++ n 5 ++ n 6 ++ n 7 ++ n 8 ++ leBytes 4 version ++ leBytes 4 ix.seq ++ leBytes 4 ix.side
      ++ n 9 ++ leBytes 12 0
    let flags := qs.foldl (fun a q => a ||| q.flags) 0
    .ok ⟨qs.zipIdx.map (fun (q : QueryOut × Nat) => ⟨q.2, d.out + q.2 * d.blockBytes, q.1.block⟩), (qs.map (·.n)).sum, flags, info,
      qs.length :: c⟩

/-! ### Index merge (R233, R234) -/

/-- The INDEX_MERGE descriptor (R146). -/
structure MergeDesc where
  slot : Nat
  version : Nat
  out : Nat
  bytes : Nat
  deriving DecidableEq, Repr

def mergeOf (b : List Byte) : MergeDesc := ⟨fld b 0 2, fld b 4 4, fld b 8 8, fld b 0x10 8⟩

/-- Live positions of nodes or of side entries under SEQ. -/
def Image.live (g : Image) (rd : Reader) (seq : Nat) (side : Bool) (n : Nat) : Except MemErr (List Nat) :=
  match mapE (g.tombAt rd side) (List.range n) with
  | .error e => .error e
  | .ok l => .ok ((List.range n).filter (fun i => !(tombed seq (nth 0 l i))))

/-- The offsets of a merged image's regions from OUT_BASE for n vectors: entries, labels, AUX, tombstones, attributes, node records,
codes, side list, remap, refine, side refine, and the end. -/
def Image.layoutOf (g : Image) (n old : Nat) : List Nat :=
  let sizes := [4 * g.entries, 8 * n, 4 * n, 4 * n] ++ List.replicate g.attrs (4 * n) ++
    [if g.isGraph then g.nodeBytes * n else 0, g.codeStride * n, g.sideStride * g.sideCap, 4 * old]
  let r := sizes.foldl (fun (a : List Nat × Nat) s => (a.1 ++ [a.2], roundUp (a.2 + s) 64)) ([], 0x140)
  let stop := sizes.foldl (fun (a : Nat × Nat) s => (a.2 + s, roundUp (a.2 + s) 64)) (0x140, 0x140)
  if g.refines then
    let r1 := roundUp stop.1 pageBytes
    let r2 := roundUp (r1 + g.refineStride * n) pageBytes
    r.1 ++ [r1, r2, r2 + g.refineStride * g.sideCap]
  else r.1 ++ [0, 0, stop.1]

/-- Bytes a merged image needs. -/
def Image.need (g : Image) (n old : Nat) : Nat := ((g.layoutOf n old).getLast?).getD 0

/-- A vector of the new image: whether it came from the side list, and its old position. -/
abbrev Origin := Bool × Nat

/-- What a merge counts (R239): keys computed, expansions, vectors left out for a NaN key, searches ended full. -/
structure Tally where
  keys : Nat
  expansions : Nat
  nans : Nat
  full : Nat
  deriving DecidableEq, Repr

def Tally.zero : Tally := ⟨0, 0, 0, 0⟩
def Tally.add (a b : Tally) : Tally := ⟨a.keys + b.keys, a.expansions + b.expansions, a.nans + b.nans, a.full + b.full⟩

/-- Vectors ordered by key(p, x), then by new ID, without repeats; one whose key is NaN is left out (R221). -/
def byKeyTo (key : Nat → Nat → Except MemErr Word) (p : Nat) (l : List Nat) : Except MemErr (List (Word × Nat) × Tally) :=
  match mapE (fun y => match key p y with | .error e => .error e | .ok w => .ok (w, y)) (ascending l) with
  | .error e => .error e
  | .ok ks =>
    let good := ks.filter (fun e => !(f32 e.1).isNan)
    .ok (good.foldl (fun a e => rankIn (a.length + 1) e a) [], ⟨ks.length, 0, ks.length - good.length, 0⟩)

/-- prune of R234, with the keys it computes. -/
def prune (key : Nat → Nat → Except MemErr Word) (deg : Nat) (cand : List (Word × Nat)) : Except MemErr (List Nat × Tally) :=
  let step := fun (r : Except MemErr (List Nat × Nat)) (e : Word × Nat) => match r with
    | .error er => .error er
    | .ok (kept, n) =>
      if deg ≤ kept.length then .ok (kept, n)
      else match mapE (fun y => key y e.2) kept with
        | .error er => .error er
        | .ok ks => .ok (if ks.any (fun w => (f32 e.1).lt (f32 w)) then kept else kept ++ [e.2], n + ks.length)
  match cand.foldl step (.ok ([], 0)) with
  | .error er => .error er
  | .ok (kept, n) =>
    .ok (kept ++ ((cand.map (·.2)).filter (fun y => !(kept.contains y))).take (deg - kept.length), ⟨n, 0, 0, 0⟩)

/-- Candidates ordered from p, then pruned. -/
def pruneFrom (key : Nat → Nat → Except MemErr Word) (deg p : Nat) (l : List Nat) : Except (Nat × Nat) (List Nat × Tally) :=
  match orFail (byKeyTo key p l) with
  | .error e => .error e
  | .ok (c, t) => match orFail (prune key deg c) with
    | .error e => .error e
    | .ok (kept, u) => .ok (kept, t.add u)

/-- One side node of phase 2: searched for from the entry list, linked both ways. DEDUCED (log entry 63). -/
def linkSide (key : Nat → Nat → Except MemErr Word) (deg beam : Nat) (entries : List Nat) (nbr : List (List Nat)) (v : Nat) :
    Except (Nat × Nat) (List (List Nat) × Tally) :=
  let sp : Space := ⟨fun u => .ok ((nth [] nbr u).filter (· < v), 0), key v, fun _ => .ok 0⟩
  match visitAll sp beam (entries.filter (· < v)) (travStart beam) with
  | .error e => .error e
  | .ok t => match traverse sp beam beam (v + 16) t with
    | .error e => .error e
    | .ok t => match orFail (prune key deg t.m) with
      | .error e => .error e
      | .ok (mine, u) =>
        mine.foldl (fun (r : Except (Nat × Nat) (List (List Nat) × Tally)) w => match r with
          | .error e => .error e
          | .ok (nb, y) =>
            let cur := nth [] nb w
            if cur.length < deg then .ok (setNth [] nb w (cur ++ [v]), y)
            else match pruneFrom key deg w (cur ++ [v]) with
              | .error e => .error e
              | .ok (l, z) => .ok (setNth [] nb w l, y.add z))
          (.ok (setNth [] nbr v mine, u.add ⟨t.keys, t.expansions, t.nans, b2n t.full⟩))

/-- The new ID of an old node. -/
def newId (org : List Origin) (o : Nat) : Option Nat := org.findIdx? (fun (e : Origin) => !e.1 && e.2 = o)

/-- Phase 1's candidates of an old node: its live neighbours, plus the live neighbours of each tombstoned one. -/
def Image.around (g : Image) (rd : Reader) (liveOld : List Nat) (o : Nat) : Except (Nat × Nat) (List Nat) :=
  match g.nbrsAt rd o with
  | .error e => .error (memFail e)
  | .ok (ns, _) =>
    match mapE (fun t => match g.nbrsAt rd t with
        | .error e => .error (memFail e)
        | .ok r => .ok (r.1.filter liveOld.contains)) (ns.filter (fun n => !(liveOld.contains n))) with
    | .error e => .error e
    | .ok more => .ok (ns.filter liveOld.contains ++ more.flatten)

/-- The new entry list: a tombstoned entry node is replaced by the first live neighbour of its list that is no entry yet, or left out;
an entry that names no node is left out. DEDUCED (log entry 63). -/
def Image.newEntries (g : Image) (rd : Reader) (org : List Origin) (liveOld : List Nat) : Except (Nat × Nat) (List Nat) :=
  if !g.isGraph then .ok []
  else match mapE (fun i => orFail (word32 rd (g.entry + 4 * i))) (List.range g.entries) with
  | .error e => .error e
  | .ok old =>
    let kept := old.filterMap (newId org)
    let r := old.foldl (fun (r : Except (Nat × Nat) (List Nat)) o => match r with
      | .error e => .error e
      | .ok l => match newId org o with
        | some i => .ok (l ++ [i])
        | none =>
          if g.nodes ≤ o then .ok l
          else match g.around rd liveOld o with
            | .error e => .error e
            | .ok c => .ok (l ++ ((c.filterMap (newId org)).find? (fun i => !(l.contains i || kept.contains i))).toList)) (.ok [])
    match r with
    | .error e => .error e
    | .ok es => .ok (if es = [] then [0] else es)

/-- The new graph: neighbour lists in new IDs, from the new entry list. DEDUCED (log entry 63). -/
def Image.rebuild (g : Image) (rd : Reader) (org : List Origin) (liveOld es : List Nat) : Except (Nat × Nat) (List (List Nat) × Tally) :=
  let fc := fmtD g.codeFmt
  let codeOf := fun (i : Nat) =>
    let e := nth (false, 0) org i
    match rd (if e.1 then g.sideBase + e.2 * g.sideStride + 0x30 else g.code + e.2 * g.codeStride) g.codes.used,
        (if g.metric = 0 then Except.ok 0 else word32 rd (if e.1 then g.sideBase + e.2 * g.sideStride + 0xC else g.aux + 4 * e.2)) with
    | .error er, _ => Except.error er
    | _, .error er => .error er
    | .ok b, .ok a => .ok (b, BitVec.ofNat 32 a)
  let key : Nat → Nat → Except MemErr Word := fun p y => match codeOf p, codeOf y with
    | .error e, _ => .error e
    | _, .error e => .error e
    | .ok a, .ok b =>
      let c := codeElems g b.1
      .ok (keyOf g.metric (queryOf (g.codes.widen a.1) (g.codeFmt = 0)) fc c.1 c.2 b.2)
  let phase1 := fun (o : Nat) => match g.around rd liveOld o with
    | .error e => Except.error e
    | .ok c => pruneFrom key g.degMax ((newId org o).getD 0) ((c.filter (· ≠ o)).filterMap (newId org))
  match mapE phase1 liveOld with
  | .error e => .error e
  | .ok nbr =>
    let sideIds := (List.range org.length).filter (fun i => (nth (false, 0) org i).1)
    sideIds.foldl (fun (r : Except (Nat × Nat) (List (List Nat) × Tally)) v => match r with
      | .error e => .error e
      | .ok (nb, y) => match linkSide key g.degMax g.beam es nb v with
        | .error e => .error e
        | .ok (nb, z) => .ok (nb, y.add z)) (.ok (nbr.map (·.1), nbr.foldl (fun y e => y.add e.2) Tally.zero))

/-- Neighbour IDs of the old records that are skipped (R216): phase 1 reads each record once. -/
def Image.badEdges (g : Image) (rd : Reader) : Except (Nat × Nat) Nat :=
  if !g.isGraph then .ok 0
  else match orFail (mapE (g.nbrsAt rd) (List.range g.nodes)) with
    | .error e => .error e
    | .ok l => .ok (l.map (·.2)).sum

/-- The vectors of the new image: live old nodes in order, then live side entries (R234), with the live old nodes alone. -/
def Image.origins (g : Image) (rd : Reader) (ix : IndexDesc) : Except (Nat × Nat) (List Origin × List Nat) :=
  match g.live rd ix.seq false g.nodes, g.live rd ix.seq true ix.side with
  | .error e, _ => .error (memFail e)
  | _, .error e => .error (memFail e)
  | .ok ln, .ok ls => .ok (ln.map (fun i => (false, i)) ++ ls.map (fun i => (true, i)), ln)

/-- Bytes that the merged image takes (R233). -/
def Image.mergeNeed (g : Image) (rd : Reader) (ix : IndexDesc) : Except (Nat × Nat) Nat :=
  match g.origins rd ix with
  | .error e => .error e
  | .ok (org, ln) => match g.newEntries rd org ln with
    | .error e => .error e
    | .ok es => .ok ({ g with entries := es.length }.need org.length (g.nodes + ix.side))

/-- The new image of an INDEX_MERGE (R233, R234): its bytes, region by region. `stats` is a SEARCH's. DEDUCED (log entries 49, 63). -/
def mergeWork (x : Run) (d : MergeDesc) (g : Image) (ix : IndexDesc) (version : Nat) : Except (Nat × Nat) Out :=
  let rd := x.chk 0
  match g.origins rd ix with
  | .error e => .error e
  | .ok (org, ln) =>
    let n := org.length
    let a := g.attrs
    let get := fun (side node len : Nat) (e : Origin) =>
      rd (if e.1 then g.sideBase + e.2 * g.sideStride + side else node + e.2 * len) len
    let column := fun (side node len : Nat) => orFail (mapE (get side node len) org)
    let graph : Except (Nat × Nat) (List (List Nat) × List Nat × Tally × Nat) :=
      match g.newEntries rd org ln, g.badEdges rd with
      | .error e, _ => .error e
      | _, .error e => .error e
      | .ok es, .ok bad =>
        if !g.isGraph then .ok ([], es, Tally.zero, bad)
        else match g.rebuild rd org ln es with
          | .error e => .error e
          | .ok (nb, y) => .ok (nb, es, y, bad)
    let auxOf := fun (e : Origin) =>
      if g.metric ≠ 0 || e.1 then get 0xC g.aux 4 e
      else match rd (g.code + e.2 * g.codeStride) g.codes.used with
        | .error er => .error er
        | .ok b => .ok (leBytes 4 (Config.mergedAux b).toNat)
    match mapE (fun (e : Origin) => match g.labelAt rd e.1 e.2 with | .error er => .error (memFail er) | .ok l => .ok (leBytes 8 l)) org,
        orFail (mapE auxOf org),
        mapE (fun c => column (0x10 + 4 * c) (g.attr c) 4) (List.range a), column 0x30 g.code g.codeStride, graph,
        (if g.refines then orFail (mapE (fun (e : Origin) => rd ((if e.1 then g.sideRefine else g.refine) + e.2 * g.refineStride) g.refineStride) org) else .ok []) with
    | .error e, _, _, _, _, _ => .error e
    | _, .error e, _, _, _, _ => .error e
    | _, _, .error e, _, _, _ => .error e
    | _, _, _, .error e, _, _ => .error e
    | _, _, _, _, .error e, _ => .error e
    | _, _, _, _, _, .error e => .error e
    | .ok labels, .ok auxs, .ok attrs, .ok codes, .ok (nbr, entries, y, bad), .ok refine =>
      let lay := { g with entries := entries.length }.layoutOf n (g.nodes + ix.side)
      let at_ := fun (i : Nat) => d.out + nth 0 lay i
      let put := fun (off : Nat) (bs : List Byte) => (⟨0, off, bs⟩ : Piece)
      let hdr := [(8, 4, n), (0xD, 1, entries.length), (0x28, 8, at_ (5 + a)), (0x30, 8, at_ 2), (0x38, 8, if g.isGraph then at_ (4 + a) else fld g.raw 0x38 8),
        (0x40, 8, at_ 0), (0x48, 8, at_ 1), (0x50, 8, at_ 3), (0x58, 8, at_ (6 + a)), (0x70, 8, at_ (7 + a))]
        ++ (if g.refines then [(0x60, 8, at_ (8 + a)), (0x68, 8, at_ (9 + a))] else [])
        ++ (List.range a).map (fun c => (0x80 + 8 * c, 8, at_ (4 + c)))
      let header := hdr.foldl (fun (b : List Byte) e => patch b e.1 (leBytes e.2.1 e.2.2)) (padTo 256 g.raw)
      let remap := ((List.range g.nodes).map (fun i => (org.findIdx? (fun e => !e.1 && e.2 = i)).getD 0xFFFFFFFF)
        ++ (List.range ix.side).map (fun i => (org.findIdx? (fun e => e.1 && e.2 = i)).getD 0xFFFFFFFF)).flatMap (leBytes 4)
      let node := fun (l : List Nat) => padTo g.nodeBytes (leBytes 4 l.length ++ l.flatMap (leBytes 4))
      let pieces := [put d.out (padTo 64 (leBytes 8 (d.out + 64) ++ leBytes 4 ix.seq ++ leBytes 4 0)), put (d.out + 64) header,
        put (at_ 0) (entries.flatMap (leBytes 4)), put (at_ 1) labels.flatten, put (at_ 2) auxs.flatten, put (at_ 3) (List.replicate (4 * n) 0#8)]
        ++ attrs.zipIdx.map (fun (c : List (List Byte) × Nat) => put (at_ (4 + c.2)) c.1.flatten)
        ++ (if g.isGraph then [put (at_ (4 + a)) (nbr.flatMap node)] else [])
        ++ [put (at_ (5 + a)) codes.flatten, put (at_ (7 + a)) remap]
        ++ (if g.refines then [put (at_ (8 + a)) refine.flatten] else [])
      let tombs := g.nodes + ix.side - n
      let sides := if g.isGraph then n - ln.length else 0
      let info := c32 y.keys ++ c32 y.expansions ++ c32 0 ++ c32 0 ++ c32 tombs ++ c32 y.nans ++ c32 sides ++ c32 y.full ++ c32 refine.length
        ++ leBytes 4 version ++ leBytes 4 ix.seq ++ leBytes 4 ix.side ++ c32 bad ++ leBytes 12 0
      .ok ⟨pieces, 0, if y.nans = 0 then 0 else 32, info, [0, y.keys, y.expansions, 0, 0, 0, y.nans, 0, y.full, refine.length]⟩

end Sys2Proof.Machine
end

