-- ==== Sys2Proof/Machine/Select.lean ====
section
/-! DEFINITION. Selection, ordering and sampling (10): keys and rank order (R247 to R249), radix top-k (R250), result blocks
(R251, R252), partial lists (R253, R254), sampling (R255 to R257), the extended record (R260). -/

namespace Sys2Proof.Machine

/-- The SELECT descriptor (R146). -/
structure SelDesc where
  mode : Nat
  fmt : Nat
  k : Nat
  len : Nat
  rows : Nat
  src : Nat
  out : Nat
  param : Nat
  deriving DecidableEq, Repr

def selOf (b : List Byte) : SelDesc :=
  ⟨fld b 0 1, fld b 1 1, fld b 4 4, fld b 8 4, fld b 0xC 4, fld b 0x10 8, fld b 0x18 8, fld b 0x20 8⟩

/-- An option block (R246). -/
structure SelOpt where
  list : Bool
  stride : Nat
  limit : Nat
  deriving DecidableEq, Repr

/-- The option block read at execution, or the DETAIL of what it breaks. -/
def SelDesc.opt (d : SelDesc) (rd : Reader) : Except (Nat × Nat) SelOpt :=
  if d.mode = 5 || d.param = 0 then .ok ⟨false, 0, 0⟩
  else match orFail (rd d.param 16) with
    | .error e => .error e
    | .ok b =>
      let o : SelOpt := ⟨bit (fld b 0 1) 0, fld b 4 4, fld b 8 8⟩
      if 1 < fld b 0 1 then .error (0x06, 0x20)
      else if fld b 1 3 ≠ 0 then .error (0x06, 0x21)
      else if o.list && d.fmt ≠ 0 then .error (0x06, 0x20)
      else if o.limit % 4 ≠ 0 then .error (0x06, 0x28)
      else .ok o

/-- Result slots of a row (R244). -/
def SelDesc.slots (d : SelDesc) : Nat :=
  match d.mode with
  | 0 => d.k
  | 3 | 4 => d.len
  | _ => 1

/-- Bytes of an entry, between rows of input (R245), and between result blocks (R251). -/
def SelDesc.entryBytes (d : SelDesc) (list : Bool) : Nat := if list then 16 else if d.fmt = 0 then 4 else 2
def SelDesc.rowBytes (d : SelDesc) (list : Bool) : Nat := roundUp (d.len * d.entryBytes list) 64
def SelDesc.blockBytes (d : SelDesc) (list : Bool) : Nat := roundUp (16 + (if list then 16 else 8) * d.slots) 64

/-- Working space of a row (R258). -/
def SelDesc.space (d : SelDesc) (topK : Nat) : Nat :=
  if d.mode ≤ 2 then 0x10000
  else if d.mode ≤ 4 || topK = 0 then roundUp (16 * d.len) 0x10000
  else 0x10000 + roundUp (16 * topK) 0x10000

/-- u of R247 for a w-bit code that is no NaN. -/
def rankKey (w b : Nat) (inv : Bool) : Nat :=
  let b := if b = 2 ^ (w - 1) then 0 else b
  let u := if bit b (w - 1) then 2 ^ w - 1 - b else b + 2 ^ (w - 1)
  if inv then 2 ^ w - 1 - u else u

/-- Rank order (R249): key and input index. -/
def rankFirst (a b : Nat × Nat) : Bool := b.1 < a.1 || (a.1 = b.1 && a.2 < b.2)

def rankInsert (e : Nat × Nat) : List (Nat × Nat) → List (Nat × Nat)
  | [] => [e]
  | h :: t => if rankFirst e h then e :: h :: t else h :: rankInsert e t

/-- Entries in rank order. -/
def rankSort (l : List (Nat × Nat)) : List (Nat × Nat) := l.foldl (fun a e => rankInsert e a) []

/-- The largest byte at which the count of candidates at or above it reaches `need`. -/
def radixByte (cand : List (Nat × Nat)) (sh need : Nat) : Nat → Nat
  | 0 => 0
  | b + 1 => if need ≤ (cand.filter (fun e => b + 1 ≤ e.1 / 2 ^ sh % 256)).length then b + 1 else radixByte cand sh need b

/-- The passes of R250: accepted entries, then the last candidates in input order; and keys read. -/
def radixPasses (w : Nat) : Nat → Nat → List (Nat × Nat) → List (Nat × Nat) → Nat → List (Nat × Nat) × Nat
  | 0, need, cand, acc, read => (acc ++ cand.take need, read)
  | n + 1, need, cand, acc, read =>
    let sh := 8 * n
    let bt := radixByte cand sh need 255
    let excess := cand.filter (fun e => bt < e.1 / 2 ^ sh % 256)
    radixPasses w n (need - excess.length) (cand.filter (fun e => e.1 / 2 ^ sh % 256 = bt)) (acc ++ excess) (read + cand.length)

/-- Top-k (R250): the first min(k, n) entries in rank order, and keys read. -/
def topK (w k : Nat) (l : List (Nat × Nat)) : List (Nat × Nat) × Nat :=
  let need := min k l.length
  if need = 0 then ([], 0)
  else
    let r := radixPasses w (w / 8) need l [] 0
    (rankSort r.1, r.2)

/-- What one row leaves: its slots (bytes of each), NaN count, DROPPED, and keys read and passes made. -/
structure SelRow where
  slots : List (List Byte)
  nan : Nat
  dropped : Nat
  keys : Nat
  passes : Nat
  deriving DecidableEq, Repr

def SelDesc.width (d : SelDesc) (list : Bool) : Nat := if list || d.fmt = 0 then 32 else 16

/-- The mode's order over ranked entries: result, keys read, passes. DEDUCED (log entry 64). -/
def SelDesc.order (d : SelDesc) (w entries : Nat) (l : List (Nat × Nat)) : List (Nat × Nat) × Nat × Nat :=
  match d.mode with
  | 0 => let r := topK w d.k l; (r.1, r.2, if l = [] then 0 else w / 8)
  | 1 | 2 => ((rankSort l).take 1, entries, 1)
  | _ => (rankSort l, l.length * (w / 8), w / 8)

def SelDesc.inverts (d : SelDesc) : Bool := d.mode = 2 || d.mode = 3

/-- A dense row in modes 0 to 4. -/
def SelDesc.dense (d : SelDesc) (row : List Byte) (n : Nat) : SelRow :=
  let f := fmtD d.fmt
  let code := fun (i : Nat) => f.codeAt row i
  let ok := (List.range n).filter (fun i => !(f.decode (code i)).isNan)
  let r := d.order (d.width false) n (ok.map (fun i => (rankKey (d.width false) (code i) d.inverts, i)))
  ⟨r.1.map (fun e => leBytes 4 e.2 ++ leBytes 4 (toF32 (f.decode (code e.2))).toNat), n - ok.length, 0, r.2.1, r.2.2⟩

/-- A list entry: ID, key, source, input index. -/
structure ListEnt where
  id : Nat
  key : Nat
  src : Nat
  ix : Nat
  deriving DecidableEq, Repr

/-- a displaces b as the kept copy (R254). -/
def ListEnt.beats (a b : ListEnt) : Bool :=
  let ka := rankKey 32 a.key false
  let kb := rankKey 32 b.key false
  kb < ka || (ka = kb && (a.src < b.src || (a.src = b.src && a.ix < b.ix)))

/-- One copy of each ID, in order of their own input indices. -/
def keepBest (l : List ListEnt) : List ListEnt := l.filter (fun e => !(l.any (fun f => f.id = e.id && f.beats e)))

/-- A list-form row (R253, R254). -/
def SelDesc.listRow (d : SelDesc) (row : List Byte) (n : Nat) : SelRow :=
  let ents := (List.range n).map (fun i => (⟨fld row (16 * i) 8, fld row (16 * i + 8) 4, fld row (16 * i + 12) 2, i⟩ : ListEnt))
  let real := ents.filter (fun e => e.id ≠ 2 ^ 64 - 1)
  let ok := real.filter (fun e => !(f32 (BitVec.ofNat 32 e.key)).isNan)
  let kept := keepBest ok
  let r := d.order 32 real.length (kept.map (fun e => (rankKey 32 e.key d.inverts, e.ix)))
  ⟨r.1.filterMap (fun e => (kept.find? (fun f => f.ix = e.2)).map (fun f =>
      leBytes 8 f.id ++ leBytes 4 f.key ++ leBytes 2 f.src ++ leBytes 2 0)),
    real.length - ok.length, ok.length - kept.length, r.2.1, r.2.2⟩

/-! ### Sampling -/

/-- A sampling parameter block (R255). -/
structure SampleParam where
  seed : Dword
  step : Nat
  draw : Nat
  temp : Word
  topK : Nat
  topP : Word
  mask : Nat
  deriving DecidableEq, Repr

def sampleOf (b : List Byte) : SampleParam :=
  ⟨BitVec.ofNat 64 (fld b 0 8), fld b 8 4, fld b 0xC 4, BitVec.ofNat 32 (fld b 0x10 4), fld b 0x14 4, BitVec.ofNat 32 (fld b 0x18 4),
    fld b 0x20 8⟩

/-- The DETAIL of a parameter block that breaks R255. -/
def SampleParam.bad (p : SampleParam) : Option Nat :=
  if (f32 p.temp).isNan then some 0x30
  else if 65536 < p.topK then some 0x34
  else if (f32 p.topP).isNan then some 0x38
  else none

/-- The draw r of R257. -/
def SampleParam.word (p : SampleParam) : Nat := (philox p.seed p.step p.draw 0 1).1.toNat

/-- 1 / x rounded once, an infinity of its sign at a zero. -/
def recip32 (x : Word) : Word :=
  toF32 (match f32 x with
    | .nan => .nan
    | .inf n => .fin n 0
    | .fin n m => if m = 0 then .inf n else .fin n (1 / m))

/-- Running sums of p in rank order. -/
def prefixSums (fl : Word → Word) : Word → List Word → List Word
  | _, [] => []
  | c, p :: t => fl (f32Add c p) :: prefixSums fl (fl (f32Add c p)) t

/-- What sampling finds in a row: the chosen entry, and how many entries were NaN or dropped. -/
structure Sampled where
  pick : Option Nat
  nan : Nat
  dropped : Nat
  deriving DecidableEq, Repr

/-- One sampled row (R256): `x` are the entries widened to FP32, `allow` the mask, `fl` what the flush flag makes of a word that the whisk
reads or writes (R49). -/
def sampleRow (fl : Word → Word) (p : SampleParam) (x : List Word) (allow : Nat → Bool) : Sampled :=
  let open_ := (List.range x.length).filter allow
  let masked := x.length - open_.length
  let ok := open_.filter (fun i => !(f32 (nth 0#32 x i)).isNan)
  let nan0 := open_.length - ok.length
  let temp := f32 (fl p.temp)
  if temp.lt Val.zero || temp.numEq Val.zero then
    let r := rankSort (ok.map (fun i => (rankKey 32 (nth 0#32 x i).toNat false, i)))
    ⟨(r.head?).map (·.2), nan0, masked⟩
  else
    let inv := fl (recip32 (fl p.temp))
    let score := fun (i : Nat) => fl (f32Mul (fl (nth 0#32 x i)) inv)
    let sc := ok.map (fun i => (score i, i))
    let good := sc.filter (fun e => !(f32 e.1).isNan)
    let cand := good.filter (fun e => e.1 ≠ negInf)
    let nan := nan0 + (sc.length - good.length)
    let dropped := masked + (good.length - cand.length)
    let order := rankSort (cand.map (fun e => (rankKey 32 e.1.toNat false, e.2)))
    let order := if p.topK = 0 then order else order.take p.topK
    match order with
    | [] => ⟨none, nan, dropped⟩
    | first :: _ =>
      let mx := score first.2
      let ps := order.map (fun e => if mx = 0x7F800000#32 then (if score e.2 = 0x7F800000#32 then f32One else 0#32) else exBy fl (fl (f32Sub (score e.2) mx)))
      let cs := prefixSums fl 0#32 ps
      let last := (cs.getLast?).getD 0#32
      let topP := fl p.topP
      let cuts := Val.zero.lt (f32 topP) && (f32 topP).lt (f32 f32One)
      let kept := if cuts then
          let th := fl (f32Mul topP last)
          match cs.findIdx? (fun c => !(f32 c).lt (f32 th)) with
          | some j => j + 1
          | none => cs.length
        else cs.length
      let zk := nth 0#32 cs (kept - 1)
      let t := fl (toF32 ((Val.ofRat ((p.word : Rat) / 4294967296)).mul (f32 zk)))
      let hit := match (cs.take kept).findIdx? (fun c => (f32 t).lt (f32 c)) with
        | some j => some j
        | none => ((List.range kept).filter (fun j => Val.zero.lt (f32 (nth 0#32 ps j)))).getLast?
      ⟨hit.map (fun j => (nth (0, 0) order j).2), nan, dropped⟩

/-- A bitmap's bit i: bit i mod 8 of byte i / 8. -/
def mapBit (m : List Byte) (i : Nat) : Bool := bit (fld m (i / 8) 1) (i % 8)

/-- A row in mode 5. -/
def SelDesc.sample (x : Run) (d : SelDesc) (share r : Nat) (row : List Byte) : Except (Nat × Nat) SelRow :=
  let f := fmtD d.fmt
  match orFail (x.rdOf r (d.param + 48 * r) 48) with
  | .error e => .error e
  | .ok b =>
    let p := sampleOf b
    match p.bad with
    | some off => .error (0x06, off)
    | none =>
      if share < d.space p.topK then .error (0x0A, 0)
      else
        match (if p.mask = 0 then Except.ok [] else orFail (x.chk r p.mask (ceilDiv d.len 8))) with
        | .error e => .error e
        | .ok m =>
          let vals := (List.range d.len).map (fun i => toF32 (f.decode (f.codeAt row i)))
          let s := sampleRow x.fl p (vals.map (x.flOf f)) (fun i => p.mask = 0 || mapBit m i)
          let w := d.width false
          let n := d.len - s.nan - s.dropped
          .ok ⟨(s.pick.toList).map (fun i => leBytes 4 i ++ leBytes 4 (nth 0#32 vals i).toNat), s.nan, s.dropped, n * (w / 8),
            if n = 0 then 0 else w / 8⟩

/-- The limit of a row (R246). -/
def SelDesc.limitAt (x : Run) (d : SelDesc) (o : SelOpt) (r : Nat) : Except (Nat × Nat) Nat :=
  if o.limit = 0 then .ok d.len
  else match orFail (x.chk r (o.limit + r * o.stride) 4) with
    | .error e => .error e
    | .ok b => .ok (min d.len (leNat b))

/-- One row of a SELECT. -/
def SelDesc.row (x : Run) (d : SelDesc) (o : SelOpt) (share r : Nat) : Except (Nat × Nat) SelRow :=
  match d.limitAt x o r with
  | .error e => .error e
  | .ok n =>
    match orFail (x.rdOf r (d.src + r * d.rowBytes o.list) (n * d.entryBytes o.list)) with
    | .error e => .error e
    | .ok row =>
      if d.mode = 5 then d.sample x share r row
      else .ok (if o.list then d.listRow row n else d.dense row n)

/-- The first row that cannot be worked through: the row of a failing read. -/
def SelDesc.failRow (x : Run) (d : SelDesc) (share : Nat) : Nat :=
  match d.opt (x.rdOf 0) with
  | .error _ => 0
  | .ok o => ((List.range d.rows).find? (fun r => match d.row x o share r with | .error _ => true | .ok _ => false)).getD 0

/-- The row whose result block holds an address, if one does. -/
def SelDesc.outRow (d : SelDesc) (list : Bool) (a : Nat) : Option Nat :=
  if within a 1 d.out (d.rows * d.blockBytes list) then some ((a - d.out) / d.blockBytes list) else none

/-- FLAGS of a row (R248, R252). -/
def SelRow.flags (q : Nat) (s : SelRow) : Nat :=
  (if s.slots.length < q then 1 else 0) + (if s.slots = [] then 64 else 0) + (if s.nan = 0 then 0 else 32)

/-- A row's result block (R251). -/
def SelRow.block (q : Nat) (list : Bool) (s : SelRow) : List Byte :=
  let empty := if list then leBytes 8 (2 ^ 64 - 1) ++ leBytes 4 0x7FC00000 ++ leBytes 2 0xFFFF ++ leBytes 2 0
    else leBytes 4 0xFFFFFFFF ++ leBytes 4 0x7FC00000
  leBytes 4 s.slots.length ++ leBytes 2 (s.flags q) ++ leBytes 2 0 ++ leBytes 4 s.nan ++ leBytes 4 s.dropped ++ s.slots.flatten
    ++ (List.replicate (q - s.slots.length) empty).flatten

/-- A SELECT: `share` is the largest share of the partition on a serving die. `stats`: rows, keys, passes, NaN, removed copies,
rows sampled. DEDUCED (log entry 64). -/
def selectWork (x : Run) (d : SelDesc) (share : Nat) : Except (Nat × Nat) Out :=
  match d.opt (x.rdOf 0) with
  | .error e => .error e
  | .ok o =>
    match mapE (d.row x o share) (List.range d.rows) with
    | .error e => .error e
    | .ok rows =>
      let q := d.slots
      let sum := fun (g : SelRow → Nat) => (rows.map g).sum
      let short := (rows.filter (fun s => s.slots.length < q)).length
      let none_ := (rows.filter (fun s => s.slots = [])).length
      .ok ⟨rows.zipIdx.map (fun (s : SelRow × Nat) => ⟨s.2, d.out + s.2 * d.blockBytes o.list, s.1.block q o.list⟩),
        sum (fun s => s.slots.length), rows.foldl (fun a s => a ||| s.flags q) 0,
        c32 (sum (·.nan)) ++ c32 (sum (·.dropped)) ++ c32 short ++ c32 none_ ++ c32 (sum (·.passes)) ++ leBytes 12 0,
        [rows.length, sum (·.keys), sum (·.passes), sum (·.nan), if o.list then sum (·.dropped) else 0, if d.mode = 5 then rows.length else 0]⟩

end Sys2Proof.Machine
end

