-- ==== Sys2Proof/Machine/Tiling.lean ====
section
/-! DEFINITION. How the firmware cuts core work into units (R109, R117 to R121, R125 to R128), and the staging each needs (R40). -/

namespace Sys2Proof.Machine

/-- What R117 lets the choice depend on besides the command: griddles on the enabled cores of the set, and whether a quarter of them
or more have a bypassed column. -/
structure Griddles where
  count : Nat
  narrow : Bool
  deriving DecidableEq, Repr

def State.griddles (s : State) (p : Nat) : Griddles :=
  let on := (s.coresOf p).filter (fun c => (s.core c).st = .enabled)
  let byp := (on.map (fun c => ((s.core c).byp.filter Option.isSome).length)).sum
  ⟨4 * on.length, on.length ≤ byp && byp ≠ 0⟩

/-- The units of a command: shape of a logical tile (rows, columns, chunks along K: R64, R119), K parts of an output tile, whether a
unit is a stripe, units of each entry, how many of them lie side by side in a row block, output tiles, and the staging bytes of all of them
(R40). -/
structure Tiling where
  tm : Nat
  tn : Nat
  tk : Nat
  parts : Nat
  stripes : Bool
  units : List Nat
  across : List Nat
  tiles : Nat
  staging : Nat
  deriving DecidableEq, Repr

/-- Chunks of a logical tile in a unit whose K range has this many (R119). -/
def tileChunks (chunks : Nat) : Nat := min 16 chunks

/-- Columns a tile of tm rows may have of the tn wished for: Tm × Tn is at most 65,536 (R64). -/
def fitCols (tm tn : Nat) : Nat := min tn (65536 / tm / 16 * 16)

/-- The candidates of R118 in order of preference. -/
def shapes (m n : Nat) : List (Nat × Nat) :=
  if m < n then [(256, 256), (128, 256), (256, 128), (128, 128), (64, 128), (128, 64), (64, 64)]
  else [(256, 256), (256, 128), (128, 256), (128, 128), (128, 64), (64, 128), (64, 64)]

/-- The shape of R118. -/
def shapeOf (g : Griddles) (live : Nat → Nat → Nat) (m n : Nat) : Nat × Nat :=
  let fit := fun (c : Nat × Nat) =>
    let tn := min c.2 (roundUp n 16)
    (min c.1 (roundUp m 16), if g.narrow && 63 * ceilDiv tn 64 < tn then 64 * ceilDiv tn 64 - 16 else tn)
  let cs := (shapes m n).map fit
  match cs.find? (fun c => 4 * g.count ≤ live c.1 c.2) with
  | some c => c
  | none => (cs.getLast?).getD (64, 64)

/-- The largest power of two not above n, at least 1. -/
def powBelow (n : Nat) : Nat := 2 ^ Nat.log2 n

/-- The smallest power of two not below n. -/
def powAbove (n : Nat) : Nat := if n ≤ powBelow n then powBelow n else 2 * powBelow n

/-- Chunks of a K part and the number of parts of an output tile (R120); one part where K is not split. -/
def splitOf (g live cnum : Nat) : Nat × Nat :=
  if g ≤ live || live = 0 || cnum < 4 then (cnum, 1)
  else
    let sp := min 16 (min (powBelow (g / live)) (powBelow (cnum / 2)))
    let pl := powAbove (ceilDiv cnum (max 1 sp))
    (pl, ceilDiv cnum pl)

/-- The largest multiple of 16 up to 512 for which `bytes` of the chain region fit 2 MiB (R103), with rows of at least `cols` columns
within R64's limit. -/
def stripeRows (cols : Nat) (bytes : Nat → Nat) : Nat :=
  match ((List.range 32).map (fun i => 512 - 16 * i)).find? (fun t => bytes t ≤ 0x200000 && t * cols ≤ 65536) with
  | some t => t
  | none => 16

/-- Tkv of R121: the largest multiple of L_c up to 512 for which `bytes` of the chain region fit and Tm × Tkv keeps R64's limit.
Tm is chosen first, with one chunk of keys. DESIGN CHOICE (log entry 103). -/
def keyBlock (lc tm : Nat) (bytes : Nat → Nat) : Nat :=
  match ((List.range (512 / lc)).map (fun i => (512 / lc - i) * lc)).find? (fun t => bytes t ≤ 0x200000 && tm * t ≤ 65536) with
  | some t => t
  | none => lc

/-- R120's conditions on the chain. -/
def Chain.splits (c : Chain) : Bool :=
  !(c.chained || c.landEn || c.proA.any (fun st => st.op = 0x85) || c.epi.any Stage.isNorm)

/-- Live output tiles of a shape. -/
def liveTiles (es : List Entry) (m n tm tn : Nat) : Nat :=
  (es.map (fun e => ceilDiv (e.lim 1 m) tm * ceilDiv (e.lim 2 n) tn)).sum

/-- Nodes that the K parts of an output tile deliver (R36, R120). -/
def nodeCount (first cnum total pl parts : Nat) : Nat :=
  ((List.range parts).map (fun j =>
    let lo := first + j * pl
    let hi := min (first + (j + 1) * pl) (first + cnum)
    (nodesOf hi total (hi - lo + 1) lo).length)).sum

/-- The units of a PRODUCT (R113 to R121). -/
def ProdDesc.tiling (d : ProdDesc) (c c2 : Chain) (d2 : ProdDesc) (es : List Entry) (g : Griddles) (arrival : Bool) : Tiling :=
  let fa := fedFmt (fmtD d.fmtA) c.proA c.feedA
  let fb := fedFmt (fmtD d.fmtB) c.proB c.feedB
  let n := c.stored d.n
  let live := liveTiles es d.m n
  let sh := shapeOf g live d.m n
  let lc := chunkLen fa fb
  let cnum := ceilDiv d.k lc
  let stripes := fun (tm tn : Nat) =>
    let u := es.map (fun e => if e.lim 2 d.n = 0 then 0 else ceilDiv (e.lim 1 d.m) tm)
    (⟨tm, tn, tileChunks cnum, 1, true, u, u.map (fun _ => 1), u.sum, 0⟩ : Tiling)
  if c.landEn then
    let tm := min 512 (if c.landOp then sh.1 else c.tileRows)
    let tn := if c.landOp then c.tileRows else sh.2
    ⟨tm, fitCols tm tn, tileChunks cnum, 1, false, [], [if c.landOp then c.tiles else 1], c.tiles, 0⟩
  else if c.softChain && c.chained then
    let lc2 := chunkLen (fmtD c.chainFmt) (fedFmt (fmtD d2.fmtB) c2.proB c2.feedB)
    let bytes := fun (t kv : Nat) => 2 * t * c.interBytes d.n kv + c2.parkBytes d2.n + d.haloH * c.interBytes d.n lc2
    let tm := stripeRows lc2 (fun t => bytes t lc2)
    stripes tm (keyBlock lc2 tm (bytes tm))
  else if c.chained then
    let row := c.interBytes d.n 0
    let tm := stripeRows 16 (fun t => t * row + c2.parkBytes d2.n + d.haloH * row)
    stripes tm (fitCols tm (shapeOf g live d.m d.n).2)
  else if c.epi.any Stage.parks then stripes 64 (if d.n ≤ 128 then 128 else 256)
  else
    let sh := if c.epi.any Stage.defers then (sh.1, max 128 (sh.2 / 128 * 128)) else sh
    let sp := if c.splits then splitOf g.count (live sh.1 sh.2) cnum else (cnum, 1)
    let tilesOf := fun (e : Entry) => ceilDiv (e.lim 1 d.m) sh.1 * ceilDiv (e.lim 2 n) sh.2
    let chunks := fun (e : Entry) => ceilDiv (e.lim 3 d.k) lc
    let kept := fun (e : Entry) => if e.dim = 3 then max 1 (min sp.2 (ceilDiv (chunks e) (max 1 sp.1))) else sp.2
    let each := 4 * sh.1 * sh.2 * (if c.pairMode then 2 else 1)
    let stage := fun (e : Entry) =>
      let v := if d.ctotal = 0 then nodeCount 0 (chunks e) (chunks e) sp.1 (kept e) else nodeCount d.chunk0 cnum d.ctotal sp.1 sp.2
      if v ≤ 1 || (sp.2 = 1 && d.ctotal ≠ 0) then 0 else if arrival then each else (v - 1) * each
    ⟨sh.1, sh.2, tileChunks sp.1, sp.2, false, es.map (fun e => tilesOf e * kept e), es.map (fun e => ceilDiv (e.lim 2 n) sh.2 * kept e),
      live sh.1 sh.2,
      (es.map (fun e => tilesOf e * stage e)).sum⟩

/-- The units of an ATTEND: stripes of query rows. -/
def AttDesc.tiling (d : AttDesc) (c : Chain) (rows : List Nat) : Tiling :=
  let fc := if d.chain = 0 then freeChainFmt else fmtD c.chainFmt
  let lc := chunkLen fc (fmtD d.fmtKV)
  let halo := if d.mode = 0 && d.mask = 2 then (d.window - 1) * fc.rowBytes lc else 0
  let bytes := fun (t kv : Nat) => 2 * t * fc.rowBytes kv + halo
  let tm := if d.mode = 1 then 64 else stripeRows lc (fun t => bytes t lc)
  let u := rows.map (fun r => ceilDiv r tm)
  ⟨tm, keyBlock lc tm (bytes tm), tileChunks (ceilDiv d.dim (chunkLen (fmtD d.fmtQ) (fmtD d.fmtKV))), 1, true, u, u.map (fun _ => 1), u.sum, 0⟩

/-- A command without units. -/
def Tiling.none : Tiling := ⟨0, 0, 1, 1, false, [], [], 0, 0⟩

/-- All units of a command in queue order. -/
def Tiling.total (t : Tiling) : Nat := t.units.sum

/-- Units that are not the first of their entry, each with its index in the entry: those that consume a halo (R127, R128). -/
def Tiling.haloUnits (t : Tiling) : List (Nat × Nat) :=
  (t.units.foldl (fun (a : List (Nat × Nat) × Nat) u =>
    (a.1 ++ (List.range (u - 1)).map (fun i => (a.2 + i + 1, i + 1)), a.2 + u)) ([], 0)).1

/-! ### Dealing among dies (R113, R132) -/

/-- f_q of R130: the rates of die q's griddles in partition p's core set at the last laggard check, each times its fold efficiency for units
tn columns wide: the blocks a full griddle needs divided by the blocks it needs. -/
def State.dieRate (s : State) (p tn q : Nat) : Rat :=
  (((s.coreSet p).filter (fun c => c / 52 = q)).map (fun c =>
    (((s.core c).rates.zipIdx).map (fun r =>
      r.1 * ((ceilDiv tn 64 : Nat) : Rat) / ((max 1 (ceilDiv tn (if (nth none (s.core c).byp r.2).isSome then 63 else 64)) : Nat) : Rat))).sum)).sum

/-- w_q: die q's weight among the dies of a set (R132): by the measured rates once the firmware has lowered the share of one of them;
before that, every die has weight 1. DESIGN CHOICE (log entry 106). -/
def State.dieShare (s : State) (p tn : Nat) (set : List Nat) (q : Nat) : Rat :=
  let t := (set.map (s.dieRate p tn)).sum
  if t = 0 || !(set.any (fun d => (s.die d).lowered)) then 1 / (set.length : Rat) else s.dieRate p tn q / t

/-- A positive rational rounded to the nearest whole number, ties up. -/
def roundRat (x : Rat) : Nat := (x + 1 / 2).floor.toNat

/-- Units of each die, remainders to the lowest. -/
def State.dealCounts (s : State) (p tn : Nat) (set : List Nat) (u : Nat) : List (Nat × Nat) :=
  match set with
  | [] => []
  | q :: rest =>
    let r := rest.foldl (fun (a : List (Nat × Nat) × Nat) d =>
      let n := min a.2 (roundRat ((u : Rat) * s.dieShare p tn set d))
      (a.1 ++ [(d, n)], a.2 - n)) ([], u)
    (q, r.2) :: r.1

/-- The contiguous ranges of queue order. -/
def rangesOf : Nat → List (Nat × Nat) → List DieRange
  | _, [] => []
  | lo, (q, n) :: t => ⟨q, lo, lo + n⟩ :: rangesOf (lo + n) t

/-- DEDUCED (log entry 50). -/
def State.deal (s : State) (p tn u : Nat) : List DieRange := rangesOf 0 (s.dealCounts p tn (s.diesOf p) u)

/-- The die whose queue holds unit i. -/
def dieOfUnit (rs : List DieRange) (i : Nat) : Nat :=
  match rs.find? (fun r => r.lo ≤ i && i < r.hi) with
  | some r => r.die
  | none => 0

/-! ### Landing (R109) -/

/-- Semaphore i of die q's store; beyond the store, a number that no window holds. -/
def semKey (q i : Nat) : Nat := if i < 0x4000 then q * 0x4000 + i else 0x10000 + i

/-- The home core of a landing tile. DEDUCED (log entry 50). -/
def State.homeCore (s : State) (p : Nat) (c : Chain) (t : Nat) : Nat :=
  let on := (s.coreSet p).filter (fun k => (s.core k).st = .enabled)
  let n := max 1 (min c.landCores on.length)
  nth 0 on (t % n)

/-- The arrival semaphore of each landing tile. -/
def State.landSems (s : State) (p : Nat) (c : Chain) : List Nat :=
  if c.landEn then (List.range c.tiles).map (fun t => semKey (s.homeCore p c t / 52) (c.semBase + t)) else []

/-- Landing slots of a home core (R109, R111): up to 4, as many as fit the chain budget beside `used` bytes. A slot is Tk of TILE_ROWS rows in the
landing format. -/
def Chain.landRoom (c : Chain) (f : Fmt) (tk used : Nat) : Nat :=
  min 4 ((0x200000 - used) / max 1 (c.tileRows * f.rowBytes tk))

/-- The halo semaphores of a tiling's units, with the units, on the dies whose queues hold them (R128). DEDUCED (log entry 62). -/
def Tiling.halo (t : Tiling) (rs : List DieRange) (base : Nat) : List (Nat × Nat) :=
  t.haloUnits.map (fun i => (semKey (dieOfUnit rs i.1) (base % 0x4000 + i.2), i.1))

end Sys2Proof.Machine
end

