-- ==== Sys2Proof/Machine/Capsule.lean ====
section
/-! DEFINITION. Acceptance of a command (06): the checks of R147 over the header (R139, R140), the descriptors (R142 to R146), the
chain block and the regions of R581; list capsules (R141, R578); rejection (R156, R166). -/

namespace Sys2Proof.Machine

/-! ### Opcodes -/

def opNOP : Nat := 0x00
def opPRODUCT : Nat := 0x01
def opATTEND : Nat := 0x02
def opGATHER : Nat := 0x03
def opSCATTER : Nat := 0x04
def opSEARCH : Nat := 0x05
def opSELECT : Nat := 0x06
def opTOKENIZE : Nat := 0x07
def opDETOKENIZE : Nat := 0x08
def opPACK : Nat := 0x09
def opSTEP : Nat := 0x0A
def opCOPY : Nat := 0x0B
def opMIGRATE : Nat := 0x0C
def opCOLLECT : Nat := 0x0D
def opSEMOP : Nat := 0x0E
def opSWITCH : Nat := 0x0F
def opMERGE : Nat := 0x10

/-- Descriptor bytes of an opcode (R142). -/
def descBytes (op : Nat) : Nat :=
  [0, 104, 96, 40, 32, 48, 40, 40, 40, 40, 16, 32, 24, 40, 16, 16, 24].getD op 0

/-! ### The small descriptors (R146) -/

structure CopyDesc where
  src : Nat
  dst : Nat
  bytes : Nat
  dev : Nat
  deriving DecidableEq, Repr

def copyOf (b : List Byte) : CopyDesc := ⟨fld b 0 8, fld b 8 8, fld b 0x10 8, fld b 0x18 2⟩

structure MigDesc where
  base : Nat
  bytes : Nat
  hint : Nat
  tier : Nat
  deriving DecidableEq, Repr

def migOf (b : List Byte) : MigDesc := ⟨fld b 0 8, fld b 8 8, fld b 0x10 1, fld b 0x11 1⟩

structure CollDesc where
  kind : Nat
  fmt : Nat
  comm : Nat
  src : Nat
  dst : Nat
  bytes : Nat
  splits : Nat
  deriving DecidableEq, Repr

def collOf (b : List Byte) : CollDesc := ⟨fld b 0 1, fld b 1 1, fld b 2 2, fld b 8 8, fld b 0x10 8, fld b 0x18 8, fld b 0x20 8⟩

/-- M and N of a node reduce-scatter (R446). DEDUCED (log entry 45). -/
def CollDesc.rows (d : CollDesc) : Nat := d.splits % 2 ^ 32
def CollDesc.cols (d : CollDesc) : Nat := d.splits / 2 ^ 32

structure SemopDesc where
  op : Nat
  dev : Nat
  sem : Nat
  n : Nat
  deriving DecidableEq, Repr

def semopOf (b : List Byte) : SemopDesc := ⟨fld b 0 1, fld b 2 2, fld b 4 2, fld b 8 4⟩

structure SwitchDesc where
  slot : Nat
  kind : Nat
  version : Nat
  base : Nat
  deriving DecidableEq, Repr

def switchOf (b : List Byte) : SwitchDesc := ⟨fld b 0 2, fld b 2 1, fld b 4 4, fld b 8 8⟩

structure StepDesc where
  action : Nat
  model : Nat
  count : Nat
  list : Nat
  deriving DecidableEq, Repr

def stepOf (b : List Byte) : StepDesc := ⟨fld b 0 1, fld b 2 2, fld b 4 4, fld b 8 8⟩

/-! ### Rights (R495) -/

/-- Opcodes whose engines stand on the compute dies: the local aperture of the stockpot is theirs (R585). -/
def dieServed (op : Nat) : Bool := coreWork op && op ≠ opSTEP || dieWork op

/-- Whether partition p's command of an opcode may make an access of [a, a+n). -/
def State.mayAccess (s : State) (p op : Nat) (wr : Bool) (a n : Nat) : Bool :=
  n = 0 || s.inWindow p wr a n || (op ≠ opCOPY && s.inRawWindow p a n) || (dieServed op && s.inLocalPot p a n)

/-- The reader of a unit of a die for a command: held to the partition's windows. -/
def State.unitReader (s : State) (p op : Nat) (me : Option CmdRef) (die : Option Nat) : Reader :=
  fun a n => if s.mayAccess p op false a n then s.readFor p die me a n else .error (.access a)

/-- The reader of the descriptor checker. -/
def State.checkReader (s : State) (p op : Nat) : Reader := s.unitReader p op none ((s.diesOf p).head?)

/-! ### Rejections -/

/-- Why a command is rejected: STATUS, DETAIL, COUNT, STAGE, and the semaphore named outside the windows, if that is why. -/
structure Reject where
  status : Nat
  detail : Nat
  count : Nat
  stage : Nat
  sem : Option Nat
  deriving DecidableEq, Repr

def rejectBy (status detail : Nat) : Reject := ⟨status, detail, 0, 0xFF, none⟩

/-- The offset of the first test of a list that holds. -/
def firstOf (l : List (Nat × Bool)) : Option Nat := (l.find? (fun e => e.2)).map (fun e => e.1)

/-! ### Check 1: the header -/

/-- Offset of the first fault of a wait or signal list at `off` (R139, R140). -/
def entriesBad (off : Nat) (es : List Nat) : Option Nat :=
  let one := fun (x : Nat × Nat) =>
    let e := x.1
    let o := off + 4 * x.2
    if entKind e = 3 then some (o + 3)
    else if entKind e ≠ 0 && entN e = 0 then some (o + 2)
    else if entKind e ≠ 0 && (es.take x.2).any (fun f => entKind f ≠ 0 && entSem f = entSem e) then some o
    else none
  es.zipIdx.findSome? one

/-- Offset in the header of the first fault of check 1. `want` is the descriptor length, none where it is not fixed. DEDUCED (log entry 44). -/
def headerBad (op : Nat) (h : CapHdr) (body : Nat) (want : Option Nat) (inList : Bool) : Option Nat :=
  firstOf [(0x00, decide (h.version ≠ 1#8)),
    (0x01, hIsList h && !inList && decide (op ≠ 0)),
    (0x02, decide (h.length.toNat ≠ 64 + body) || decide (4096 < h.length.toNat) ||
      (match want with | some w => decide (body ≠ w) | none => false)),
    (0x04, bit h.flags.toNat 7 || decide (2 ≤ hRnd h) || (hIsList h && inList)),
    (0x05, decide (h.flags.toNat / 256 ≠ 0)),
    (0x06, decide (h.energy.toNat / 16 ≠ 0)),
    (0x07, decide (h.rsv ≠ 0#8))]
  <|> (if hIsList h then
      ((hWaits h).findIdx? (fun e => entKind e ≠ 0)).map (fun i => 0x18 + 4 * i)
        <|> ((hSignals h).findIdx? (fun e => entKind e ≠ 0)).map (fun i => 0x28 + 4 * i)
    else entriesBad 0x18 (hWaits h) <|> entriesBad 0x28 (hSignals h))

/-! ### Check 5: descriptor fields -/

/-- A format whose operand rows carry no scale (R26, R29). -/
def unscaled (f : Nat) : Bool := !(scaledFmt f)

/-- An operand format, or FP32 and MXINT4 where the operand has a prologue (R91, R93). -/
def operandOk (f pro : Nat) : Bool :=
  match fmtOf f with
  | some x => x.operand || (pro ≠ 0 && (f = 0x00 || f = 0x16))
  | none => false

/-- A code that R23 does not list. -/
def unknownFmt (f : Nat) : Bool := (fmtOf f).isNone

def storageOk (f : Nat) : Bool := match fmtOf f with | some x => x.storage | none => false

/-- The scale field of an operand: zero exactly where its format has no scales (R143); a multiple of 64 under a pointer list (R580). The
field of an FP8 or INT8 operand of a split product is held to this too, though R144 leaves its scales unread. DEDUCED (log entry 44). -/
def scaleBad (f sc : Nat) (plist : Bool) : Bool := decide (unscaled f ≠ decide (sc = 0)) || (plist && decide (sc % 64 ≠ 0))

/-- Offset of the first bad field of a PRODUCT; in arrival order its K range needs no alignment (R41). DEDUCED (log entry 44). -/
def ProdDesc.bad (d : ProdDesc) (c : Chain) (arrival : Bool) : Option Nat :=
  let lc := chunkLen (fmtD d.fmtA) (fmtD d.fmtB)
  let local_ := ceilDiv d.k lc
  firstOf [(0x00, decide (d.m = 0) || decide (2 ^ 31 ≤ d.m)),
    (0x04, decide (d.n = 0) || decide (2 ^ 31 ≤ d.n) || (c.pairMode && decide (d.n % 2 ≠ 0))),
    (0x08, decide (2 ^ 31 ≤ d.k)),
    (0x0C, !(operandOk d.fmtA c.nProA)), (0x0D, !(operandOk d.fmtB c.nProB)), (0x0E, if c.chained then unknownFmt d.fmtC else !(storageOk d.fmtC)),
    (0x34, if d.plist then decide (d.count = 0) || decide (65536 < d.count) else decide (d.count ≠ 0)),
    (0x10, d.plist && decide (d.aBase % 32 ≠ 0)),
    (0x38, scaleBad d.fmtA d.scaleA d.plist), (0x40, scaleBad d.fmtB d.scaleB d.plist),
    (0x48, decide (d.chain % 32 ≠ 0)),
    (0x48, decide (d.ctotal ≠ 0) && decide (d.chain ≠ 0)),
    (0x0E, decide (d.ctotal ≠ 0) && decide (d.fmtC ≠ 0)),
    (0x50, if d.ctotal = 0 then decide (d.chunk0 ≠ 0) else decide (d.ctotal < d.chunk0 + local_)),
    (0x58, decide (d.conv ≠ 0) && (decide (d.haloH = 0) || decide (15 < d.haloH))),
    (0x08, !arrival && decide (d.ctotal ≠ 0) && decide (d.k % lc ≠ 0) && decide (d.chunk0 + local_ ≠ d.ctotal))]

/-- Offset of the first bad field of the second descriptor of a chained pair. DEDUCED (log entries 44, 59). -/
def ProdDesc.bad2 (d : ProdDesc) (c2 : Chain) (kIs : Nat) : Option Nat :=
  (firstOf [(0x00, decide (d.m = 0) || decide (2 ^ 31 ≤ d.m)),
    (0x04, decide (d.n = 0) || decide (2 ^ 31 ≤ d.n) || (c2.pairMode && decide (d.n % 2 ≠ 0))),
    (0x08, decide (d.k ≠ kIs)), (0x0D, !(operandOk d.fmtB c2.nProB)), (0x0E, !(storageOk d.fmtC)),
    (0x34, decide (d.count ≠ 0)),
    (0x40, scaleBad d.fmtB d.scaleB false), (0x50, decide (d.chunk0 ≠ 0)), (0x54, decide (d.ctotal ≠ 0))]).map (104 + ·)

/-- Offset of the first bad field of an ATTEND; `inFwd` says that it is a record of a forward list. DEDUCED (log entry 44). -/
def AttDesc.bad (d : AttDesc) (c c2 : Chain) (inFwd : Bool) : Option Nat :=
  let att := decide (d.mode = 0)
  firstOf [(0x00, decide (1 < d.mode)),
    (0x01, if att then !(operandOk d.fmtQ c.nProA) else unknownFmt d.fmtQ),
    (0x02, if att then !(operandOk d.fmtKV (min c.nProB c2.nProB)) else unknownFmt d.fmtKV),
    (0x03, !(storageOk d.fmtO) || (d.unnorm && decide (d.fmtO ≠ 0))),
    (0x04, if att then decide (d.hq = 0) else decide (d.hq < 2) || decide (64 < d.hq)),
    (0x06, att && (decide (d.hkv = 0) || decide (d.hq % d.hkv ≠ 0))),
    (0x08, decide (d.dim < 16) || decide (512 < d.dim) || decide (d.dim % 16 ≠ 0)),
    (0x0A, decide (2 < d.mask)), (0x0B, d.paged && !(inFwd && att)),
    (0x0C, decide (d.mask = 2) && decide (d.window = 0)),
    (0x3C, decide (65536 < d.count) || (d.paged && decide (d.count = 0))),
    (0x40, decide (d.count ≠ 0) && decide (d.plist % 32 ≠ 0)),
    (0x48, decide (d.chain % 32 ≠ 0))]

/-- DEDUCED (log entry 45). -/
def GatherDesc.bad5 (d : GatherDesc) : Option Nat :=
  firstOf [(0x00, decide (4096 ≤ d.slot)), (0x02, decide (3 < d.pool)),
    (0x03, !(decide (d.fmt ≤ 2) || rowFmt d.fmt || decide (d.fmt = 0xFF))), (0x08, decide (d.idx % 8 ≠ 0))]

def ScatterDesc.bad5 (d : ScatterDesc) : Option Nat :=
  firstOf [(0x00, decide (4096 ≤ d.slot)), (0x02, decide (2 < d.fmt)), (0x08, decide (d.idx % 8 ≠ 0))]

def SearchDesc.bad5 (d : SearchDesc) : Option Nat :=
  firstOf [(0x00, decide (256 ≤ d.slot)), (0x02, decide (d.k = 0)), (0x04, decide (d.beam < 16) || decide (1024 < d.beam)),
    (0x06, decide (d.k < d.refine)), (0x0C, decide (d.expand ≠ 0) && (decide (d.expand < d.beam) || decide (1024 < d.expand))),
    (0x28, decide (1 < d.qfmt))]

/-- DEDUCED (log entry 64). -/
def SelDesc.bad5 (d : SelDesc) : Option Nat :=
  let lens := [2 ^ 24, 2 ^ 24, 2 ^ 24, 2 ^ 22, 2 ^ 22, 2 ^ 20]
  firstOf [(0x00, decide (5 < d.mode)), (0x01, decide (2 < d.fmt)),
    (0x04, decide (d.mode = 0) && (decide (d.k = 0) || decide (65536 < d.k))),
    (0x08, decide (d.len = 0) || decide (lens.getD d.mode 0 < d.len)), (0x0C, decide (d.rows = 0) || decide (65536 < d.rows)),
    (0x10, decide (d.src % 64 ≠ 0)), (0x20, decide (d.param % 16 ≠ 0))]

/-- A stream number that a command may not name in a partition with this stream area (R272). -/
def streamBad (st area : Nat) : Bool := decide (st ≠ 0xFFFF) && (decide (4096 ≤ st) || decide (area = 0))

/-- DEDUCED (log entry 45). -/
def TokDesc.bad5 (d : TokDesc) (area inline : Nat) : Option Nat :=
  firstOf [(0x00, decide (1024 ≤ d.slot)), (0x02, streamBad d.stream area),
    (0x04, decide (2 ^ 24 < d.len) || (decide (d.base = 0) && decide (inline < d.len))),
    (0x10, decide (d.limit = 0) || decide (2 ^ 24 < d.limit)), (0x14, decide (1 < d.trunc)),
    (0x18, decide (d.trunc = 1) && decide (d.limit < d.head)), (0x20, decide (d.out % 64 ≠ 0))]

def DetokDesc.bad5 (d : DetokDesc) (area : Nat) : Option Nat :=
  firstOf [(0x00, decide (1024 ≤ d.slot)), (0x02, streamBad d.stream area), (0x04, decide (65536 < d.count))]

def CopyDesc.bad5 (d : CopyDesc) : Option Nat := firstOf [(0x10, decide (d.bytes = 0) || decide (2 ^ 40 < d.bytes))]

/-- The zone in which a range of pages lies, if it is one zone of the tiered range: 0 HBM, 1 DDR5, 2 flash. -/
def zoneTier (a n : Nat) : Option Nat :=
  if within a n hbmBase hbmSize then some 0
  else if within a n ddrBase ddrSize then some 1
  else if within a n flsBase flsSize then some 2
  else none

def MigDesc.bad5 (d : MigDesc) : Option Nat :=
  let z := zoneTier d.base d.bytes
  firstOf [(0x00, decide (d.base % pageBytes ≠ 0) || z.isNone),
    (0x08, decide (d.bytes = 0) || decide (d.bytes % pageBytes ≠ 0)),
    (0x10, decide (3 < d.hint)),
    (0x11, (decide (d.tier = 0) && decide (d.hint = 3)) || ((decide (d.tier = 1) || decide (d.tier = 2)) && decide (z ≠ some d.tier))
      || !(decide (d.tier ≤ 2) || decide (d.tier = 0xFE) || decide (d.tier = 0xFF)))]

def CollDesc.bad5 (d : CollDesc) : Option Nat :=
  firstOf [(0x00, decide (3 < d.kind)), (0x01, unknownFmt d.fmt || (decide (d.kind = 1) && decide (2 < d.fmt)) || (decide (d.kind = 3) && decide (d.fmt ≠ 0))),
    (0x20, decide (d.kind = 2) && decide (d.splits % 8 ≠ 0))]

def SemopDesc.bad5 (d : SemopDesc) : Option Nat :=
  firstOf [(0x00, decide (2 < d.op) || (decide (d.op = 2) && decide (d.dev ≠ 0xFFFF))), (0x08, decide (d.op ≠ 2) && decide (d.n = 0))]

def SwitchDesc.bad5 (d : SwitchDesc) : Option Nat :=
  firstOf [(0x02, decide (1 < d.kind)), (0x00, if d.kind = 0 then decide (4096 ≤ d.slot) else decide (256 ≤ d.slot)),
    (0x08, decide (d.base % 64 ≠ 0))]

def MergeDesc.bad5 (d : MergeDesc) : Option Nat :=
  firstOf [(0x00, decide (256 ≤ d.slot)), (0x08, decide (d.out % pageBytes ≠ 0))]

/-- Offset of the first bad field of a STEP (R297, R302, R311, R312, R330). DEDUCED (log entry 66). -/
def State.stepBad (s : State) (p : Nat) (d : StepDesc) : Option Nat :=
  if !(s.part p).srv.enabled then some 0x00
  else
    let m := s.model? p d.model
    firstOf [(0x00, decide (2 < d.action)),
      (0x02, decide (d.action ≤ 1) && (decide (16 ≤ d.model) || (match m with | some m => m.bad (s.frameBytes p) | none => true))),
      (0x04, decide (1 ≤ d.action) && (decide (d.count = 0) || decide (4096 < d.count))),
      (0x08, decide (1 ≤ d.action) && decide (d.list % 64 ≠ 0))]

/-! ### Regions (R581) -/

/-- A region: address, bytes, whether it is an output, the pointer-list entry it belongs to. -/
structure Region where
  addr : Nat
  len : Nat
  out : Bool
  entry : Option Nat
  deriving DecidableEq, Repr

/-- Bytes that rows of `row` bytes cover at a stride. -/
def rowSpan (rows stride row : Nat) : Nat := if rows = 0 then 0 else (rows - 1) * stride + row

/-- The bytes of one entry's data of a stream (R87). DEDUCED (log entry 57). -/
def Stream.span (st : Stream) (m n k pos : Nat) : Nat :=
  let f := (fmtOf st.fmt).getD .fp32
  match st.shape with
  | 0 => rowSpan m st.rowStride (f.rowBytes 1)
  | 1 => f.rowBytes n
  | 2 => rowSpan m st.rowStride (f.rowBytes n)
  | 3 => rowSpan m st.rowStride (f.rowBytes k)
  | 4 => rowSpan n st.rowStride (f.rowBytes k)
  | 5 => rowSpan (m + pos) st.rowStride 0
  | 6 => rowSpan m st.rowStride 4
  | 7 => rowSpan m st.rowStride (8 * ceilDiv n 128)
  | 8 => f.rowBytes k
  | _ => 0

/-- A chain block and its streams. -/
def Chain.regions (c : Chain) (m n k count pos : Nat) : List Region :=
  if c.addr = 0 then []
  else
    let stm := fun (out : Bool) (st : Stream) =>
      let tab := if st.shape = 5 then (match (c.proA ++ c.proB).find? (fun g => g.op = 0x85) with | some g => 4 * g.ropeDim | none => 0) else 0
      (⟨st.base, (count - 1) * st.batchStride + st.span m n k pos + tab, out, none⟩ : Region)
    (⟨c.addr, max 16 c.bytes, false, none⟩ : Region) :: (c.ins.map (stm false) ++ c.outs.map (stm true))

/-- An output of rows with, for an MX format, its scale array after it. -/
def outRegions (f : Fmt) (base rows stride n : Nat) (entry : Option Nat) : List Region :=
  let row := f.rowBytes n
  (⟨base, rowSpan rows stride row, true, entry⟩ : Region) ::
    (if f.mx then [(⟨scaleBase base rows stride row, rows * ceilDiv n 32, true, entry⟩ : Region)] else [])

/-- Regions of a PRODUCT; `es` are its entries, none where its list cannot be read. -/
def ProdDesc.regions (d d2 : ProdDesc) (c c2 : Chain) (es : Option (List Entry)) : List Region :=
  let fa := fmtD d.fmtA
  let fb := fmtD d.fmtB
  let fc := fmtD (if c.chained then d2.fmtC else d.fmtC)
  let cnt := if d.plist then d.count else 1
  let pos := match es with | some l => l.foldl (fun a e => max a e.pos) 0 | none => 0
  let ra := fun (a : Nat) (j : Option Nat) => (⟨a, rowSpan d.m d.strA (fa.rowBytes d.k), false, j⟩ : Region)
  let rb := fun (a : Nat) (j : Option Nat) => (⟨a, rowSpan d.n d.strB (fb.rowBytes d.k), false, j⟩ : Region)
  let rc := fun (a : Nat) (j : Option Nat) =>
    if d.ctotal ≠ 0 then
      [(⟨a, (nodesOf d.range.2 d.ctotal (d.range.2 - d.range.1 + 1) d.range.1).length * (16 + 4 * d.m * d.n), true, j⟩ : Region)]
    else if c.chained then outRegions fc a d2.m d2.strC (c2.stored d2.n) j
    else outRegions fc a d.m d.strC (c.stored d.n) j
  let ab : List Region :=
    if d.plist then
      (⟨d.aBase, 32 * d.count, false, none⟩ : Region) ::
        (match es with
          | some l => l.zipIdx.flatMap (fun e => [ra e.1.a (some e.2), rb e.1.b (some e.2)] ++ rc e.1.c (some e.2))
          | none => [])
    else [ra d.aBase none, rb d.bBase none] ++ (if c.chained then [] else rc d.cBase none)
  let sc := fun (x : Nat) (o : Opnd) =>
    if x = 0 then [] else [(⟨x, (cnt - 1) * roundUp o.scaleBytes 64 + o.scaleBytes, false, none⟩ : Region)]
  let e0 : Entry := ⟨0, 0, 0, 0, 0, 0⟩
  let first := ab ++ sc d.scaleA (d.opA e0 0) ++ sc d.scaleB (d.opB e0 0) ++ c.regions d.m d.n d.k cnt pos
    ++ (if d.conv = 0 then [] else [(⟨d.conv, 4 * (d.haloH + 1) * d.n, false, none⟩ : Region)])
  if c.chained then
    first ++ [(⟨d2.bBase, rowSpan d2.n d2.strB ((fmtD d2.fmtB).rowBytes d2.k), false, none⟩ : Region)]
      ++ (if d.plist then [] else rc d2.cBase none) ++ sc d2.scaleB (d2.opB e0 0) ++ c2.regions d2.m d2.n d2.k cnt pos
  else first

/-- Regions of an ATTEND. A PAGED one reads its pages at execution; its outputs are its rows, and of its entries only B counts: the
directory, with a word for each page of keys (R302). -/
def AttDesc.regions (d : AttDesc) (c c2 : Chain) (es : Option (List AttEntry)) : List Region :=
  let fq := fmtD d.fmtQ
  let fo := fmtD d.fmtO
  let kvRow := (fmtD d.fmtKV).rowBytes (d.hkv * d.dim)
  let inp := fun (a n : Nat) (j : Option Nat) => (⟨a, n, false, j⟩ : Region)
  if d.mode = 1 then
    let step := d.vBase % 2 ^ 48
    [inp d.qBase (rowSpan d.hq step (4 * d.dim * d.rows)) none, inp d.kBase (rowSpan d.hq step (8 * d.rows)) none]
      ++ outRegions fo d.oBase d.rows (fo.rowBytes d.dim) d.dim none
  else
    let qRow := fq.rowBytes d.qCols
    let oRow := fo.rowBytes (d.hq * d.dim)
    let rows := match es with | some l => (l.map (·.rows)).sum | none => 0
    let cnt := if d.count = 0 then 1 else d.count
    let all := if d.paged then rows else d.rows
    let stats : List Region := if d.unnorm then
        [(⟨d.stats, 8 * d.hq * (if d.paged then rows else d.rows * cnt), true, none⟩ : Region)] else []
    let list : List Region := if d.count = 0 then [] else [inp d.plist (32 * d.count) none]
    let chains := c.regions all d.keys d.dim cnt 0 ++ c2.regions all (d.hq * d.dim) d.keys cnt 0
    if d.count = 0 then
      [inp d.qBase (d.rows * qRow) none, inp d.kBase (d.keys * kvRow) none, inp d.vBase (d.keys * kvRow) none]
        ++ outRegions fo d.oBase d.rows oRow (d.hq * d.dim) none ++ stats ++ chains
    else if d.paged then
      [inp d.qBase (rows * qRow) none] ++ outRegions fo d.oBase rows oRow (d.hq * d.dim) none ++ stats ++ list
        ++ (match es with
          | some l => l.zipIdx.map (fun e => inp e.1.k (4 * ceilDiv e.1.keys 64) (some e.2))
          | none => []) ++ chains
    else
      stats ++ list ++ (match es with
        | some l => l.zipIdx.flatMap (fun e =>
            [inp e.1.q (d.rows * qRow) (some e.2), inp e.1.k (2 * d.keys * kvRow) (some e.2)]
              ++ outRegions fo e.1.o d.rows oRow (d.hq * d.dim) (some e.2))
        | none => []) ++ chains

def inR (a n : Nat) : Region := ⟨a, n, false, none⟩
def outR (a n : Nat) : Region := ⟨a, n, true, none⟩

/-- The table descriptor a slot points at, as it reads now. -/
def State.tableAt (s : State) (ptr : Nat) : TableDesc :=
  if ptr = 0 then tableOf [] else match s.readBytes 16 ptr 128 with
    | .ok b => tableOf b
    | .error _ => tableOf []

/-- The index descriptor and image header behind an index slot's pointer, as they read now. -/
def State.imageAt (s : State) (ptr : Nat) : IndexDesc × Image :=
  match s.readBytes 16 ptr 64 with
  | .ok b =>
    let ix := indexOf b
    match s.readBytes 16 (fld b 0 8) 256 with
    | .ok h => (ix, imageOf h)
    | .error _ => (ix, imageOf [])
  | .error _ => (indexOf [], imageOf [])

/-- The extended record of an opcode, as its last region. -/
def infoRegion (op info : Nat) : List Region :=
  let n := if op = opSEARCH || op = opMERGE then 64
    else if op = opGATHER || op = opSCATTER || op = opSELECT || op = opTOKENIZE || op = opDETOKENIZE || op = opPACK then 32 else 0
  if info = 0 || n = 0 then [] else [outR info n]

/-- The chains of a core command, for the checks; a block that cannot be read is missing. -/
def State.chainsOf (s : State) (p op : Nat) (body : List Byte) : Chain × Chain :=
  let addr := if op = opPRODUCT then (prodOf body).chain else if op = opATTEND then (attOf body).chain else 0
  let rd := s.checkReader p op
  if addr = 0 then (Chain.idle, Chain.idle)
  else match readChain rd addr 0 with
    | .error _ => (Chain.unread addr, Chain.idle)
    | .ok c =>
      if !c.chained then (c, Chain.idle)
      else match readChain rd c.next 32 with
        | .error _ => (c, Chain.unread c.next)
        | .ok c2 => (c, c2)

/-- The regions of a command in the order of R581. `ptr` is the pointer of the slot it names. -/
def State.regions (s : State) (p op : Nat) (body : List Byte) (ptr : Nat) : List Region :=
  let rd := s.checkReader p op
  let cs := s.chainsOf p op body
  let okOr := fun (e : Except MemErr (List AttEntry)) => match e with | .ok l => some l | .error _ => none
  if op = opPRODUCT then
    let d := prodOf body
    d.regions (prodOf (body.drop 104)) cs.1 cs.2 (match d.entries rd with | .ok l => some l | .error _ => none)
  else if op = opATTEND then
    let d := attOf body
    d.regions cs.1 cs.2 (okOr (d.entries rd))
  else if op = opGATHER then
    let d := gatherOf body
    let t := s.tableAt ptr
    let bag := if t.kind = 1 then [inR d.bag 32] else if d.pool = 0 then [] else [inR d.bag (4 * (d.bags + 1))]
    let out := if t.kind = 1 then max (32 * d.bags) (d.stride + 4 * d.count) else rowSpan d.outRows d.stride (d.rowBytes t)
    [inR d.idx (8 * d.count)] ++ bag ++ [outR d.out out]
  else if op = opSCATTER then
    let d := scatterOf body
    [inR d.idx (8 * d.count), inR d.upd (rowSpan d.count d.stride ((fmtD d.fmt).rowBytes (s.tableAt ptr).dim))]
  else if op = opSEARCH then
    let d := searchOf body
    let g := (s.imageAt ptr).2
    [inR d.query (d.queries * d.queryBytes g.dim)] ++ (if d.filter = 0 then [] else [inR d.filter (160 * d.queries)])
      ++ [outR d.out (d.queries * d.blockBytes)]
  else if op = opSELECT then
    let d := selOf body
    let list := match d.opt rd with | .ok o => o.list | .error _ => false
    [inR d.src (d.rows * d.rowBytes list), outR d.out (d.rows * d.blockBytes list)]
      ++ (if d.param = 0 && d.mode ≠ 5 then [] else [inR d.param (if d.mode = 5 then 48 * d.rows else 16)])
  else if op = opTOKENIZE then
    let d := tokenizeOf body
    (if d.base = 0 then [] else [inR d.base d.len]) ++ [outR d.out (4 * min d.limit (d.len + 3))]
  else if op = opDETOKENIZE then
    let d := detokOf body
    let stops := if d.stop = 0 then [] else
      [inR d.stop (16 + 80 * (match rd d.stop 16 with | .ok b => min 16 (fld b 0 1) | .error _ => 0))]
    [inR d.base (4 * d.count)] ++ stops ++ (if d.out = 0 then [] else [outR d.out (79 + 768 * d.count)])
  else if op = opPACK then
    let d := packOf body
    let items := match rd d.tmpl 16 with | .ok b => fld b 0 2 | .error _ => 0
    let form := match rd d.list 32 with | .ok b => fld b 0 1 | .error _ => 0
    let fixed := match readTemplate rd d.tmpl with | .ok l => fixedTokens l | .error _ => 0
    [inR d.tmpl (16 + 32 * items), inR d.list (32 + if form = 0 then 8 * d.passages else 0),
      outR d.out (16 + 4 * max fixed d.budget)]
  else if op = opSTEP then
    let d := stepOf body
    let mine := if d.action = 1 then [outR d.list (128 * d.count)] else if d.action = 2 then [outR d.list (16 * d.count)] else []
    match (if d.action ≤ 1 then s.model? p d.model else none) with
    | none => mine
    | some m =>
      mine ++ [inR m.fwd (listSpan rd m.fwd m.fwdCount), ⟨m.ctx, m.ctxBytes m.batch, decide (d.action = 0), none⟩,
        inR m.pf (listSpan rd m.pf m.pfCount), inR m.pfCtx (m.ctxBytes m.pfRows)]
  else if op = opCOPY then
    let d := copyOf body
    [inR d.src d.bytes] ++ (if d.dev = 0xFFFF then [outR d.dst d.bytes] else [])
  else if op = opMIGRATE then
    let d := migOf body
    [outR d.base d.bytes]
  else if op = opCOLLECT then
    let d := collOf body
    let m := (tabGet commNone s.net.comms d.comm).members
    match d.kind with
    | 0 => [inR d.src d.bytes, outR d.dst (m * d.bytes)]
    | 1 => [inR d.src (m * d.bytes), outR d.dst (m * d.bytes)]
    | 2 =>
      let total := match rd d.splits (8 * m) with
        | .ok b => ((List.range m).map (fun i => fld b (8 * i) 8)).sum
        | .error _ => m * d.bytes
      [inR d.src (min total (m * d.bytes)), outR d.dst (m * d.bytes + 8 * m), inR d.splits (8 * m)]
    | _ => [inR d.src d.bytes, outR d.dst (m * d.bytes)]
  else if op = opSWITCH then
    let d := switchOf body
    [inR d.base (if d.kind = 0 then 128 else 64)]
  else if op = opMERGE then
    let d := mergeOf body
    [outR d.out d.bytes]
  else []

/-- The slot's pointer and version that a command of an opcode would capture now, and whether the slot is in the windows. -/
def State.slotOf (s : State) (p op : Nat) (body : List Byte) : Nat × Nat × Bool :=
  let x := s.part p
  let slot := fld body 0 2
  let inR := fun (w : Nat × Nat) => x.windows && within slot 1 w.1 w.2
  if op = opGATHER || op = opSCATTER || (op = opSWITCH && fld body 2 1 = 0) then
    ((s.table slot).ptr, (s.table slot).version, inR x.tslots)
  else if op = opSEARCH || op = opMERGE || op = opSWITCH then ((s.index slot).ptr, (s.index slot).version, inR x.islots)
  else if op = opTOKENIZE || op = opDETOKENIZE then ((s.text slot).ptr, (s.text slot).version, inR x.xslots)
  else if op = opCOLLECT then (0, 0, x.windows && within (fld body 2 2) 1 x.commsRange.1 x.commsRange.2)
  else (0, 0, true)

/-! ### The checks in order (R147) -/

/-- Arrival semaphores of a command with LAND_EN. -/
def State.arrivalsOf (s : State) (c : Cmd) : List Nat :=
  let x := (s.chainsOf c.part c.opcode c.body).1
  if x.landEn then s.landSems c.part x else []

/-- Check 5 for any opcode: DETAIL and COUNT. DEDUCED (log entry 44). -/
def State.descBad (s : State) (p op : Nat) (body : List Byte) (inFwd arrival : Bool) : Option (Nat × Nat) :=
  let rd := s.checkReader p op
  let cs := s.chainsOf p op body
  let area := (s.part p).streamArea
  let flat := fun (o : Option Nat) => o.map (fun d => (d, 0))
  let listBad := fun (off : Nat) (es : Except MemErr (List Entry)) (c : Bool) => match es with
    | .ok l => (l.findIdx? (fun e => e.b % 64 ≠ 0 || (c && (e.a % 64 ≠ 0 || e.c % 64 ≠ 0)))).map (fun i => (off, i))
    | .error _ => none
  if op = opPRODUCT then
    let d := prodOf body
    let d2 := prodOf (body.drop 104)
    flat (d.bad cs.1 arrival) <|> (if cs.1.chained then flat (d2.bad2 cs.2 d.n) else none)
      <|> (if d.plist then listBad 0x10 (readEntries rd d.aBase d.count) true else none)
  else if op = opATTEND then
    let d := attOf body
    flat (d.bad cs.1 cs.2 inFwd)
      <|> (if d.count = 0 || d.mode = 1 then none else listBad 0x40 (readEntries rd d.plist d.count) (!d.paged))
  else if op = opGATHER then flat (gatherOf body).bad5
  else if op = opSCATTER then flat (scatterOf body).bad5
  else if op = opSEARCH then flat (searchOf body).bad5
  else if op = opSELECT then flat (selOf body).bad5
  else if op = opTOKENIZE then flat ((tokenizeOf body).bad5 area (body.length - 40))
  else if op = opDETOKENIZE then flat ((detokOf body).bad5 area)
  else if op = opSTEP then flat (s.stepBad p (stepOf body))
  else if op = opCOPY then flat (copyOf body).bad5
  else if op = opMIGRATE then flat (migOf body).bad5
  else if op = opCOLLECT then flat (collOf body).bad5
  else if op = opSEMOP then flat (semopOf body).bad5
  else if op = opSWITCH then flat (switchOf body).bad5
  else if op = opMERGE then flat (mergeOf body).bad5
  else none

/-- Check 6: DETAIL and STAGE. -/
def State.chainBad (s : State) (p op : Nat) (body : List Byte) : Option (Nat × Nat) :=
  let cs := s.chainsOf p op body
  let c := cs.1
  let c2 := cs.2
  if op = opPRODUCT && c.addr = 0 then (if 1024 < (prodOf body).haloH then some (9, 0xFF) else none)
  else if op = opPRODUCT then
    let d := prodOf body
    let d2 := prodOf (body.drop 104)
    let lc2 := chunkLen (fmtD c.chainFmt) (fedFmt (fmtD d2.fmtB) c2.proB c2.feedB)
    c.check ⟨if c.chained then c.chainFmt else d.fmtC, d.n, d.k, d.haloH, c2.parkBytes d2.n, lc2⟩
      <|> (if c.chained then c2.check ⟨d2.fmtC, d2.n, d2.k, 0, 0, 0⟩ else none)
  else if op = opATTEND then
    let d := attOf body
    let halo := if d.mode = 0 && d.mask = 2 then d.window - 1 else 0
    if c.addr = 0 || d.mode = 1 then (if 1024 < halo then some (9, 0xFF) else none)
    else
      let lc2 := chunkLen (fmtD c.chainFmt) (fedFmt (fmtD d.fmtKV) c2.proB c2.feedB)
      c.check ⟨if c.chained then c.chainFmt else d.fmtO, d.keys, d.dim, halo, c2.parkBytes (d.hq * d.dim), lc2⟩
        <|> (if c.chained then c2.check ⟨d.fmtO, d.hq * d.dim, d.keys, 0, 0, 0⟩ else none)
  else none

/-- The semaphores that a descriptor names: landing tiles, halos on every die of the core set, a local SEMOP. -/
def State.descSems (s : State) (p op : Nat) (body : List Byte) (t : Tiling) : List Nat :=
  let cs := s.chainsOf p op body
  let halos := fun (base : Nat) => (s.diesOf p).flatMap (fun q => t.haloUnits.map (fun i => semKey q (base % 0x4000 + i.2)))
  if op = opPRODUCT then
    let d := prodOf body
    s.landSems p cs.1 ++ (if d.haloH = 0 || !cs.1.chained then [] else halos d.haloSem)
  else if op = opATTEND then
    let d := attOf body
    s.landSems p cs.1 ++ (if d.mode = 0 && d.mask = 2 && 2 ≤ d.window then halos d.haloSem else [])
  else if op = opSEMOP then
    let d := semopOf body
    if d.dev = 0xFFFF then [d.sem] else []
  else []

/-- The units of a command with core work; none for others. -/
def State.tilingOf (s : State) (p op : Nat) (h : CapHdr) (body : List Byte) : Tiling :=
  let rd := s.checkReader p op
  let cs := s.chainsOf p op body
  if op = opPRODUCT then
    let d := prodOf body
    match d.entries rd with
    | .ok es => d.tiling cs.1 cs.2 (prodOf (body.drop 104)) es (s.griddles p) (hArrival h)
    | .error _ => Tiling.none
  else if op = opATTEND then
    let d := attOf body
    if d.mode = 1 then d.tiling cs.1 [d.rows]
    else match d.entries rd with
      | .ok es => d.tiling cs.1 (es.map (·.rows))
      | .error _ => Tiling.none
  else Tiling.none

/-- The first output region that overlaps an input of its entry or another output (check 8). DEDUCED (log entry 44). -/
def aliased (rs : List Region) : Option Nat :=
  let clash := fun (i : Nat) (r : Region) => r.out && r.len ≠ 0 && rs.zipIdx.any (fun o =>
    o.2 ≠ i && o.1.entry = r.entry && o.1.len ≠ 0 && overlaps (r.addr, r.addr + r.len) (o.1.addr, o.1.addr + o.1.len))
  (rs.zipIdx.find? (fun e => clash e.2 e.1)).map (·.2)

/-- Checks 1 to 9 of R147 on a command that is no list capsule. A PRODUCT whose chain block cannot be read may have either length: check 7
then tells of the block. DEDUCED (log entry 44). -/
def State.checks (s : State) (p op : Nat) (h : CapHdr) (body : List Byte) (inList inFwd : Bool) : Option Reject :=
  let cs := s.chainsOf p op body
  let want := if hIsList h then some 16
    else if op = opPRODUCT then some (if cs.1.chained || (cs.1.missing && body.length = 208) then 208 else 104)
    else if op = opTOKENIZE then none
    else if op ≤ 0x10 then some (descBytes op) else none
  let hdr : Option Reject := (headerBad op h body.length want inList).map (rejectBy stBAD_HEADER)
    <|> (if op = opTOKENIZE && !(hIsList h) && body.length < 40 then some (rejectBy stBAD_HEADER 0x02) else none)
  let known : Option Reject := if 0x10 < op then some (rejectBy stBAD_OPCODE 0) else none
  let priv : Option Reject :=
    if op = opSEMOP && (semopOf body).op = 2 && !(s.part p).priv then some (rejectBy stPRIVILEGE 0) else none
  let desc : Option Reject := (s.descBad p op body inFwd (hArrival h)).map (fun e => ⟨stBAD_DESCRIPTOR, e.1, e.2, 0xFF, none⟩)
  let chain : Option Reject := (s.chainBad p op body).map (fun e => ⟨stCHAIN_REJECT, e.1, 0, e.2, none⟩)
  let sl := s.slotOf p op body
  let slot : Option Reject := if sl.2.2 then none else some (rejectBy stACCESS_FAULT 0)
  let rs := s.regions p op body sl.1 ++ infoRegion op h.info.toNat
  let numbered := fun (st i : Nat) => (⟨st, min i 0xFF, i, 0xFF, none⟩ : Reject)
  let reg : Option Reject := (rs.findIdx? (fun r => !(s.mayAccess p op r.out r.addr r.len))).map (numbered stACCESS_FAULT)
  let denied := fun (off : Nat) (es : List Nat) =>
    (es.findIdx? (fun e => entKind e ≠ 0 && !(s.semInWindow p (entSem e)))).map (fun i =>
      (⟨stACCESS_FAULT, off + 4 * i, 0, 0xFF, some (entSem (nth 0 es i))⟩ : Reject))
  let t := s.tilingOf p op h body
  let sems : Option Reject := ((s.descSems p op body t).find? (fun k => !(s.semInWindow p k))).map (fun k =>
    ⟨stACCESS_FAULT, 0, 0, 0xFF, some (k % 0x10000)⟩)
  let alias_ : Option Reject := (aliased rs).map (numbered stOUTPUT_ALIAS)
  let share := ([0, 1, 2, 3].map (fun q => ((s.part p).stk q).2)).sum
  let staging : Option Reject := if share < t.staging then some (rejectBy stSTAGING_LIMIT 0) else none
  hdr <|> known <|> priv <|> desc <|> chain <|> slot <|> reg <|> denied 0x18 (hWaits h) <|> denied 0x28 (hSignals h) <|> sems
    <|> alias_ <|> staging

/-! ### Outputs -/

/-- A range of bytes as ranges of the address map: in the local aperture, on every die of the core set (R585). -/
def State.spread (s : State) (p : Nat) (r : Nat × Nat) : List (Nat × Nat) :=
  if within r.1 1 localPotBase potSize then (s.diesOf p).map (fun q => (potBase + q * potStep + (r.1 - localPotBase), r.2)) else [r]

/-- The output ranges of a command that an end without commit leaves undefined (R154, R156): its output regions, but for the pages
of a MIGRATE that discards none (R360). DEDUCED (log entry 46). -/
def State.outputsOf (s : State) (p op : Nat) (body : List Byte) (info ptr : Nat) : List (Nat × Nat) :=
  if op = opMIGRATE && (migOf body).tier ≠ 0xFE then []
  else ((s.regions p op body ptr ++ infoRegion op info).filter (fun g => g.out && g.len ≠ 0 && s.mayAccess p op true g.addr g.len)).flatMap
    (fun g => s.spread p (g.addr, g.len))

/-! ### Units and dies (R585) -/

/-- The die whose unit serves what has a key (`unitKey`): for core work, one that took a unit of its row block; for an engine's work, an open
choice among the dies of the core set (R116, R583). DEDUCED (log entry 76). -/
def State.unitDie (s : State) (c : Cmd) (key : Nat) : Option Nat :=
  let j := key / 2 ^ 32
  let b := key % 2 ^ 32 / max 1 c.tileM
  let lo := ((c.units.take j).map (·.1)).sum
  let w := (nth (0, 1) c.units j).2
  let mine := (c.placed.filter (fun e => lo + b * w ≤ e.1 && e.1 < lo + (b + 1) * w)).map (·.2)
  let ds := if mine = [] then s.diesOf c.part else mine
  ds[s.choose (2 ^ 32 * j + b) ds.length]?

/-- The mandoline or strainer entry of a stream (R272). -/
def State.tokEntry (s : State) (p st : Nat) : Option Nat := if st = 0xFFFF then none else some ((s.part p).streamArea + 16 * st)
def State.strainEntry (s : State) (p st : Nat) : Option Nat :=
  if st = 0xFFFF then none else some ((s.part p).streamArea + 0x10000 + 128 * st)

/-- The model of a forward-list record (R298). -/
def State.modelOfRec (s : State) (c : Cmd) : Option Model :=
  let v := (s.part c.part).srv
  match v.steps.find? (fun t => t.cmd.seq = c.ref.seq) with
  | some t => s.model? c.part t.model
  | none => match v.passes.find? (fun t => t.cmd.seq = c.ref.seq) with
    | some t => s.model? c.part t.model
    | none => none

/-! ### What a command captured (R185, R212) -/

/-- The table that a GATHER or SCATTER_ADD has captured, else the one its slot names now. -/
def State.tableFor (s : State) (c : Cmd) : TableDesc :=
  if c.desc ≠ [] then tableOf c.desc else s.tableAt (s.slotOf c.part c.opcode c.body).1

/-- The index descriptor captured, with the header behind its IMAGE as it reads now. -/
def State.imageFor (s : State) (c : Cmd) : IndexDesc × Image :=
  let ix := if c.desc ≠ [] then indexOf c.desc else (s.imageAt (s.slotOf c.part c.opcode c.body).1).1
  match s.readBytes 16 ix.image 256 with
  | .ok h => (ix, imageOf h)
  | .error _ => (ix, imageOf [])

/-- The table rows that a SCATTER_ADD names, as it finds its index list. -/
def State.rowsNamed (s : State) (c : Cmd) : List (Nat × Nat) :=
  let d := scatterOf c.body
  let t := s.tableFor c
  match readIndices (s.unitReader c.part c.opcode (some c.ref) (s.unitDie c 0)) d.idx d.count with
  | .ok idx => (ascending (idx.filter (fun i => i < t.rows))).map (fun r => (t.base + r * t.rowBytes, t.rowBytes))
  | .error _ => []

/-- Outputs that are no regions (R142): rows of a SCATTER_ADD, the entry of a text stream. -/
def State.moreOuts (s : State) (c : Cmd) : List (Nat × Nat) :=
  if c.opcode = opSCATTER then s.rowsNamed c
  else if streamBad (fld c.body 2 2) (s.part c.part).streamArea then []
  else if c.opcode = opTOKENIZE then ((s.tokEntry c.part (tokenizeOf c.body).stream).toList).map (fun a => (a, 16))
  else if c.opcode = opDETOKENIZE then ((s.strainEntry c.part (detokOf c.body).stream).toList).map (fun a => (a, 128))
  else []

/-- Every output range of a command (R142, R156): those of its issue, or those it names now if it has not issued. A stream number that
R272 refuses names no entry. DEDUCED (log entries 46, 48). -/
def State.allOuts (s : State) (c : Cmd) : List (Nat × Nat) :=
  let known := c.opcode ≤ 0x10 && descBytes c.opcode ≤ c.body.length
  if !known then []
  else
    let more := (s.moreOuts c).filter (fun g => (s.part c.part).windows && (s.mayAccess c.part c.opcode true g.1 g.2))
    (if c.outs = [] then s.outputsOf c.part c.opcode c.body c.hdr.info.toNat (s.slotOf c.part c.opcode c.body).1 else c.outs) ++ more

/-- The chain blocks and the pointer list of a core command, which it reads from its acceptance on (R138). -/
def State.blocksOf (s : State) (c : Cmd) : List (Nat × Nat) :=
  let cs := s.chainsOf c.part c.opcode c.body
  let block := fun (x : Chain) => if x.addr = 0 then [] else [(x.addr, max 16 x.bytes)]
  let list := if c.opcode = opPRODUCT then (let d := prodOf c.body; if d.plist then [(d.aBase, 32 * d.count)] else [])
    else if c.opcode = opATTEND then (let d := attOf c.body; if d.count = 0 then [] else [(d.plist, 32 * d.count)])
    else []
  block cs.1 ++ block cs.2 ++ list

/-- Bytes of a landing slot's format and shape, and how many slots a home core has (R109, R111). -/
def State.landRoom (s : State) (c : Cmd) : Nat :=
  let cs := s.chainsOf c.part c.opcode c.body
  let d := prodOf c.body
  let d2 := prodOf (c.body.drop 104)
  let fa := fedFmt (fmtD d.fmtA) cs.1.proA cs.1.feedA
  let fb := fedFmt (fmtD d.fmtB) cs.1.proB cs.1.feedB
  let lc2 := chunkLen (fmtD cs.1.chainFmt) (fedFmt (fmtD d2.fmtB) cs.2.proB cs.2.feedB)
  let used := cs.1.chainBytes ⟨cs.1.chainFmt, d.n, d.k, d.haloH, cs.2.parkBytes d2.n, lc2⟩ + cs.1.parkBytes d.n
  cs.1.landRoom (if cs.1.landOp then fb else fa) (chunkLen fa fb * c.tileK) used

end Sys2Proof.Machine
end

