-- ==== Sys2Proof/Machine/Life.lean ====
section
/-! DEFINITION. How a command ends or is killed (R153 to R158, R137, R161): completion records, kills and re-runs, ends without commit,
carried commands (R340), the application of update logs with the ladles' stall buffers (R152, R197 to R201), and what running commands may
no longer read (R12, R138). -/

namespace Sys2Proof.Machine

/-! ### Completion -/

/-- The completion record of a command (R161), stamped now. -/
def State.completionOf (s : State) (c : Cmd) : List Byte :=
  completionSlot c.hdr.tag.toNat c.opcode c.status c.detail c.stage c.reruns c.flags c.count s.time

/-- Commit order 5, or the end of an ended command: text records, then the completion record, then the in-flight slot is
freed as they are written. An OK command with QUIET set writes no completion (R137, R151). -/
def State.complete (s : State) (c : Cmd) (texts : List Rec) : State :=
  if hQuiet c.hdr && c.status = stOK then
    (s.dropCmd c.ref).postRecs c.part texts
  else
    let c : Cmd := { c with phase := .ended }
    (s.setCmd c).postRecs c.part (texts ++ [⟨[s.completionOf c], some c.ref⟩])

/-! ### Griddles -/

/-- A unit of command r leaves a hand. -/
def offHand (r : CmdRef) (u : Option UnitRef) : Option UnitRef :=
  match u with
  | some x => if x.cmd = r then none else some x
  | none => none

/-- The units of command r leave every griddle. -/
def State.dropHands (s : State) (r : CmdRef) : State :=
  { s with cores := s.cores.map (fun e => (e.1, { e.2 with hand := e.2.hand.map (offHand r), next := e.2.next.map (offHand r) })) }

/-! ### Ranges written behind a reader (R12, R138) -/

/-- Whether a command has issued, or was killed and will issue again: what it reads has been handed to it. -/
def Cmd.begun (c : Cmd) : Bool := c.running || (c.phase = .waiting && 0 < c.reruns)

/-- A command of the same step, one of them the STEP itself. -/
def sameStep (a b : CmdRef) : Bool := a.seq = b.seq && (a.sub = 0 || b.sub = 0)

/-- Ranges (first, end) written by `by_` are undefined to the commands that have begun: none of them waited for the writer. To a command that
waits for its issue this matters only for its chain blocks and its pointer list, which it has read. `keep` spares commands whose own
operand is written so. DEDUCED (log entry 49). -/
def State.cloudOver (s : State) (by_ : Option CmdRef) (keep : Cmd → Bool) (rs : List (Nat × Nat)) : State :=
  { s with cmds := s.cmds.map (fun c =>
      let mine := match by_ with | some r => sameStep r c.ref || r = c.ref | none => false
      let hit := fun (r : Nat × Nat) => c.begun || (c.phase = .waiting && (s.blocksOf c).any (fun b => overlaps r (b.1, b.1 + b.2)))
      if mine || keep c then c
      else { c with clouds := c.clouds ++ rs.filter (fun r => hit r && !(c.clouds.contains r)) }) }

/-! ### The ladles' stall buffers (R200, R201) -/

/-- Entries in use of a ladle's stall buffer. -/
def State.stallUse (s : State) (i : Nat) : Nat := (s.stalls.filter (fun e => e.ladle = i)).length

/-- A page of a row that is moving, if one is. -/
def State.movingPage (s : State) (a n : Nat) : Option Nat :=
  ((pieces pageBytes (n / pageBytes + 2) a n).map (fun e => e.1 / pageBytes)).find? (fun g => (s.page g).moves ≠ [])

/-- The updates that waited for page g are applied where it now stands, in the order they entered; a row that also lies in another page
still moving waits for that one. -/
def State.applyStalls (s : State) (g : Nat) : State :=
  if (s.page g).moves ≠ [] then s
  else
    let s := (s.stalls.filter (fun e => e.page = g)).foldl (fun s e =>
      if (s.movingPage e.addr e.bytes.length).isSome then s
      else match s.cmd? e.cmd with
        | some c => s.writeZ c.part e.addr e.bytes
        | none => s) s
    { s with stalls := s.stalls.filterMap (fun e => if e.page ≠ g then some e
        else (s.movingPage e.addr e.bytes.length).map (fun h => { e with page := h })) }

/-! ### The application of an update log (R152, R197) -/

/-- What the application of a command's log rounds with. -/
def Cmd.applier (c : Cmd) : Run := ⟨fun _ _ _ => .ok [], fun _ _ _ => .ok [], c.hdr.seed, hRnd c.hdr, none, hFlush c.hdr⟩

/-- The address of row r and its bytes with its update applied. -/
def State.appliedRow (s : State) (c : Cmd) (t : TableDesc) (r : Nat) (u : List Word) : Nat × List Byte :=
  let a := t.base + r * t.rowBytes
  let row := match ({ s with cmds := [] }).readBytes c.part a t.rowBytes with
    | .ok b => b
    | .error _ => (List.range t.rowBytes).map (fun i => s.undefByte (a + i))
  (a, t.applied c.applier r row u)

/-- The same bytes written to the row's hot copy on every die that holds one. -/
def State.writeHot (s : State) (p : Nat) (t : TableDesc) (r : Nat) (bs : List Byte) : State :=
  if t.hotCount = 0 then s
  else (s.diesOf p).foldl (fun s q =>
    let share := potBase + q * potStep + ((s.part p).stk q).1
    let dir := s.readZ p (share + t.hotDir) (8 * t.hotCount)
    match (List.range t.hotCount).find? (fun i => fld dir (8 * i) 8 = r) with
    | some i => s.writeZ p (share + t.hotRows + i * t.rowBytes) bs
    | none => s) s

/-- A SCATTER_ADD record of a step that leaves off completes what it has begun: it cannot be killed any more (R151, R343). -/
def State.finishLog (s : State) (c : Cmd) : State :=
  if c.phase ≠ .applying then s
  else
    let s := (s.stalls.filter (fun e => e.cmd = c.ref)).foldl (fun s e => s.writeZ c.part e.addr e.bytes) s
    let s := { s with stalls := s.stalls.filter (fun e => e.cmd ≠ c.ref) }
    (c.log.filter (fun e => e.2 ≠ [])).foldl (fun s e =>
      let x := s.appliedRow c (tableOf c.desc) e.1 e.2
      (s.writeZ c.part x.1 x.2).writeHot c.part (tableOf c.desc) e.1 x.2) s

/-! ### What an issued command holds -/
/-- Reservations, staging, halo semaphores, units and move frames that an issued command holds are released (R154); the blocks that a
GATHER filled stay as warm pages (R365). A move made for it is abandoned (R362). -/
def State.releaseHeld (s : State) (c : Cmd) : State :=
  let s := c.takes.foldl (fun s t => s.semRelease t.1 t.2) s
  let s := c.halo.foldl (fun s h => s.semClear h.1) s
  let s := (s.dropHands c.ref).dropBacklog c.ref
  let s := (s.pages.filter (fun e => e.2.moves.any (fun m => m.cmd = some c.ref))).foldl (fun s e =>
    s.flagEvent pgTNG 2 1 (e.1 % 2 ^ 27) c.evTag) s
  let gs := (s.pages.filter (fun e => e.2.moves.any (fun m => m.cmd = some c.ref))).map (·.1)
  let slot := fld c.body 0 2
  let s : State := { s with pages := s.pages.map (fun e =>
      let x : Page := { e.2 with moves := e.2.moves.filter (fun m => m.cmd ≠ some c.ref) }
      (e.1, if c.opcode = 0x03 && c.fetched.contains e.1 then { x with
          moves := x.moves.map (fun m => if m.part = c.part then { m with hold := m.hold.filter (· ≠ slot) } else m)
          copies := x.copies.map (fun k => if k.part = c.part then { k with hold := k.hold.filter (· ≠ slot) } else k) }
        else x)) }
  gs.foldl (fun s g => s.applyStalls g) s

/-- The record of command c with everything of a run taken off it. -/
def Cmd.unrun (c : Cmd) : Cmd :=
  { c with
    takes := [], staging := [], ranges := [], taken := 0, landing := [], landSems := [], halo := [], reads := [],
    fills := [], borrowed := 0, heldPeriods := 0, fetched := [], desc := [], log := [], drops := (0, 0), landSlots := [], haloRows := [],
    units := [], placed := [] }

/-- Ranges left undefined. -/
def State.undefAll (s : State) (p : Nat) (rs : List (Nat × Nat)) : State := rs.foldl (fun s r => s.undefRange p r.1 r.2) s

/-- The slot that a TABLE_SWITCH names is left undefined: its VERSION and its pointer are free. DEDUCED (log entry 48). -/
def State.undefSlot (s : State) (c : Cmd) : State :=
  let d := switchOf c.body
  if c.opcode ≠ opSWITCH || c.body.length < 16 || 1 < d.kind || !((s.slotOf c.part c.opcode c.body).2.2) then s
  else
    let free := fun (x : Slot) => { x with version := s.choose 0xE8 (2 ^ 32), ptr := s.choose 0xE9 (2 ^ 58) * 64 }
    if d.kind = 0 then s.setTable d.slot (free (s.table d.slot)) else s.setIndex d.slot (free (s.index d.slot))

/-- Every output of a command left undefined, as an end without commit leaves it (R156); `spare` where a rule says that a stream's entry
stays (R272). DEDUCED (log entries 46, 48). -/
def State.undefOuts (s : State) (c : Cmd) (spare : Bool) : State :=
  (s.undefAll c.part (if spare then c.outs else s.allOuts c)).undefSlot c

/-- The records of a forward list leave flight (R298); `fill` where their run ends without a further one. -/
def State.dropSubs (s : State) (seq : Nat) (fill : Bool) : State :=
  let l := s.cmds.filter (fun c => c.ref.seq = seq && c.ref.sub ≠ 0)
  let s := l.foldl (fun s c => let t := (s.releaseHeld c).finishLog c; if fill && c.phase ≠ .applying then t.undefOuts c false else t) s
  { s with cmds := s.cmds.filter (fun c => !(c.ref.seq = seq && c.ref.sub ≠ 0)) }

/-- What the issue of a step or pass took is given back (R303, R318): words as they were, frames released. DEDUCED (log entry 70). -/
def State.giveBack (s : State) (p : Nat) (k : Taken) : State :=
  let s := k.undo.foldr (fun e s => s.writeZ p e.1 (leBytes 4 e.2)) s
  let x := s.part p
  s.setPart p { x with srv := { x.srv with
    hbmUsed := x.srv.hbmUsed.filter (fun f => !(k.frames.contains f))
    ddrUsed := x.srv.ddrUsed.filter (fun f => !(k.frames.contains (f + 2 ^ 31))) } }

/-- The ACTION 0 step that command c runs, if any, leaves off: its records and what it took. -/
def State.dropStep (s : State) (c : Cmd) (fill : Bool) : State :=
  match (s.part c.part).srv.steps.find? (fun t => t.cmd = c.ref) with
  | none => s
  | some t =>
    let s := (s.dropSubs c.ref.seq fill).giveBack c.part t.taken
    let x := s.part c.part
    s.setPart c.part { x with srv := { x.srv with steps := x.srv.steps.filter (fun u => u.cmd ≠ c.ref) } }

/-- The prefill pass whose records carry this number leaves off; its chunk is tried again (R326). -/
def State.dropPass (s : State) (p seq : Nat) (fill : Bool) : State :=
  match (s.part p).srv.passes.find? (fun t => t.cmd.seq = seq) with
  | none => s
  | some t =>
    let s := (s.dropSubs seq fill).giveBack p t.taken
    let x := s.part p
    s.setPart p { x with srv := { x.srv with passes := x.srv.passes.filter (fun u => u.cmd.seq ≠ seq) } }

/-- Entries of the cancel table that an ACTION 2 command waits for are given up with it. DEDUCED (log entry 70). -/
def State.dropCancels (s : State) (c : Cmd) : State :=
  let x := s.part c.part
  if x.srv.cancels.any (fun e => e.cmd = c.ref) then
    s.setPart c.part { x with srv := { x.srv with cancels := x.srv.cancels.filter (fun e => e.cmd ≠ c.ref) } }
  else s

/-- A command of its own ends without commit (R156): outputs undefined, spans cleared, reservations released, no signal; one
completion record. A generation step that fails sets STEP_FAIL (R329). -/
def State.endMain (s : State) (c : Cmd) (status detail : Nat) : State :=
  let s := ((s.releaseHeld c).dropStep c true).dropCancels c
  let s := s.undefOuts c (status = stBAD_DESCRIPTOR && detail = 0x70 && c.opcode = opTOKENIZE)
  let s : State := if c.opcode = opSTEP && (stepOf c.body).action = 0 then s.setErr (pgSTP c.part) 2 else s
  let s : State := { s with net := { s.net with colls := s.net.colls.filter (fun k => k.cmd ≠ c.ref) } }
  s.complete { c.unrun with spans := [], status := status, detail := detail } []

/-- A command ends without commit. A record of a forward list ends the STEP that runs it, with the record's status (R298), or its
prefill pass. -/
def State.endCmd (s : State) (c : Cmd) (status detail : Nat) : State :=
  if c.ref.sub = 0 then s.endMain c status detail
  else
    let s := (s.releaseHeld c).undefOuts c (status = stBAD_DESCRIPTOR && detail = 0x70 && c.opcode = opTOKENIZE)
    match s.cmd? ⟨c.ref.seq, 0⟩ with
    | some d => s.endMain d status detail
    | none => s.dropPass c.part c.ref.seq true

/-- L of R156. -/
def State.rerunLimit (s : State) (p : Nat) : Nat := max 1 (s.field (pgCMD p) oCMD_RERUN_LIMIT 7 0)

/-- Causes of a RERUN event (R166). -/
def causePass : Nat := 0
def causeArb : Nat := 1
def causeIsland : Nat := 2
def causeDie : Nat := 3
def causeError : Nat := 4
def causePreempt : Nat := 5

/-- A kill (R153, R154, R156): an issued command short of commit order 2 returns to issue, or ends with RERUN_LIMIT.
A forward-list record's kill keeps its place in its step. Its outputs are undefined and its spans stay pending until the re-run commits; the
rows of a SCATTER_ADD have not been touched, and a stream's entry stays as it was. -/
def State.killCmd (s : State) (c : Cmd) (cause : Nat) : State :=
  if c.phase ≠ .issued then s
  else
    let n := c.reruns + 1
    let s := s.count (pgCMD c.part) oCMD_KILLS 1
    let s := if hRerunEvt c.hdr && c.ref.sub = 0 then
        s.raise (pgCMD c.part) none 1 (n % 2 ^ 16 + cause * 2 ^ 16 + c.ref.seq % 2 ^ 32 * 2 ^ 32)
          c.evTag
      else s
    let c : Cmd := { c with reruns := n }
    if s.rerunLimit c.part < n then s.endCmd c stRERUN_LIMIT 0
    else ((((s.releaseHeld c).dropStep c false).dropCancels c).undefAll c.part c.outs).setCmd { c.unrun with phase := .waiting }

/-- Every command of a test killed, in acceptance order. -/
def State.killWhere (s : State) (f : Cmd → Bool) (cause : Nat) : State :=
  (s.cmds.filter f).foldl (fun s c => match s.cmd? c.ref with
    | some d => s.killCmd d cause
    | none => s) s

/-- Every command of a test ended with a status. -/
def State.endWhere (s : State) (f : Cmd → Bool) (status detail : Nat) : State :=
  (s.cmds.filter f).foldl (fun s c => match s.cmd? c.ref with
    | some d => s.endCmd d status detail
    | none => s) s

/-! ### What follows every command -/

/-- Commands in flight of partition p (R137, R164). -/
def State.inflight (s : State) (p : Nat) : Nat := (s.cmds.filter (fun c => c.part = p && c.ref.sub = 0)).length

/-- Entries of the cancel table in use; a stage's notices take none (R321, R323). -/
def Serving.cancelUse (v : Serving) : Nat := (v.cancels.filter (fun e => !e.notified)).length

/-- Tray space in use of a core, and what chained intermediates hold of it, in KiB: none while no griddle has a unit (R69, R82). -/
def Core.trayNow (x : Core) : Nat × Nat :=
  if x.hand.any Option.isSome || x.next.any Option.isSome then (x.trayUsed, x.trayChain) else (0, 0)

/-- PEAK_KIB of the trays in use follows USED_KIB (R82). -/
def State.trayPeaks (s : State) : State :=
  (s.cores.filter (fun e => e.1 < 208 && e.2.trayNow.1 ≠ 0)).foldl (fun s e => s.peak (pgTRY e.1) oTRY_TRY_PEAK 12 0 (e.2.trayNow.1 % 8192)) s

/-- PEAK of INFLIGHT follows COUNT, and PEAK of CANCEL_USE and of CONN_USE follow USED (R164, R330, R452). DEDUCED (log entries 7, 86). -/
def State.peaks (s : State) : State :=
  partIds.foldl (fun s p =>
    (s.peak (pgCMD p) oCMD_INFLIGHT 25 16 (s.inflight p % 1024)).peak (pgSRV p) oSRV_CANCEL_USE 28 16
      ((s.part p).srv.cancelUse % 8192)) (s.trayPeaks.peak pgFABRIC oNETB_CONN_USE 31 16 (s.contexts % 65536))

/-- Packets queued for a peer that is unreachable fail at once: their commands end (R440). DEDUCED (log entry 7). -/
def State.failDown (s : State) : State :=
  (s.net.txConns.filter (fun t => t.down && t.backlog ≠ [])).foldl (fun s t =>
    let s := s.setTxConn { t with backlog := [] }
    (t.backlog.filterMap (·.cmd)).foldl (fun s r => match s.cmd? r with
      | some c => if c.phase = .ended then s else s.endCmd c stACCESS_FAULT 0xFF
      | none => s) s) s

/-- Bytes that hosts wrote to flash at home reach HOST_WR (R411) and count against their partitions' regulators (R339). DEDUCED (log entry 7). -/
def State.tallyFlash (s : State) : State :=
  if s.flash.hostWr = [] then s
  else s.flash.hostWr.foldl (fun s e => s.chargeFlash e.1 e.2.1 e.2.2)
    (({ s with flash := { s.flash with hostWr := [] } }).countBytes pgFLS oFLS_HOST_WR ((s.flash.hostWr.map (fun (e : Nat × Nat × Nat) => e.2.2)).sum))

/-- Frames held by copies, by moves and by readers of an old frame. -/
def State.framesHeld (s : State) : List Nat :=
  s.pages.flatMap (fun e => e.2.copies.map (·.frame) ++ e.2.moves.map (·.frame) ++ e.2.old.map (·.1))

/-- Whether something of a non-FREE partition, or a window copy, covers an HBM or DDR5 frame (R485). -/
def State.frameCovered (s : State) (ddr : Bool) (f : Nat) : Bool :=
  if ddr then partIds.any (fun p => (s.part p).nonFree && within (ddrBase + f * pageBytes) pageBytes (s.part p).ddrShare.1 (s.part p).ddrShare.2)
  else partIds.any (fun p => (s.part p).nonFree && within (f * pageBytes) pageBytes (s.part p).resBase (s.part p).resBytes)
    || s.framesHeld.contains f

/-- Frames without a reserve frame that nothing covers any more become holes (R485). DEDUCED (log entry 7). -/
def State.settleHoles (s : State) : State :=
  s.errors.noSpare.foldl (fun s site =>
    let e := s.errors
    match site with
    | .hbm a =>
      let f := s.hbmPageOf (a / pageBytes)
      if e.hbmHoles.contains f || s.frameCovered false f then s
      else ({ s with errors := { e with hbmHoles := insertNat e.hbmHoles f } }).flagEvent pgERR 4 4 (f * 2 ^ 32) none
    | .ddr a =>
      let f := s.ddrPageOf (a / pageBytes)
      if e.ddrHoles.contains f || s.frameCovered true f then s
      else ({ s with errors := { e with ddrHoles := insertNat e.ddrHoles f } }).flagEvent pgERR 4 4 (1 + f * 2 ^ 32) none
    | _ => s) s

/-- A transmit association whose packet number has passed 2^62 raises PN_HIGH once (R448, R453). DEDUCED (log entries 7, 84). -/
def State.notePn (s : State) : State :=
  (s.net.subs.filter (fun e => e.2.tx.any (fun a => 2 ^ 62 < a.nextPn && !a.noted))).foldl (fun s e =>
    let high := e.2.tx.filter (fun a => 2 ^ 62 < a.nextPn && !a.noted)
    let s := s.setSub e.1 { e.2 with tx := e.2.tx.map (fun (a : Sa) => if 2 ^ 62 < a.nextPn then { a with noted := true } else a) }
    high.foldl (fun s a => s.flagEvent (pgPORT (e.1 / 4)) 4 4 (e.1 + a.an * 2 ^ 8) none) s) s

/-- What follows every command: host writes to flash are counted, loans settled, packets for unreachable peers failed, packets of fallen
links sent again, releases sent, holes made of frames that nothing covers any more, packet numbers watched, peaks kept, and free values move on. DEDUCED (log entry 7). -/
def State.settle (s : State) : State :=
  s.tallyFlash.settleLoans.failDown.resumeLinks.releaseOwed.settleHoles.notePn.peaks.fresh

/-- The outcome of a meaning: its state, settled. DESIGN CHOICE (log entry 5). -/
def done (s : State) : Host.Outcome State Fault Refusal := .next s.settle

/-- An outcome that needs the device out of whole-device reset (R541). DESIGN CHOICE (log entry 5). DEDUCED (log entry 11). -/
def awake (s : State) (o : Host.Outcome State Fault Refusal) : Host.Outcome State Fault Refusal := if s.alive then o else done s

/-- An outcome that follows a register write or read: none where the page does not answer (R502, R550). DESIGN CHOICE (log entry 5). DEDUCED (log entry 11). -/
def onPage (s : State) (page : Nat) (o : Host.Outcome State Fault Refusal) : Host.Outcome State Fault Refusal :=
  if s.i3cAnswers page then o else done s

end Sys2Proof.Machine
end

