-- ==== Sys2Proof/Machine/Accept.lean ====
section
/-! DEFINITION. Acceptance of a capsule (R137, R147, R582): the record of an accepted command, rejection (R156, R166), list capsules (R141,
R578), and what the intake takes. -/

namespace Sys2Proof.Machine

/-! ### Acceptance -/

/-- The record of a command just accepted. -/
def newCmd (ref : CmdRef) (p op : Nat) (h : CapHdr) (body : List Byte) : Cmd where
  ref := ref
  part := p
  hdr := h
  opcode := op
  body := body
  phase := .waiting
  carried := false
  reruns := 0
  outs := []
  spans := []
  takes := []
  staging := []
  slotPtr := 0
  slotVersion := 0
  reads := []
  fills := []
  ranges := []
  taken := 0
  landing := []
  landSems := []
  halo := []
  tileM := 0
  tileN := 0
  tileK := 0
  parts := 1
  status := 0
  detail := 0
  stage := 0xFF
  flags := 0
  count := 0
  heldPeriods := 0
  borrowed := 0
  fetched := []
  sent := []
  collSeq := 0
  spoiled := []
  clouds := []
  desc := []
  log := []
  drops := (0, 0)
  landSlots := []
  haloRows := []
  units := []
  placed := []

/-- In-flight room of partition p (R137). -/
def State.room (s : State) (p : Nat) : Bool :=
  s.inflight p < (s.part p).quota && (s.cmds.filter (fun c => c.ref.sub = 0)).length < 512

/-- List capsules of partition p in flight (R578). -/
def State.listsOf (s : State) (p : Nat) : List ListCap := s.lists.filter (fun l => l.part = p)

/-- A list of partition p has a record waiting (R578). -/
def State.listWaits (s : State) (p : Nat) : Bool := (s.listsOf p).any (fun l => l.accepted < l.total)

/-- The REJECT condition, its count and its event (R164 to R166). -/
def State.noteReject (s : State) (c : Cmd) : State :=
  let s := s.count (pgCMD c.part) oCMD_REJECTS 1
  s.flagEvent (pgCMD c.part) 0 2 (c.status + c.detail % 256 * 2 ^ 8 + c.opcode % 256 * 2 ^ 16 + c.stage % 256 * 2 ^ 24
    + c.ref.seq % 2 ^ 32 * 2 ^ 32) c.evTag

/-- A command rejected (R147, R156): it takes its in-flight slot until its completion is written; the outputs that
it names and its partition may write are undefined. DEDUCED (log entry 46). -/
def State.rejectCmd (s : State) (c : Cmd) (r : Reject) : State :=
  let s : State := match r.sem with
    | some k => s.semDenied k (semMaster k) c.evTag
    | none => s
  let s := s.undefOuts c false
  let c : Cmd := { c with
    status := r.status
    detail := r.detail
    count := r.count
    stage := r.stage }
  let s := s.noteReject c
  ({ s with cmds := s.cmds ++ [c] }).complete c []

/-- The first fault of a list capsule (R141): check 1, its fields, and the place of its records. -/
def State.listBad (s : State) (p op : Nat) (h : CapHdr) (body : List Byte) : Option Reject :=
  let base := fld body 0 8
  let cnt := fld body 8 4
  (headerBad op h body.length (some 16) false).map (rejectBy stBAD_HEADER)
  <|> (firstOf [(0x00, decide (base % 64 ≠ 0)), (0x08, decide (cnt = 0) || decide (4096 < cnt))]).map (rejectBy stBAD_DESCRIPTOR)
  <|> (if s.inWindow p false base 64 then none else some (rejectBy stACCESS_FAULT 0))

/-- Whether a command waits for a poisoned semaphore (R179). -/
def State.waitsOnPoison (s : State) (c : Cmd) : Bool :=
  !c.carried && (hWaits c.hdr).any (fun e => entKind e ≠ 0 && (s.sem (entSem e)).poison)

/-- A command enters flight; one that waits for a poisoned semaphore ends at once (R179). -/
def State.enterFlight (s : State) (c : Cmd) : State :=
  let t : State := { s with cmds := s.cmds ++ [c] }
  if t.waitsOnPoison c then t.endCmd c stDATA_ERROR 0 else t

/-- A capsule offered to the checker (R137, R147): the next acceptance number is its own, whatever comes of it. DESIGN CHOICE (log entry 9). -/
def State.acceptCapsule (s : State) (p op : Nat) (h : CapHdr) (body : List Byte) (inList : Bool) : State :=
  let c := newCmd ⟨s.nextSeq, 0⟩ p op h body
  let t : State := { s with nextSeq := s.nextSeq + 1 }
  if hIsList h && !inList then
    match s.listBad p op h body with
    | some r => t.rejectCmd c r
    | none => { t with lists := s.lists ++ [(⟨s.nextSeq, p, h.tag.toNat, hQuiet h, fld body 0 8, 0, fld body 8 4⟩ : ListCap)] }
  else
    match s.checks p op h body inList false with
    | some r => t.rejectCmd c r
    | none => t.enterFlight c

/-! ### Capsules as bytes -/

/-- The header that 64 bytes spell. -/
def hdrOf (b : List Byte) : CapHdr :=
  let w := fun (o : Nat) => BitVec.ofNat 32 (fld b o 4)
  ⟨BitVec.ofNat 8 (fld b 0 1), BitVec.ofNat 16 (fld b 2 2), BitVec.ofNat 16 (fld b 4 2), BitVec.ofNat 8 (fld b 6 1),
    BitVec.ofNat 8 (fld b 7 1), BitVec.ofNat 64 (fld b 8 8), BitVec.ofNat 64 (fld b 0x10 8), w 0x18, w 0x1C, w 0x20, w 0x24,
    w 0x28, w 0x2C, w 0x30, w 0x34, BitVec.ofNat 64 (fld b 0x38 8)⟩

/-- A capsule given as bytes. -/
def State.acceptBytes (s : State) (p : Nat) (b : List Byte) (inList : Bool) : State :=
  s.acceptCapsule p (fld b 1 1) (hdrOf b) (b.drop 64) inList

/-- A rejection before the checks of R147 (R582), of a capsule whose header may not have been read. -/
def State.rejectEntry (s : State) (p : Nat) (b : List Byte) (status detail : Nat) : State :=
  { s with nextSeq := s.nextSeq + 1 }.rejectCmd (newCmd ⟨s.nextSeq, 0⟩ p (fld b 1 1) (hdrOf b) []) (rejectBy status detail)

/-! ### Where capsules come from -/

/-- Whether the intake of partition p accepts (R137, R343): ACTIVE or RESUMING's last order, and not stopped. -/
def State.takes (s : State) (p : Nat) : Bool := (s.part p).st = .active || (s.part p).st = .resuming

/-- A capsule of an opcode row: taken while there is room (R137, R578), else its sender waits. A list capsule needs no in-flight slot of the
quota. DESIGN CHOICE (log entry 105). -/
def State.offer (s : State) (p op : Nat) (h : CapHdr) (body : List Byte) : State :=
  if !(s.takes p) || s.listWaits p then s
  else if hIsList h then (if (s.listsOf p).length < 64 then s.acceptCapsule p op h body false else s)
  else if s.room p then s.acceptCapsule p op h body false
  else s

end Sys2Proof.Machine
end

