-- ==== Sys2Proof/Machine/Tiers.lean ====
section
/-! DEFINITION. The tiered range's window copies, the funnel and the tongs (14): hints, frames, eviction, demand fills,
stream lists, moves, MIGRATE's switch, and training of HBM and DDR5. -/

namespace Sys2Proof.Machine

/-! ### Pages and hints (R357) -/

/-- Whether page g lies in the DDR5 or the flash zone. -/
def pageZone (g : Nat) : Zone := zoneOf (g * pageBytes)

/-- The extent of partition p's stream list that holds page g (R363). -/
def State.extentOf (s : State) (p g : Nat) : Option Nat :=
  (s.part p).stream.findIdx? (fun e => within (g * pageBytes) pageBytes e.1 e.2)

/-- The stored hint of page g, or its zone's default: warm in the DDR5 zone, cold in the flash zone. -/
def State.hintOf (s : State) (g : Nat) : Nat :=
  match (s.page g).hint with
  | some h => h
  | none => if pageZone g = .ddr then 2 else 3

/-- The hint that acts for partition p: pages of listed extents are stream pages, except pinned ones (R363). -/
def State.actingHint (s : State) (p g : Nat) : Nat :=
  if s.hintOf g ≠ 0 && (s.extentOf p g).isSome then 1 else s.hintOf g

/-- Partition p's own copy of page g. -/
def Page.own (x : Page) (p : Nat) : Option WinCopy := x.copies.find? (fun c => c.part = p)

/-! ### Frames (R355, R359) -/

/-- Window frames of partition p in use: its copies, and frames its moves have taken. -/
def State.winUsed (s : State) (p : Nat) : Nat :=
  (s.pages.map (fun e =>
    (e.2.copies.filter (fun c => c.part = p)).length +
    (e.2.moves.filter (fun m => m.part = p && m.kind ≠ 1)).length)).sum

/-- Pinned frames of partition p. -/
def State.winPinned (s : State) (p : Nat) : Nat :=
  (s.pages.map (fun e => (e.2.copies.filter (fun c => c.part = p && c.pinned)).length +
    (e.2.moves.filter (fun m => m.part = p && m.pin)).length)).sum

/-- HBM frames that can take a window copy: in no resident share of a non-FREE partition, held by nothing, no hole. -/
def State.freeFrames (s : State) : List Nat :=
  let held := s.framesHeld
  (List.range (s.hbmUsable / pageBytes)).filter (fun f =>
    !(held.contains f) && !(s.errors.hbmHoles.contains f) &&
    !(partIds.any (fun p => (s.part p).nonFree && within (f * pageBytes) pageBytes (s.part p).resBase (s.part p).resBytes)))

/-- Whether a read reference is held on page g (R358): an issued command reads it. -/
def State.referenced (s : State) (g : Nat) : Bool := s.cmds.any (fun c => c.running && c.reads.contains g)

/-- Partition p's copy of page g may be evicted (R359). `ignoreHold` names a slot whose own older holds may go (R365): a copy that another
slot holds too stays. -/
def State.evictable (s : State) (p g : Nat) (ignoreHold : Option Nat) : Bool :=
  let x := s.page g
  match x.own p with
  | none => false
  | some c => !(s.referenced g) && x.moves = [] && !c.pinned && c.hold.all (fun h => ignoreHold = some h)

/-- A dirty block of a copy holds an uncorrectable error, which its write-back would read. -/
def State.copyBad (s : State) (c : WinCopy) : Bool :=
  c.dirty.any (fun b =>
    let k := s.hbmPhys (c.frame * pageBytes + b * 4096)
    s.errors.poison.any (fun g => k ≤ g && g < k + 4096))

/-- A dirty 4 KiB block of a copy written back to the page's home. -/
def State.writeBackBlock (s : State) (g : Nat) (c : WinCopy) (b : Nat) : State :=
  let src := s.hbmPhys (c.frame * pageBytes + b * 4096)
  let a := g * pageBytes + b * 4096
  match pageZone g with
  | .fls =>
    let data : Tab Byte := (s.mem.filter (fun e => src ≤ e.1 && e.1 < src + 4096)).map (fun e => (e.1 - src, e.2))
    let s := s.bufferUnit ((a - flsBase) / 4096) 0 data
    { s with flash := { s.flash with hostWr := s.flash.hostWr ++ [((a - flsBase) / 4096 / 4 % 32, c.part, 4096)] } }
  | _ => s.copyPhys src (s.ddrPhys (a - ddrBase)) 4096

/-- Event ABANDONED of a move of page g (R362, R374). -/
def State.abandonedEvent (s : State) (g : Nat) : State := s.flagEvent pgTNG 2 1 (g % 2 ^ 27) none

/-- Running commands that hold a read reference on page g. -/
def State.readersOf (s : State) (g : Nat) : List CmdRef := (s.cmds.filter (fun c => c.running && c.reads.contains g)).map (·.ref)

/-- A page with a frame that it has left: readers of before keep the frame (R361, order 6). -/
def Page.keepOld (x : Page) (frame : Nat) (readers : List CmdRef) : Page :=
  if readers = [] then x else { x with old := x.old ++ [(frame, readers)] }

/-- A copy leaves partition p's window: dirty blocks go home first, unless it is discarded (R355, R360). A write-back that would read an
uncorrectable error is abandoned, and the page stays as it was (R362). DEDUCED (log entry 74). -/
def State.dropCopy (s : State) (p g : Nat) (writeBack : Bool) : State :=
  match (s.page g).own p with
  | none => s
  | some c =>
    if writeBack && s.copyBad c then
      (s.abandonedEvent g).endWhere (fun d => d.running && d.reads.contains g) stDATA_ERROR 0
    else
      let s := if writeBack then
          (c.dirty.foldl (fun s b => s.writeBackBlock g c b) s).countBytes pgTNG oTNG_WB (4096 * c.dirty.length)
        else s
      let x := s.page g
      let y := s.part p
      (s.setPage g ({ x with copies := x.copies.filter (fun c => c.part ≠ p) }.keepOld c.frame (s.readersOf g))).setPart p
        { y with behind := y.behind.filter (· ≠ g) }

/-- The page whose frame the funnel evicts next for partition p (R359): stream pages that are behind, in the order they
fell behind; then warm and stream pages, least recently read first, lowest address among equals. Last, a page under an
older hold of slot `ignoreHold` that the new list does not name (R365). Pages of `skip` are passed over. -/
def State.victim (s : State) (p : Nat) (ignoreHold : Option Nat) (named skip : List Nat) : Option Nat :=
  match (s.part p).behind.find? (fun g => s.evictable p g none && !(skip.contains g)) with
  | some g => some g
  | none =>
    let best := fun (ok : Nat → Bool) => s.pages.foldl (fun (r : Option (Nat × Nat)) e =>
      match e.2.own p with
      | some c =>
        if ok e.1 && !(skip.contains e.1) then
          match r with
          | none => some (c.stamp, e.1)
          | some b => if c.stamp < b.1 then some (c.stamp, e.1) else r
        else r
      | none => r) none
    match best (fun g => s.evictable p g none) with
    | some b => some b.2
    | none =>
      if ignoreHold.isSome then
        (best (fun g => s.evictable p g ignoreHold && !(named.contains g))).map (·.2)
      else none

/-- The funnel evicts one copy of partition p's; one whose write-back is abandoned stays, and the next is tried. DEDUCED (log entry 74). -/
def State.evict (p : Nat) (ignoreHold : Option Nat) (named : List Nat) : Nat → List Nat → State → State
  | 0, _, s => s
  | n + 1, skip, s =>
    match s.victim p ignoreHold named skip with
    | none => s
    | some g =>
      let t := s.dropCopy p g true
      if ((t.page g).own p).isSome then State.evict p ignoreHold named n (g :: skip) t else t.count pgTNG oTNG_MOVES 1

/-- A frame for a fill of partition p: a free one while the window has room, else the frame an eviction frees. -/
def State.takeFrame (s : State) (p : Nat) (ignoreHold : Option Nat) (named : List Nat) : State × Option Nat :=
  let t := if s.winUsed p < (s.part p).winFrames then s else State.evict p ignoreHold named (s.pages.length + 1) [] s
  if t.winUsed p < (t.part p).winFrames then
    let fs := t.freeFrames
    (t, fs[t.choose p fs.length]?)
  else (t, none)

/-! ### Fills and moves (R358, R361) -/

/-- Whether a copy of page g that partition p has now or makes is pinned: the stored hint says so, and the limit of R359 lets it. -/
def State.pins (s : State) (p g : Nat) : Bool := s.hintOf g = 0 && s.winPinned p + 16 < (s.part p).winFrames

/-- A fill of page g into partition p's window: with a frame to be had it starts, and the page is marked moving. Answers whether it does. DEDUCED (log entry 75). -/
def State.startFill (s : State) (p g : Nat) (hold : Option Nat) (named : List Nat) : State × Bool :=
  match s.takeFrame p hold named with
  | (t, none) => (t, false)
  | (t, some f) =>
    let x := t.page g
    (t.setPage g { x with moves := x.moves ++ [⟨0, p, f, [], t.pins p g, hold.toList, none, false⟩] }, true)

/-- INFO of WINDOW_FULL (R374). -/
def State.windowFullInfo (s : State) (p : Nat) : Nat := s.winUsed p + s.winPinned p * 2 ^ 32

/-- Extents i to i + W of a stream list of partition p whose current extent is i (R364). -/
def State.nearExtents (s : State) (p i : Nat) : List Nat :=
  (List.range (s.field (pgFNL p) oFNL_FNL_CFG 21 16 + 1)).map (fun j => (i + j) % (s.part p).stream.length)

/-- Page g is listed and outside the extents near extent i. -/
def State.awayFrom (s : State) (p i g : Nat) : Bool :=
  match s.extentOf p g with
  | some j => !((s.nearExtents p i).contains j)
  | none => false

/-- A page that gets a copy outside the extents near the current one is behind from the start. -/
def State.fallBehind (s : State) (p g : Nat) : State :=
  let y := s.part p
  match y.current with
  | some i => if s.awayFrom p i g && !(y.behind.contains g) then s.setPart p { y with behind := y.behind ++ [g] } else s
  | none => s

/-- A read of listed page g found no read reference on its extent (R364): the extent becomes the current one, the next
W extents are queued for fill, and listed pages outside them fall behind. DEDUCED (log entry 75). -/
def State.streamRead (s : State) (p g : Nat) : State :=
  match s.extentOf p g with
  | none => s
  | some i =>
    let y := s.part p
    if s.cmds.any (fun c => c.part = p && c.running && c.reads.any (fun r => s.extentOf p r = some i)) then s
    else
      let queued := ((s.nearExtents p i).drop 1).flatMap (fun j =>
        let e := nth ((0, 0) : Nat × Nat) y.stream j
        (List.range (e.2 / pageBytes)).map (fun k => e.1 / pageBytes + k))
      let away := s.awayFrom p i
      let fell := (s.pages.map (·.1)).filter (fun h => away h && ((s.page h).own p).isSome && !(y.behind.contains h))
      s.setPart p { y with
        current := some i
        fillQueue := y.fillQueue ++ queued.filter (fun h => ((s.page h).own p).isNone && !(y.fillQueue.contains h))
        behind := y.behind.filter away ++ fell }

/-- A read through partition p's copy: counted as a hit (unless under an expert hold, R366), stamped as the latest read, and pinned where the
page's hint says so (R357). -/
def State.readHit (s : State) (p g n : Nat) (c : WinCopy) : State :=
  let s := if c.hold = [] then s.countBytes (pgFNL p) oFNL_HIT n else s
  let x := s.page g
  let pin := s.pins p g
  ({ s with readStamp := s.readStamp + 1 }).setPage g { x with
    copies := x.copies.map (fun (d : WinCopy) => if d.part = p then { d with stamp := s.readStamp + 1, pinned := d.pinned || pin } else d) }

/-- A host read of [off, off + n) of the flash zone at home for partition p: bytes counted, charged to the partition at their channels, and reads of
the blocks they lie in (R339, R405, R411). -/
def State.flashRead (s : State) (p off n : Nat) : State :=
  let s := (pieces 4096 (n / 4096 + 2) off n).foldl (fun s e =>
    let l := e.1 / 4096
    let s := s.chargeFlash (l / 4) p e.2
    match tabFind s.flash.map l with
    | some (k, _) => s.setBlk k { s.blk k with reads := (s.blk k).reads + 1 }
    | none => s) s
  s.countBytes pgFLS oFLS_HOST_RD n

/-- A read of page g at home in the flash zone: which bytes of it is the reader's business; the count takes their number. -/
def State.readHome (s : State) (p g n : Nat) : State :=
  if pageZone g = .fls then s.flashRead p (g * pageBytes - flsBase) n else s

/-- A read of a page without a copy of partition p's: counted as a miss; a demand fill starts unless the hint is cold, and
where no frame can be taken the read is a bypass. Answers the state and whether the reader waits for a fill. -/
def State.readMiss (s : State) (p g n : Nat) : State × Bool :=
  let s := s.countBytes (pgFNL p) oFNL_MISS n
  if (s.page g).moves.any (fun m => m.part = p && m.kind = 0) then (s, true)
  else if s.actingHint p g = 3 then (s.readHome p g n, false)
  else
    match s.startFill p g none [] with
    | (t, true) => (t, true)
    | (s, false) => (((s.readHome p g n).countBytes (pgFNL p) oFNL_BYPASS n).flagOnce (pgFNL p) 1 1 (s.windowFullInfo p) none, false)

/-- A read reference of `n` bytes by partition p on page g (R358, R364, R366). -/
def State.readRef (s : State) (p g n : Nat) : State × Bool :=
  match pageZone g with
  | .ddr | .fls =>
    let s : State := s.streamRead p g
    match (s.page g).own p with
    | some c => (s.readHit p g n c, false)
    | none => s.readMiss p g n
  | _ => (s, false)

/-- The pages that [a, a+n) touches, with the bytes it takes of each. -/
def pagesOf (a n : Nat) : List (Nat × Nat) :=
  (pieces pageBytes (n / pageBytes + 2) a n).map (fun e => (e.1 / pageBytes, e.2))

/-- Every byte of a page at the place the device reads it now copied to an HBM frame. DEDUCED (log entry 38). -/
def State.copyPageIn (s : State) (p g frame : Nat) : State :=
  let dst := s.hbmPhys (frame * pageBytes)
  match s.locate p none (g * pageBytes) with
  | some (.phys k) => s.copyPhys k dst pageBytes
  | some (.flash o) =>
    let s := s.zeroPhys dst pageBytes
    let s := (List.range 512).foldl (fun s u =>
      match s.unitOf (o / 4096 + u) with
      | some x => x.data.foldl (fun s e => s.putPhys (dst + u * 4096 + e.1) e.2) s
      | none => s) s
    (s.unpoison dst pageBytes).flashRead p o pageBytes
  | none => s

/-- Whether a page at its present place holds an uncorrectable error. -/
def State.pageBad (s : State) (p g : Nat) : Bool :=
  match s.locate p none (g * pageBytes) with
  | some (.phys k) => s.errors.poison.any (fun x => k ≤ x && x < k + pageBytes)
  | some (.flash o) => (List.range 512).any (fun u => s.unitLost (o / 4096 + u))
  | none => true

/-- A move abandoned before its switch (R362): the destination frame is released, a retirement's to the reserve, and the page stays as it
was. DEDUCED (log entry 74). -/
def State.abandonMove (s : State) (g : Nat) (f : Move → Bool) : State :=
  let x := s.page g
  if x.moves.any f then
    let back := (x.moves.filter (fun m => f m && m.kind = 1)).map (·.frame)
    let e := s.errors
    let e := if g < ddrBase / pageBytes then { e with hbmReserve := back ++ e.hbmReserve } else { e with ddrReserve := back ++ e.ddrReserve }
    (({ s.setPage g { x with moves := x.moves.filter (fun m => !(f m)) } with errors := e }).abandonedEvent g).applyStalls g
  else s

/-- Every move of a test abandoned. -/
def State.abandonMoves (s : State) (f : Move → Bool) : State :=
  (s.pages.map (·.1)).foldl (fun s g => s.abandonMove g f) s

/-- A fill's copy is complete (R361, orders 3 to 5): the translation switches to the frame. An uncorrectable error met
in the copy abandons the move and ends the page's readers with DATA_ERROR (R362). -/
def State.finishFill (s : State) (g : Nat) (m : Move) : State :=
  if s.pageBad m.part g then
    (s.abandonMove g (fun n => n = m)).endWhere (fun c => c.running && c.reads.contains g) stDATA_ERROR 0
  else
    let s : State := s.copyPageIn m.part g m.frame
    let x := s.page g
    let stamp := s.readStamp + 1
    ((({ s with readStamp := stamp }).setPage g { x with
      moves := x.moves.filter (fun n => n ≠ m)
      copies := x.copies ++ [(⟨m.part, m.frame, [], m.pin, m.hold, stamp⟩ : WinCopy)] }).fallBehind m.part g).count pgTNG oTNG_MOVES 1

/-- Event REPAIR (R491). -/
def State.repairEvent (s : State) (kind page location : Nat) : State :=
  s.flagEvent pgERR 0 1 (kind + page * 2 ^ 16 + location % 2 ^ 32 * 2 ^ 32) none

/-- Event SPARE_LOW (R486, R491). -/
def State.spareLow (s : State) (what die left_ : Nat) : State :=
  s.flagEvent pgERR 1 2 (what + die * 2 ^ 8 + left_ * 2 ^ 16) none

/-- Reserve frames left (R486): those of the list, and those to which a retirement's move is still on its way. -/
def State.reserveLeft (s : State) (ddr : Bool) : Nat :=
  (if ddr then s.errors.ddrReserve else s.errors.hbmReserve).length
    + (s.pages.map (fun e => (e.2.moves.filter (fun m => m.kind = 1 && decide (ddrBase / pageBytes ≤ e.1) = ddr)).length)).sum

/-- The frame that a page's home stands in now. -/
def State.homeKey (s : State) (g : Nat) : Nat :=
  match pageZone g with
  | .hbm => s.hbmPhys (g * pageBytes)
  | _ => s.ddrPhys (g * pageBytes - ddrBase)

/-- A retirement's copy switches: the frame's bytes stand in the reserve frame, which serves it from now on (R483). -/
def State.switchRetire (s : State) (g : Nat) (m : Move) : State :=
  let old := s.homeKey g
  let dst := match pageZone g with
    | .hbm => m.frame * pageBytes
    | _ => ddrBase + m.frame * pageBytes
  let s := s.copyPhys old dst pageBytes
  let x := s.page g
  let s := s.setPage g { x with moves := x.moves.filter (fun n => n ≠ m), old := x.old ++ [(old / pageBytes, s.readersOf g)] }
  let e := s.errors
  let s := match pageZone g with
    | .hbm => { s with errors := { e with hbmMap := tabPut g e.hbmMap g m.frame } }
    | _ => { s with errors := { e with ddrMap := tabPut (g - ddrBase / pageBytes) e.ddrMap (g - ddrBase / pageBytes) m.frame } }
  let ddr := pageZone g ≠ .hbm
  let pageIx := if ddr then pgDDR m.part else pgHBM m.part
  let loc := if ddr then old / pageBytes - ddrBase / pageBytes else old / pageBytes
  let s : State := { s with errors := { s.errors with retired := tabPut 0 s.errors.retired pageIx (tabGet 0 s.errors.retired pageIx + 1) } }
  let s := (s.count pgTNG oTNG_MOVES 1).repairEvent (if ddr then 5 else 4) pageIx loc
  let low := if ddr then 16 else 4
  if s.reserveLeft ddr = low then s.spareLow (if ddr then 2 else 1) 0 low else s

/-- A retirement's copy is complete. An uncorrectable error read in it abandons the move and ends the page's readers with DATA_ERROR (R362). -/
def State.finishRetire (s : State) (g : Nat) (m : Move) : State :=
  if s.errors.poison.any (fun k => s.homeKey g ≤ k && k < s.homeKey g + pageBytes) then
    (s.abandonMove g (fun n => n = m)).endWhere (fun c => c.running && c.reads.contains g) stDATA_ERROR 0
  else s.switchRetire g m

/-- PAGE_COPY_DONE without the ladle's stalled updates: the first move of page g whose copy was still running. -/
def State.copyDone (s : State) (g : Nat) : State :=
  match (s.page g).moves.find? (fun m => !m.done) with
  | none => s
  | some m =>
    if m.kind = 0 then s.finishFill g m
    else if m.kind = 1 then s.finishRetire g m
    else
      let x := s.page g
      s.setPage g { x with moves := x.moves.map (fun n => if n = m then { n with done := true } else n) }

/-! ### The funnel's queue (R364) -/

/-- FUNNEL_FILL_START (R364): the first queued stream page without a copy takes a frame once one is to be had. -/
def execFunnelFillStart (p : Fin 16) (s : State) : Host.Outcome State Fault Refusal :=
  let y := s.part p
  let q := y.fillQueue.filter (fun g => ((s.page g).own p).isNone && !((s.page g).moves.any (fun m => m.part = p)))
  match q with
  | [] => done (s.setPart p { y with fillQueue := [] })
  | g :: rest =>
    let t := s.startFill p g none []
    done (t.1.setPart p { t.1.part p with fillQueue := if t.2 then rest else q })

/-- The index of the first entry of a stream list that breaks R363, with the entries read. -/
def State.streamList (s : State) (p : Nat) : List (Nat × Nat) × Option Nat :=
  let base := s.field (pgFNL p) oFNL_FNL_LIST_LO 31 0 + s.field (pgFNL p) oFNL_FNL_LIST_HI 31 0 * 2 ^ 32
  let cnt := min 4096 (s.field (pgFNL p) oFNL_FNL_CFG 12 0)
  let es := (List.range cnt).map (fun i =>
    match s.readBytes p (base + 16 * i) 16 with
    | .ok b => some (fld b 0 8, fld b 8 8)
    | .error _ => none)
  let ok := fun (e : Option (Nat × Nat)) => match e with
    | none => false
    | some e => e.1 % pageBytes = 0 && e.2 % pageBytes = 0 &&
        (within e.1 e.2 ddrBase ddrSize || within e.1 e.2 flsBase flsSize)
  if base % 16 ≠ 0 then ([], if cnt = 0 then none else some 0)
  else (es.filterMap id, es.findIdx? (fun e => !(ok e)))

/-- The commit of FNL_CFG reads and checks the stream list (R363); a list that breaks the rules is not taken: COUNT
reads 0 and LIST_REJECT is raised. DEDUCED (log entry 75). -/
def State.commitStreamList (s : State) (p : Nat) : State :=
  let r := s.streamList p
  let y := s.part p
  match r.2 with
  | none => s.setPart p { y with stream := r.1, current := none, fillQueue := [], behind := [] }
  | some i =>
    let s := s.setPart p { y with stream := [], current := none, fillQueue := [], behind := [] }
    (s.setField (pgFNL p) oFNL_FNL_CFG 12 0 0).flagEvent (pgFNL p) 2 2 i none

end Sys2Proof.Machine
end

