-- ==== Sys2Proof/Machine/Errors.lean ====
section
/-! DEFINITION. Errors, targeted self-test and repair (19): corrected and uncorrected errors (R478, R479), the self-test
sequence (R480 to R482), repairs, spares, holes and the repair history (R483 to R488). -/

namespace Sys2Proof.Machine

/-! ### Sites -/

/-- The stack that holds a physical HBM byte (R356). -/
def hbmStack (p : Nat) : Nat := (((p / 256) ^^^ (p / 256 / 512) ^^^ (p / 256 / 2 ^ 18)) % 512) / 64

/-- The populated channels, ascending. -/
def State.ddrChannels (s : State) : List Nat :=
  (List.range 24).filter (fun c => (nth none s.tiers.ddrSpds c).isSome)

/-- The channel that holds a physical DDR5 byte (R356). -/
def State.ddrChannel (s : State) (p : Nat) : Nat :=
  let cs := s.ddrChannels
  nth 0 cs (p / 4096 % max 1 cs.length)

/-- The register page of the unit that reports a site's errors. -/
def State.sitePage (s : State) : ErrSite → Nat
  | .sram g _ => g
  | .semWord k => pgSEM (k.toNat / 0x4000)
  | .stockpot q _ => pgSTK q.val
  | .griddle c _ | .coreUnit c => pgGRD c.val
  | .hbm a => pgHBM (hbmStack a)
  | .ddr a => pgDDR (s.ddrChannel a)
  | .lane p _ => pgPORT p.val
  | .bridge _ _ => pgERR
  | .arbQueue a _ => pgARB a.val
  | .store _ _ => pgMGT

/-- STRUCT of R489: the row of R481, numbered from 0. -/
def siteStruct : ErrSite → Nat
  | .sram _ _ | .semWord _ | .stockpot _ _ | .store _ _ => 0
  | .griddle _ _ => 1
  | .coreUnit _ => 2
  | .hbm _ | .ddr _ => 3
  | .lane _ _ => 4
  | .bridge _ _ => 5
  | .arbQueue _ _ => 6

/-- LOCATION of R487 and R489: row, griddle, core, frame, lane, wire or port. DESIGN CHOICE (log entry 39). -/
def siteLocation : ErrSite → Nat
  | .sram _ r => r
  | .semWord k => k.toNat
  | .stockpot _ o => o
  | .griddle _ g => g.val
  | .coreUnit c => c.val
  | .hbm a | .ddr a => a / pageBytes
  | .lane _ l => l.val
  | .bridge _ w => w
  | .arbQueue _ p => p.val
  | .store _ k => k.toNat

/-- Two sites in one fenced scope (R481): the row, the griddle, the core, the 64-byte block, the lane's sub-port, the link, the port. -/
def sameScope : ErrSite → ErrSite → Bool
  | .hbm a, .hbm b => a / 64 = b / 64
  | .ddr a, .ddr b => a / 64 = b / 64
  | .bridge l _, .bridge m _ => l = m
  | .stockpot q o, .stockpot r u => q = r && o / 4096 = u / 4096
  | a, b => a = b

/-- The core whose GRD, WSK or TRY page this is. -/
def coreOfPage (g : Nat) : Option Nat :=
  match pageOf g with
  | some (.grd, n) | some (.wsk, n) | some (.tray, n) => some n
  | _ => none

/-- The core or the memory channel a test occupies: at most one test runs on each (R482). -/
def State.siteUnit (s : State) : ErrSite → Option Nat
  | .griddle c _ | .coreUnit c => some c.val
  | .sram g _ => coreOfPage g
  | .hbm a => some (1000 + hbmStack a)
  | .ddr a => some (2000 + s.ddrChannel a)
  | _ => none

/-! ### The log (R489) -/

def State.logError (s : State) (outcome cls : Nat) (site : ErrSite) : State × Nat :=
  let n := s.errors.logged
  let e : LogEntry := ⟨outcome, cls, siteStruct site, s.sitePage site, siteLocation site, s.time⟩
  ({ s with errors := { s.errors with log := tabSet s.errors.log (n % 1024) e, logged := n + 1 } }, n)

/-- The outcome of log entry number n, if it still stands, set. -/
def State.setOutcome (s : State) (n outcome : Nat) : State :=
  if s.errors.logged ≤ n + 1024 then
    match tabFind s.errors.log (n % 1024) with
    | some e => { s with errors := { s.errors with log := tabSet s.errors.log (n % 1024) { e with outcome := outcome } } }
    | none => s
  else s

/-! ### Starting tests (R480, R482) -/

/-- A unit under test is quiesced (R481): the griddle, or the core. -/
def State.quiesce (s : State) : ErrSite → State
  | .griddle c g =>
    let x := s.core c.val
    s.setCore c.val { x with stopped := insertNat x.stopped g.val }
  | .coreUnit c =>
    let x := s.core c.val
    if x.st = .enabled then s.setCore c.val { x with st := .quiesced } else s
  | _ => s

/-- Whether a site's die or island is in reset: its abandoned tests wait until it rejoins (R482). -/
def State.siteDown (s : State) : ErrSite → Bool
  | .griddle c _ | .coreUnit c => (s.die (c.val / 52)).inReset
  | .stockpot q _ => (s.die q.val).inReset
  | .semWord k => (s.die (k.toNat / 0x4000)).inReset
  | .sram g _ => match coreOfPage g with | some c => (s.die (c / 52)).inReset | none => false
  | .hbm _ => (s.rail 7).down
  | .ddr _ => (s.rail 8).down
  | .lane _ _ => (s.rail 9).down
  | _ => false

/-- Waiting tests start where their core or channel is free, in order of their errors. -/
def State.startTests (s : State) : State :=
  s.errors.tests.foldl (fun s t =>
    let clash := s.errors.tests.any (fun u => u.started && u.site ≠ t.site && (s.siteUnit t.site).isSome && s.siteUnit u.site = s.siteUnit t.site)
    if t.started || clash || s.siteDown t.site then s
    else
      let s := s.quiesce t.site
      { s with errors := { s.errors with
        tests := s.errors.tests.map (fun u => if u = t then { u with started := true } else u) } }) s

/-- An error, bite or port out of service starts a targeted self-test of its site, or joins the test of its scope
(R480, R482). A row left in service without a spare is not tested again for corrected errors (R485). -/
def State.beginTest (s : State) (site : ErrSite) (cls : Nat) : State :=
  if cls = 0 && s.errors.noSpare.any (fun x => sameScope x site) then s
  else
    let (s, n) := s.logError 0 cls site
    if s.errors.tests.any (fun t => sameScope t.site site) then
      { s with errors := { s.errors with tests := s.errors.tests.map (fun t =>
          if sameScope t.site site then { t with entries := t.entries ++ [n], uncorrected := t.uncorrected || cls = 1 } else t) } }
    else
      ({ s with errors := { s.errors with tests := s.errors.tests ++ [(⟨site, [n], false, decide (cls = 1), false⟩ : Test)] } }).startTests

/-! ### Errors (R478) -/

/-- The counter of corrected errors a page keeps of its own (R82, R83, R180). -/
def State.countCorrected (s : State) (page : Nat) : State :=
  match pageOf page with
  | some (.tray, _) => s.count page oTRY_TRY_CORR 1
  | some (.stk, _) => s.count page oSTK_STK_CORR 1
  | some (.sem, _) => s.count page oSEM_SEM_CORR 1
  | some (.netp, _) => s.count page oNETP_FEC_CORR 1
  | _ => s

/-- CE or UE of the reporting page, where it has one. -/
def State.setCe (s : State) (page : Nat) : State :=
  match (pageOf page).bind (fun k => ceBit k.1) with
  | some b => s.setErr page b
  | none => s

def State.setUe (s : State) (page : Nat) : State :=
  match (pageOf page).bind (fun k => ueBit k.1) with
  | some b => s.setErr page b
  | none => s

/-- The sub-port of port p that uses a lane (R415). -/
def State.laneSub (s : State) (p l : Nat) : Nat :=
  match s.field (pgPORT p) oNETP_PORT_CFG 1 0 with
  | 1 => l / 2
  | 2 => l
  | _ => 0

/-- CORRECTED_ERROR (R478, R480): correct data is delivered and a targeted self-test starts; links are logged as such. -/
def execCorrectedError (site : ErrSite) (s : State) : Host.Outcome State Fault Refusal :=
  awake s <|
  let page := s.sitePage site
  let cls := match site with | .lane _ _ | .bridge _ _ => 3 | _ => 0
  done ((s.setCe page |>.countCorrected page).beginTest site cls)

/-- The granule of a site becomes poisoned (R478, R479). -/
def State.poisonKey (s : State) (k : Nat) : State :=
  { s with errors := { s.errors with poison := insertNat s.errors.poison (granule k).1 } }

/-- A running command that reads a page of a list (R362). -/
def readsAny (gs : List Nat) (c : Cmd) : Bool := c.running && gs.any (fun g => c.reads.contains g)

/-- Event UE of an engine's page for an error in its SRAM (R209, R242, R263, R295). What the lost word held is open: an entry of a ladle's stall
buffer names its row; a failing read there was none, and the fields that would tell of it are free. DESIGN CHOICE (log entry 104). -/
def State.sramEvent (s : State) (page : Nat) : State :=
  let any := s.choose 0xEB (2 ^ 64)
  match pageOf page with
  | some (.ldl, i) =>
    let l := s.stalls.filter (fun e => e.ladle = i)
    let info := match l[s.choose 0xEC l.length]? with
      | some e => match s.cmd? e.cmd with
        | some c => fld c.body 0 2 % 2 ^ 12 + (e.addr - (tableOf c.desc).base) / max 1 (tableOf c.desc).rowBytes % 2 ^ 40 * 2 ^ 24
        | none => any
      | none => any
    s.raise page (some 1) 4 info none
  | some (.skm, _) => s.raise page (some 1) 3 (any - bits any 15 8 * 2 ^ 8) none
  | some (.siv, _) => s.raise page (some 1) 2 (any / 2 ^ 16 * 2 ^ 16) none
  | some (.mdl, _) | some (.stn, _) | some (.cut, _) => s.raise page (some 1) 3 (any / 2 ^ 16 * 2 ^ 16) none
  | _ => s

/-- UNCORRECTED_ERROR (R478, R479, R153, R179, R362): the granule is poisoned; commands using an SRAM word are killed, and
readers of an HBM or DDR5 block end with DATA_ERROR. `users` are the commands that were using the structure. Which master's access found a
semaphore's error (R182) is open. DESIGN CHOICE (log entry 104). -/
def execUncorrectedError (site : ErrSite) (users : List CmdRef) (s : State) : Host.Outcome State Fault Refusal :=
  awake s <|
  let page := s.sitePage site
  let use := fun (c : Cmd) => users.contains c.ref && c.running
  let s : State := match site with
    | .semWord _ => s
    | .sram _ _ => (s.setUe page).sramEvent page
    | _ => s.setUe page
  let s : State := match site with
    | .semWord k =>
      let s := s.semPoison k.toNat (s.choose 0xEA 4096)
      s.endWhere (fun c => c.unissued && !c.carried && (hWaits c.hdr).any (fun e => entKind e ≠ 0 && entSem e = k.toNat)) stDATA_ERROR 0
    | .stockpot q o => (s.poisonKey (potBase + q.val * potStep + o)).killWhere use causeError
    | .hbm a =>
      let s := s.poisonKey a
      let hit := fun (m : Move) => m.kind ≠ 1 && within a 1 (s.hbmPhys (m.frame * pageBytes)) pageBytes
      let gs := (s.pages.filter (fun e => e.2.moves.any hit)).map (·.1)
      (s.abandonMoves hit).endWhere (fun c => use c || readsAny gs c) stDATA_ERROR 0
    | .ddr a =>
      let s := s.poisonKey (ddrBase + a)
      let g := ddrBase / pageBytes + s.ddrPageOf (a / pageBytes)
      let gs := if (s.page g).moves.any (fun m => m.kind ≠ 1) then [g] else []
      (s.abandonMove g (fun m => m.kind ≠ 1)).endWhere (fun c => use c || readsAny gs c) stDATA_ERROR 0
    | .store p k =>
      let x := s.part p.val
      s.setPart p.val { x with store := x.store.map (fun v => if v.sem = k.toNat then { v with bad := true } else v) }
    | .lane p l =>
      let s := s.count (pgPORT p.val) oNETP_FEC_UNCORR 1
      s.flagEvent (pgPORT p.val) 3 3 (4 * p.val + s.laneSub p.val l.val + (s.stored (pgPORT p.val) oNETP_FEC_UNCORR 0).toNat * 2 ^ 32) none
    | .bridge _ _ => s.killWhere use causeIsland
    | _ => s.killWhere use causeError
  done (s.beginTest site (match site with | .lane _ _ | .bridge _ _ => 3 | _ => 1))

/-! ### The repair history (R487, R488) -/

/-- A record added: when the history is full it takes the place of the oldest record without REPLAY. None where every
record held is replayed (then the fault is handled as having no spare). -/
def State.addHist (s : State) (h : Hist) : Option State :=
  let e := s.errors
  let put := fun (l : List Hist) =>
    let s : State := { s with errors := { e with hist := l ++ [h] } }
    if 65536 ≤ l.length + 1 then s.setErr pgERR 3 else s
  if e.hist.length < 65536 then some (put e.hist)
  else match e.hist.findIdx? (fun x => !x.replay) with
    | some i => some (put (e.hist.eraseIdx i))
    | none => none

/-- A history record of a repair made now. -/
def State.histOf (s : State) (kind : Nat) (replay : Bool) (page location : Nat) : Hist :=
  ⟨kind, false, replay, page, location, if s.cal.valid then s.cal.seconds % 2 ^ 48 else 0⟩

/-! ### Repairs (R483 to R486) -/

/-- SRAM rows a unit has spare (R486). -/
def spareRows (page : Nat) : Nat :=
  match pageOf page with
  | some (.tray, _) => 32
  | some (.stk, _) => 64
  | some (.grd, _) => 8
  | _ => 4

/-- Spare cores left on die q. -/
def State.spareCores (s : State) (q : Nat) : List Nat :=
  ((List.range 52).map (fun i => 52 * q + i)).filter (fun c => (s.core c).st = .spare)

/-- Enabled cores of die q, as the capability list counts them (R51, R539). -/
def State.enabledCores (s : State) (q : Nat) : Nat :=
  (((List.range 52).map (fun i => 52 * q + i)).filter (fun c => (s.core c).st = .enabled || (s.core c).st = .quiesced)).length

/-- Core c retired, substitute `sub` in its place in its partition, with its tray zeroed (R70, R72, R484). DEDUCED (log entry 37). -/
def State.substituteCore (s : State) (c : Nat) (sub : Option Nat) : State :=
  let x := s.core c
  let s := s.setCore c { x with st := .retired, owner := 31, hand := [], next := [], substitute := some (sub.getD 0xFF) }
  match sub with
  | some d =>
    let y := s.core d
    s.setCore d { y with st := .enabled, owner := x.owner, trayOf := none, trayUsed := 0, trayChain := 0 }
  | none => s

/-- A history record's repair applied to the device: at the repair, and again at start-up (R488). DEDUCED (log entry 38). -/
def State.applyHist (s : State) (h : Hist) : State :=
  let e := s.errors
  match h.kind with
  | 0x01 => { s with errors := { e with rows := tabPut 0 e.rows h.page (tabGet 0 e.rows h.page + 1) } }
  | 0x02 =>
    let c := h.page - 0x080
    let x := s.core c
    s.setCore c { x with byp := setNth none x.byp (h.location / 64) (some (h.location % 64)) }
  | 0x03 =>
    let d := h.location / 256 % 256
    s.substituteCore (h.location % 256) (if d = 0xFF then none else some d)
  | 0x04 =>
    match e.hbmReserve with
    | f :: r =>
      let g := s.hbmPageOf h.location
      { s with errors := { e with hbmReserve := r, hbmMap := tabPut g e.hbmMap g f,
                                            retired := tabPut 0 e.retired h.page (tabGet 0 e.retired h.page + 1) } }
    | [] => s
  | 0x05 =>
    match e.ddrReserve with
    | f :: r =>
      let g := s.ddrPageOf h.location
      { s with errors := { e with ddrReserve := r, ddrMap := tabPut g e.ddrMap g f,
                                            retired := tabPut 0 e.retired h.page (tabGet 0 e.retired h.page + 1) } }
    | [] => s
  | 0x09 =>
    let p := h.page - 0x480
    { s with net := { s.net with lanesBad := tabPut [] s.net.lanesBad p (insertNat (tabGet [] s.net.lanesBad p) h.location) } }
  | 0x0A => { s with errors := { e with wires := tabPut 0 e.wires h.location (tabGet 0 e.wires h.location + 1) } }
  | 0x0B => { s with errors := { e with rows := tabPut 0 e.rows h.page (tabGet 0 e.rows h.page + 1) } }
  | _ => s

/-- Every record with REPLAY set applied, oldest first (R488). DEDUCED (log entry 38). -/
def State.replayHist (s : State) : State :=
  (s.errors.hist.filter (·.replay)).foldl (fun s h => s.applyHist h) s

/-- No spare is left (R485): the site stays in service, event EXHAUSTED. -/
def State.noSpareLeft (s : State) (site : ErrSite) : State :=
  ({ s with errors := { s.errors with noSpare := site :: s.errors.noSpare } }).flagEvent pgERR 2 3
    (siteStruct site + s.sitePage site * 2 ^ 16 + siteLocation site % 2 ^ 32 * 2 ^ 32) none

/-- A record, its repair and event REPAIR; none where the history can take no record. DEDUCED (log entry 38). -/
def State.repairWith (s : State) (kind page location : Nat) : Option State :=
  let h := s.histOf kind true page location
  (s.addHist h).map (fun t => (t.applyHist h).repairEvent kind page location)

/-- Core retirement (R72, R483, R484, R485): with the die's lowest-numbered spare core, or without replacement. DEDUCED (log entry 38). -/
def State.retireCore (s : State) (c : Nat) (site : ErrSite) : State × Bool :=
  let q := c / 52
  let hands := ((s.core c).hand ++ (s.core c).next).filterMap id
  let s := s.killWhere (fun d => hands.any (fun u => u.cmd = d.ref)) causeError
  let h := fun (sub : Option Nat) => s.histOf 3 true (pgGRD c) (c + (sub.getD 0xFF) * 256)
  let spare := (s.spareCores q).head?
  let (s, sub) : State × Option Nat := match s.addHist (h spare) with
    | some t => (t, spare)
    | none => (s, none)
  let s := s.substituteCore c sub
  let s := s.setErr (pgGRD c) 4
  match sub with
  | some _ =>
    let s := s.repairEvent 3 (pgGRD c) (h spare).location
    let n := (s.spareCores q).length
    (if n = 1 then s.spareLow 0 q n else s, true)
  | none =>
    (s.flagEvent pgERR 2 3 (siteStruct site + pgGRD c * 2 ^ 16 + siteLocation site % 2 ^ 32 * 2 ^ 32) none, false)

/-- Page retirement (R483, R361): a reserve frame is taken and the move to it starts; with no reserve left the frame
is to become a hole (R485). The record is written before the move. -/
def State.retirePage (s : State) (site : ErrSite) (ddr : Bool) (a : Nat) : State × Bool :=
  let e := s.errors
  let f := a / pageBytes
  let g := if ddr then ddrBase / pageBytes + s.ddrPageOf f else s.hbmPageOf f
  let unit := if ddr then s.ddrChannel a else hbmStack a
  let page := if ddr then pgDDR unit else pgHBM unit
  match (if ddr then e.ddrReserve else e.hbmReserve) with
  | [] => (s.noSpareLeft site, false)
  | r :: rest =>
    match s.addHist (s.histOf (if ddr then 5 else 4) true page f) with
    | none => (s.noSpareLeft site, false)
    | some s =>
      let e := s.errors
      let s : State := { s with errors := if ddr then { e with ddrReserve := rest } else { e with hbmReserve := rest } }
      let x := s.page g
      (s.setPage g { x with moves := x.moves ++ [(⟨1, unit, r, [], false, [], none, false⟩ : Move)] }, true)

/-- Lane retirement (R416, R483): the sub-port that used the lane retrains at the next lower rate on a lane set without
retired lanes, keeping its index; already at 100G it goes down (R485). -/
def State.retireLane (s : State) (site : ErrSite) (p l : Nat) : State × Bool :=
  let mode := s.field (pgPORT p) oNETP_PORT_CFG 1 0
  let sub := s.laneSub p l
  let i := 4 * p + sub
  let bad := insertNat (tabGet [] s.net.lanesBad p) l
  let x := s.sub i
  let own := match mode with | 1 => [2 * sub, 2 * sub + 1] | 2 => [sub] | _ => [0, 1, 2, 3]
  let sets : List (List Nat) := if own.length = 4 then [[0, 1], [2, 3], [0], [1], [2], [3]] else own.map (fun k => [k])
  match sets.find? (fun ls => ls.length < x.lanes && ls.all (fun k => !(bad.contains k))) with
  | some ls =>
    match s.repairWith 9 (pgPORT p) l with
    | none => (s.noSpareLeft site, false)
    | some s =>
      let s := s.setSub i { s.sub i with lanes := ls.length }
      ((s.count (pgPORT p) oNETP_RETRAIN 1).flagEvent (pgPORT p) 2 2 (i + ls.length * 2 ^ 16) none, true)
  | none =>
    let h := s.histOf 9 true (pgPORT p) l
    let s := match s.addHist h with | some t => t.applyHist h | none => s
    let was := (s.sub i).up
    let s := s.setSub i { s.sub i with up := false }
    let s := if was then s.flagEvent (pgPORT p) 1 1 i none else s
    (s.noSpareLeft site, false)

/-- The repair of a lasting fault (R483, R485). Answers whether a spare was found. -/
def State.repair (s : State) (site : ErrSite) (r : TestResult) : State × Bool :=
  let row := fun (page kind loc : Nat) =>
    if tabGet 0 s.errors.rows page < spareRows page then
      match s.repairWith kind page loc with
      | some t => (t, true)
      | none => (s.noSpareLeft site, false)
    else (s.noSpareLeft site, false)
  match site with
  | .sram g n => row g 1 n
  | .semWord k => row (pgSEM (k.toNat / 0x4000)) 1 k.toNat
  | .stockpot q o => row (pgSTK q.val) 1 o
  | .store _ k => row pgMGT 1 k.toNat
  | .griddle c g =>
    match r with
    | .failColumn col =>
      match nth none (s.core c.val).byp g.val with
      | none =>
        match s.repairWith 2 (pgGRD c.val) (g.val * 64 + col.val) with
        | some t => (t.setErr (pgGRD c.val) 3, true)
        | none => s.retireCore c.val site
      | some _ => s.retireCore c.val site
    | _ => s.retireCore c.val site
  | .coreUnit c => s.retireCore c.val site
  | .hbm a => s.retirePage site false a
  | .ddr a => s.retirePage site true a
  | .lane p l => s.retireLane site p.val l.val
  | .bridge l _ =>
    if tabGet 0 s.errors.wires l < 4 then
      match s.repairWith 0x0A pgERR l with
      | some t => (t, true)
      | none => (s.noSpareLeft site, false)
    else (s.noSpareLeft site, false)
  | .arbQueue a p =>
    let x := row (pgARB a.val) 0x0B p.val
    if x.2 then
      let b := x.1.arb a.val
      (x.1.setArb a.val { b with ports := tabPut arbPortIdle b.ports p.val { tabGet arbPortIdle b.ports p.val with out := false } }, true)
    else x

/-- A unit whose test has ended returns to service, unless its core was retired. -/
def State.unquiesce (s : State) : ErrSite → State
  | .griddle c g =>
    let x := s.core c.val
    s.setCore c.val { x with stopped := x.stopped.filter (· ≠ g.val) }
  | .coreUnit c =>
    let x := s.core c.val
    if x.st = .quiesced then s.setCore c.val { x with st := .enabled } else s
  | _ => s

/-- The post-package repair of a retired frame passed its test: the frame joins the reserve (R483). -/
def State.pprPassed (s : State) (site : ErrSite) : State :=
  match site with
  | .hbm a =>
    match s.addHist (s.histOf 6 false (s.sitePage site) (a / pageBytes)) with
    | some s => (({ s with errors := { s.errors with hbmReserve := s.errors.hbmReserve ++ [a / pageBytes] } }).repairEvent 6 (s.sitePage site) (a / pageBytes))
    | none => s
  | .ddr a =>
    match s.addHist (s.histOf 7 false (s.sitePage site) (a / pageBytes)) with
    | some s => (({ s with errors := { s.errors with ddrReserve := s.errors.ddrReserve ++ [a / pageBytes] } }).repairEvent 7 (s.sitePage site) (a / pageBytes))
    | none => s
  | _ => s

/-- Tests passed by this site within the window of R482, the present one included. -/
def State.passCount (s : State) (site : ErrSite) : Nat :=
  let win := max 1 (s.field pgERR oERR_ERR_CFG 31 16) * 1024
  (s.errors.passes.filter (fun p => sameScope p.site site && s.strobes ≤ p.strobe + win)).length + 1

/-- A test ends: orders 4 and 5 of R480, R481 to R485. -/
def State.testDone (s : State) (t : Test) (site : ErrSite) (r : TestResult) : State :=
  let s : State := { s with errors := { s.errors with tests := s.errors.tests.filter (fun u => u ≠ t) } }
  if t.ppr then (if r = .pass then s.pprPassed site else s).startTests
  else
    let again := r = .pass && max 1 (s.field pgERR oERR_ERR_CFG 3 0) ≤ s.passCount site
    let s : State :=
      if r = .pass && !again then
        let s : State := { s with errors := { s.errors with passes := s.errors.passes ++ [⟨site, s.strobes⟩] } }
        t.entries.foldl (fun s n => s.setOutcome n 1) (s.count pgERR oERR_TRANSIENTS 1)
      else
        let (s, ok) := s.repair site r
        let out := if again then 5 else if ok then 2 else 3
        t.entries.foldl (fun s n => s.setOutcome n out) (s.count pgERR oERR_LASTING 1)
    (s.unquiesce site).startTests

/-- The site of a retired frame's faulty row: in the frame, on the stack or channel that the frame's retirement record names. -/
def State.pprSite (s : State) (hbm : Bool) (f : Nat) : ErrSite :=
  let page := (((s.errors.hist.filter (fun h => h.kind = (if hbm then 4 else 5) && h.location = f)).getLast?).map (·.page)).getD 0
  let at_ := fun (i : Nat) => if hbm then ErrSite.hbm (f * pageBytes + 256 * i) else ErrSite.ddr (f * pageBytes + 4096 * i)
  at_ (((List.range 512).find? (fun i => s.sitePage (at_ i) = page)).getD 0)

/-- An old frame that no read of before its page's switch holds any longer. -/
def State.oldFree (s : State) (e : Nat × List CmdRef) : Bool := !(s.cmds.any (fun c => c.running && e.2.contains c.ref))

/-- OLD_FRAME_RELEASE (R361, order 6): no read that started before the switch remains, and the oldest such frame is released. The row in a
retired frame is then repaired in its package and tested again (R483). -/
def execOldFrameRelease (g : Nat) (s : State) : Host.Outcome State Fault Refusal :=
  let x := s.page g
  match x.old.find? s.oldFree with
  | some (f, rs) =>
    let s := s.setPage g { x with old := x.old.erase (f, rs) }
    if pageZone g ≠ .hbm && f < ddrBase / pageBytes then done s
    else
      let site := if pageZone g = .hbm then s.pprSite true f else s.pprSite false (f - ddrBase / pageBytes)
      done { s with errors := { s.errors with tests := s.errors.tests ++ [(⟨site, [], true, false, true⟩ : Test)] } }
  | none => done s

/-- The tests of a die or island that resets are abandoned with OUTCOME 4 and wait to be made again (R482). -/
def State.abandonTests (s : State) (f : ErrSite → Bool) : State :=
  s.errors.tests.foldl (fun s t =>
    if f t.site && (t.started || t.entries ≠ []) then
      let s := t.entries.foldl (fun s n => s.setOutcome n 4) (s.count pgERR oERR_ABANDONED 1)
      { s with errors := { s.errors with
        tests := s.errors.tests.map (fun u => if u = t then { u with entries := [], started := false } else u) } }
    else s) s

/-- Whether a test of one of these cores is in progress (R482). -/
def State.coresUnderTest (s : State) (cs : List Nat) : Bool :=
  s.errors.tests.any (fun t => t.started && match t.site with
    | .griddle c _ | .coreUnit c => cs.contains c.val
    | .sram g _ => match coreOfPage g with | some c => cs.contains c | none => false
    | _ => false)

end Sys2Proof.Machine
end

