-- ==== Sys2Proof/Machine/Flash.lean ====
section
/-! DEFINITION. The flash media manager (16): the write buffers and word lines, blocks and bands, relocation, reclaim, folding,
wear levelling, refresh and patrol, failures, the map's rebuild, and FORMAT. -/

namespace Sys2Proof.Machine

/-! ### Geometry (R388, R392, R400) -/

/-- The key of a block. DESIGN CHOICE (log entry 39). -/
def blkKey (b : BlockId) : Nat := (b.ch * 16 + b.die) * 65536 + b.blk
def keyCh (k : Nat) : Nat := k / 65536 / 16
def keyDie (k : Nat) : Nat := k / 65536 % 16

def dieNone : FlashDie := ⟨false, 0, 2, 0, 0, 0, 0, []⟩

def State.fdie (s : State) (ch die : Nat) : FlashDie := nth dieNone (s.chan ch).dies die

/-- Pages of a block in a mode: TLC data, or SLC (data, map, parity). -/
def blockPages (d : FlashDie) (mode : Nat) : Nat := if mode = 0 then d.tlcPages else d.slcPages

/-- Units one word line holds: a page of every plane, three pages of it in TLC, four units a page. -/
def lineUnits (d : FlashDie) (mode : Nat) : Nat := d.planes * (if mode = 0 then 3 else 1) * 4

/-- Units a block holds before its summary, in whole word lines: the summary has 64 bytes and 12 for each unit (R392). -/
def dataUnits (d : FlashDie) (mode : Nat) : Nat :=
  let p := blockPages d mode
  let line := lineUnits d mode
  if line = 0 then 0 else (p - ceilDiv (64 + 48 * p) 16384) * 4 / line * line

/-- Dies of a channel that answer. -/
def State.liveDies (s : State) (ch : Nat) : List Nat :=
  (List.range (s.chan ch).dies.length).filter (fun d => !((s.chan ch).lost.contains d))

/-- Good blocks of a die: neither marked bad nor retired. -/
def State.goodOn (s : State) (ch die : Nat) : List Nat :=
  let d := s.fdie ch die
  ((List.range d.blocks).filter (fun b => !(d.bad.contains b))).map (fun b => blkKey ⟨ch, die, b⟩) |>.filter
    (fun k => (s.blk k).st ≠ .retired && (s.blk k).st ≠ .bad)

/-- Good blocks of a channel's dies in service. -/
def State.goodBlocks (s : State) (ch : Nat) : List Nat := (s.liveDies ch).flatMap (s.goodOn ch)

def State.freeOn (s : State) (ch die : Nat) : List Nat := (s.goodOn ch die).filter (fun k => (s.blk k).st = .free)
def State.freeBlocks (s : State) (ch : Nat) : List Nat := (s.liveDies ch).flatMap (s.freeOn ch)

/-- A data block: TLC or SLC data. -/
def Blk.data (x : Blk) : Bool := x.mode ≤ 1

/-! ### Life of the tier (R402, R409, R410) -/

/-- Good raw capacity in bytes, every block counted as TLC. -/
def State.goodRawBytes (s : State) : Nat :=
  ((List.range 32).map (fun ch => ((s.liveDies ch).map (fun d => (s.goodOn ch d).length * (s.fdie ch d).tlcPages * 16384)).sum)).sum

/-- A unit a map entry names. -/
def State.unitLive (s : State) (k i : Nat) (u : FUnit) : Bool := u.kind = 0 && tabFind s.flash.map u.lua = some (k, i)

/-- Live data units held in SLC data blocks. -/
def State.slcHeld (s : State) : Nat :=
  (s.flash.blocks.map (fun e => if e.2.mode = 1 then
    ((e.2.units.zipIdx).filter (fun u => s.unitLive e.1 u.2 u.1)).length else 0)).sum

/-- The target of R402 in bytes, rounded down. -/
def State.slcTarget (s : State) : Nat :=
  let logical : Rat := s.flash.logical * 512
  let f : Rat := if s.flash.logical = 0 then 0 else s.flash.map.length / logical
  ((s.flash.goodRaw * pageBytes : Nat) * ((4 : Rat) / 100 - (35 : Rat) / 1000 * f)).floor.toNat

/-- Hundredths of a block by which a channel's good blocks exceed what its share of the logical capacity and R409 need. -/
def State.spareMargin (s : State) (ch : Nat) : Int :=
  let d := s.fdie ch 0
  let need := ceilDiv (s.flash.logical * 16) (max 1 (dataUnits d 0))
  let all := (s.chan ch).dies.length * d.blocks
  (100 * (s.goodBlocks ch).length : Nat) - (100 * need : Nat) - (all : Nat)

/-- The smallest margin of any channel. -/
def State.tierMargin (s : State) : Int :=
  ((List.range 32).map s.spareMargin).foldl min (s.spareMargin 0)

def State.eraseCounts (s : State) : List Nat :=
  (List.range 32).flatMap (fun ch => (s.goodBlocks ch).map (fun k => (s.blk k).erases))

def State.eraseMean (s : State) : Rat :=
  let l := s.eraseCounts
  if l.length = 0 then 0 else l.sum / l.length

/-- The wear term of LIFE. -/
def State.lifeWear (s : State) : Nat :=
  let r := (s.fdie 0 0).peRated
  if r = 0 then 0 else min 100 (100 * (1 - s.eraseMean / r)).floor.toNat

/-- The spare term of LIFE. -/
def State.lifeSpare (s : State) : Nat :=
  if s.flash.marginAtFormat = 0 then 0 else min 100 (100 * s.tierMargin.toNat / s.flash.marginAtFormat)

def State.life (s : State) : Nat := min s.lifeWear s.lifeSpare

/-- Read-only is entered, and a fall of LIFE to 10 or to 0 raised (R409, R410). -/
def State.checkLife (s : State) : State :=
  if !s.flash.formatted then s
  else
    let s : State := match (List.range 32).find? (fun ch => s.spareMargin ch < 0) with
      | some ch => if s.flash.readOnly then s
          else ({ s with flash := { s.flash with readOnly := true } }).flagEvent pgFLS 6 5 ch none
      | none => s
    let l := s.life
    let seen := if l = 0 then 2 else if l ≤ 10 then 1 else 0
    if s.flash.lifeSeen < seen then
      ({ s with flash := { s.flash with lifeSeen := seen } }).flagEvent pgFLS 7 6 l none
    else s

/-! ### Blocks, bands and word lines (R392, R394, R400) -/

/-- Mode of the next host block: SLC while the data held in SLC is below the target (R402). -/
def State.hostMode (s : State) : Nat := if s.slcHeld * 4096 < s.slcTarget then 1 else 0

/-- Parity blocks of a band taken on its parity die: as many SLC blocks as hold the pages of one data block. -/
def State.takeParity (s : State) (ch code mode : Nat) : State :=
  let d := (s.chan ch).dies.length
  if d < 2 then s
  else
    let die := code / 2 % d
    let f := s.fdie ch die
    let n := ceilDiv (blockPages f mode) (max 1 f.slcPages)
    if (s.chan ch).lost.contains die then s
    else ((s.freeOn ch die).take n).foldl (fun s k =>
      s.setBlk k { s.blk k with st := .open, mode := 3, band := code, units := [] }) s

/-- A block opened on a die, in the oldest band that lacks one there, else in a new band whose parity lies elsewhere. -/
def State.openNew (s : State) (ch die : Nat) (reloc : Bool) : Option (State × Nat) :=
  let fs := s.freeOn ch die
  match fs[s.choose (2 ^ 16 + ch * 16 + die) fs.length]? with
  | none => none
  | some k =>
    let mode := if reloc then 0 else s.hostMode
    let d := (s.chan ch).dies.length
    let mine := s.flash.blocks.filter (fun e => keyCh e.1 = ch && e.2.st = .open && e.2.data && e.2.band % 2 = b2n reloc)
    let codes := mine.foldl (fun l e => insertNat l e.2.band) []
    let fits := fun (c : Nat) => (d < 2 || c / 2 % d ≠ die) && mine.all (fun e => e.2.mode = mode || e.2.band ≠ c) &&
      s.flash.blocks.all (fun e => !(keyCh e.1 = ch && keyDie e.1 = die && e.2.data && e.2.st ≠ .free && e.2.band = c))
    let put := fun (s : State) (c : Nat) =>
      (s.setBlk k { s.blk k with st := .open, mode := mode, band := c, units := [], reads := 0, refresh := false, leaving := 0 }, k)
    match codes.find? fits with
    | some c => some (put s c)
    | none =>
      let n := (s.chan ch).nextBand
      let n := if 2 ≤ d && n % d = die then n + 1 else n
      let s := s.setChan ch { s.chan ch with nextBand := n + 1 }
      let r := put s (2 * n + b2n reloc)
      some (r.1.takeParity ch (2 * n + b2n reloc) mode, r.2)

/-- The open block of a die for host writes or for relocations, opened where there is none. -/
def State.openBlock (s : State) (ch die : Nat) (reloc : Bool) : Option (State × Nat) :=
  match s.flash.blocks.find? (fun e =>
      keyCh e.1 = ch && keyDie e.1 = die && e.2.st = .open && e.2.data && e.2.band % 2 = b2n reloc) with
  | some e => some (s, e.1)
  | none => s.openNew ch die reloc

/-- The map takes a unit that became durable at index i of block k (R394, R396). -/
def mapUnit (k : Nat) (m : Tab (Nat × Nat)) (u : FUnit) (i : Nat) : Tab (Nat × Nat) :=
  match u.kind with
  | 0 => tabSet m u.lua (k, i)
  | 1 => m.filter (fun e => !(e.1 / 512 = u.lua / 512 && e.1 / 4 % 32 = u.lua / 4 % 32))
  | _ => m

/-- Units programmed into block k; a full block is closed with its summary. -/
def State.program (s : State) (k : Nat) (us : List FUnit) : State :=
  let b := s.blk k
  let all := b.units ++ us
  let full := dataUnits (s.fdie (keyCh k) (keyDie k)) b.mode ≤ all.length
  let s := s.setBlk k { b with units := all, st := if full then .closed else b.st }
  s.countBytes pgFLS oFLS_MEDIA_WR (4096 * us.length)

/-- One word line of block k programmed from the write buffer, padded where the buffer holds less. DEDUCED (log entry 78). -/
def State.programLine (s : State) (ch die : Nat) : State :=
  match s.openBlock ch die false with
  | none => s
  | some (s, k) =>
    let b := s.blk k
    let line := lineUnits (s.fdie ch die) b.mode
    let c := s.chan ch
    let us := c.buffer.take line
    let pad := (List.range (line - us.length)).map (fun i => (⟨0, 2, s.flash.seq + i, [], false⟩ : FUnit))
    let s := s.setChan ch { c with buffer := c.buffer.drop line }
    let m := (us.zipIdx b.units.length).foldl (fun m e => mapUnit k m e.1 e.2) s.flash.map
    let s : State := { s with flash := { s.flash with seq := s.flash.seq + pad.length, map := m } }
    s.program k (us ++ pad)

/-- Whether a die holds a full word line's worth of buffered units. -/
def State.lineFull (s : State) (ch die : Nat) : Bool :=
  match s.openBlock ch die false with
  | none => false
  | some (t, k) => lineUnits (t.fdie ch die) (t.blk k).mode ≤ (s.chan ch).buffer.length

/-- WORD_LINE_PROGRAMMED (R390 to R394): the buffered units of one word line become durable. No effect while the buffer
holds less than one. -/
def execWordLineProgrammed (ch : Fin 32) (die : Fin 16) (s : State) : Host.Outcome State Fault Refusal :=
  if (s.liveDies ch.val).contains die.val && s.lineFull ch.val die.val then done (s.programLine ch.val die.val) else done s

/-- WRITE_BUFFER_TIMEOUT (R394): the oldest buffered units are programmed, with padding. -/
def execWriteBufferTimeout (ch : Fin 32) (die : Fin 16) (s : State) : Host.Outcome State Fault Refusal :=
  if (s.liveDies ch.val).contains die.val && (s.chan ch.val).buffer ≠ [] then done (s.programLine ch.val die.val) else done s

/-- Word lines programmed until a channel's buffer is empty or no block can be opened. -/
def State.drainBuffer (ch : Nat) : Nat → State → State
  | 0, s => s
  | n + 1, s =>
    if (s.chan ch).buffer = [] then s
    else
      let ds := (s.liveDies ch).filter (fun d => (s.openBlock ch d false).isSome)
      match ds[s.choose (2 ^ 17 + ch * 2 ^ 10 + n) ds.length]? with
      | none => s
      | some d => State.drainBuffer ch n (s.programLine ch d)

/-- FLUSH (R394): every buffered unit is programmed. -/
def State.flashFlush (s : State) : State :=
  (List.range 32).foldl (fun s ch => State.drainBuffer ch (s.chan ch).buffer.length s) s

/-- The largest SEQ given so far. -/
def State.lastSeq (s : State) : Nat := s.flash.seq - 1

/-- Patrol state saved: position and calendar time (R406). -/
def State.savePatrol (s : State) : State :=
  { s with flash := { s.flash with patrolSaved := (s.flash.patrolPos, s.cal.seconds) } }

/-- SHUTDOWN (R394): a flush, the patrol state, then the clean marker. -/
def State.flashShutdown (s : State) : State :=
  let s := s.flashFlush.savePatrol
  if s.flash.formatted && (List.range 32).all (fun ch => (s.chan ch).buffer = []) then
    { s with flash := { s.flash with marker := some s.lastSeq } }
  else s

/-- FORMAT (R389, R411): no effect while a non-FREE partition has a flash share. -/
def State.flashFormat (s : State) : State :=
  if partIds.any (fun p => (s.part p).nonFree && (s.part p).flsShare.2 ≠ 0) || (s.chan 0).dies = [] then s
  else
    let good := (List.range 32).flatMap s.goodBlocks
    let f := s.flash
    let bad := (List.range 32).flatMap (fun ch => ((s.chan ch).dies.zipIdx).flatMap (fun d => d.1.bad.map (fun b => blkKey ⟨ch, d.2, b⟩)))
    let s := good.foldl (fun s k => s.setBlk k { blkFree with erases := (s.blk k).erases + 1 }) s
    let s := bad.foldl (fun s k => s.setBlk k { blkFree with st := .bad }) s
    let s := (List.range 32).foldl (fun s ch => s.setChan ch { s.chan ch with buffer := [], relocs := [] }) s
    let raw := s.goodRawBytes
    let s : State := { s with flash := { s.flash with
      map := []
      lostUnits := []
      formatted := true
      marker := none
      mapState := 3
      readOnly := false
      goodRaw := raw / pageBytes
      logical := raw * 7 / 8 / pageBytes
      patrolPos := 0
      patrolElapsed := 0
      patrolDone := 0
      patrolSaved := (0, s.cal.seconds)
      lifeSeen := 0
      seq := max 1 f.seq } }
    let s : State := { s with
      flash := { s.flash with marginAtFormat := s.tierMargin.toNat }
      start := { s.start with flashDone := true } }
    (s.checkLife).raise pgFLS none 7 (s.flash.logical % 2 ^ 32) none

def execFlashFlush (s : State) : Host.Outcome State Fault Refusal := onPage s pgFLS (done s.flashFlush)
def execFlashShutdown (s : State) : Host.Outcome State Fault Refusal := onPage s pgFLS (done s.flashShutdown)
def execFlashFormat (s : State) : Host.Outcome State Fault Refusal := onPage s pgFLS (done s.flashFormat)

/-! ### Relocation (R399) -/

/-- A trim record is carried forward while any other block holds an older data record of the units it covers. -/
def State.trimNeeded (s : State) (k : Nat) (u : FUnit) : Bool :=
  s.flash.blocks.any (fun e => e.1 ≠ k && e.2.units.any (fun v =>
    v.kind = 0 && v.lua / 512 = u.lua / 512 && v.lua / 4 % 32 = u.lua / 4 % 32 && v.seq < u.seq))

/-- The units of block k that must be moved before its erase. -/
def State.toMove (s : State) (k : Nat) : List Reloc :=
  (((s.blk k).units.zipIdx).filter (fun u =>
      (s.unitLive k u.2 u.1 && !(s.flash.lostUnits.contains u.1.lua)) || (u.1.kind = 1 && s.trimNeeded k u.1))).map
    (fun u => ⟨u.1, k, u.2⟩)

/-- The live units of block k are read and start to leave it (R399, order 1). -/
def State.startLeaving (s : State) (k why : Nat) : State :=
  let ch := keyCh k
  let rs := (s.toMove k).filter (fun r => !((s.chan ch).relocs.any (fun x => x.blk = k && x.index = r.index)))
  let s := s.setBlk k { s.blk k with leaving := why, refresh := false }
  s.setChan ch { s.chan ch with relocs := (s.chan ch).relocs ++ rs }

/-- Commands that read the flash page of a unit at home now. -/
def State.homeReaders (s : State) (lua : Nat) : List CmdRef :=
  let g := (flsBase + lua * 4096) / pageBytes
  (s.cmds.filter (fun c => c.running && c.reads.contains g && ((s.page g).copyFor c.part).isNone)).map (·.ref)

/-- RELOCATION_DONE (R399, orders 2 and 3). No effect where no such relocation runs or no block takes the unit. -/
def execRelocationDone (ch : Fin 32) (lua : Nat) (s : State) : Host.Outcome State Fault Refusal :=
  let c := s.chan ch.val
  match c.relocs.find? (fun r => r.unit.lua = lua) with
  | none => done s
  | some r =>
    let ds := (s.liveDies ch.val).filter (fun d => (s.openBlock ch.val d true).isSome)
    match (ds[s.choose 1 ds.length]?).bind (fun d => s.openBlock ch.val d true) with
    | none => done s
    | some (s, k) =>
      let i := (s.blk k).units.length
      let s := (s.program k [r.unit]).countBytes pgFLS oFLS_RELOCATED 4096
      let s := s.setChan ch.val { s.chan ch.val with relocs := (s.chan ch.val).relocs.filter (fun x => x ≠ r) }
      let s : State :=
        if r.unit.kind = 0 && tabFind s.flash.map lua = some (r.blk, r.index) then
          { s with flash := { s.flash with map := tabSet s.flash.map lua (k, i) } }
        else s
      let b := s.blk r.blk
      done (s.setBlk r.blk { b with readers := b.readers ++ s.homeReaders lua })

/-- Whether block k may be erased (R399, order 4): it is being left, nothing live or on its way is in it, and no read that
started before its entries moved remains. A parity block waits for the relocations of its band. -/
def State.erasable (s : State) (k : Nat) : Bool :=
  let b := s.blk k
  b.leaving ≠ 0 && b.st ≠ .retired && b.st ≠ .free &&
    !((b.units.zipIdx).any (fun u => s.unitLive k u.2 u.1)) &&
    !((s.chan (keyCh k)).relocs.any (fun r => r.blk = k || (b.mode = 3 && (s.blk r.blk).band = b.band))) &&
    !(s.cmds.any (fun c => c.running && b.readers.contains c.ref))

/-- OLD_BLOCK_ERASE (R399, order 4; R410): the block returns to the free pool. -/
def execOldBlockErase (blk : BlockId) (s : State) : Host.Outcome State Fault Refusal :=
  let k := blkKey blk
  if s.erasable k then done ((s.setBlk k { blkFree with erases := (s.blk k).erases + 1 }).checkLife)
  else done s

/-! ### Background work (R401 to R406) -/

/-- The best block of a channel under an order. -/
def State.bestBlock (s : State) (ch : Nat) (ok : Nat → Blk → Bool) (lt : Nat × Blk → Nat × Blk → Bool) : Option Nat :=
  ((s.flash.blocks.filter (fun e => keyCh e.1 = ch && ok e.1 e.2)).foldl (fun (r : Option (Nat × Blk)) e => match r with
    | none => some e
    | some x => if lt e x then some e else r) none).map (·.1)

/-- Live units of a block. -/
def State.liveCount (s : State) (k : Nat) : Nat :=
  (((s.blk k).units.zipIdx).filter (fun u => s.unitLive k u.2 u.1)).length

/-- Background work runs: the map is ready (R398). -/
def State.flashReady (s : State) : Bool := s.flash.mapState = 3

/-- RECLAIM (R403): below 2 % free, the closed TLC block with the fewest live units, lowest erase count among equals. -/
def execReclaim (ch : Fin 32) (s : State) : Host.Outcome State Fault Refusal :=
  let c := ch.val
  if s.flashReady && 50 * (s.freeBlocks c).length < (s.goodBlocks c).length then
    match s.bestBlock c (fun _ b => b.st = .closed && b.mode = 0 && b.leaving = 0)
      (fun x y => s.liveCount x.1 < s.liveCount y.1 || (s.liveCount x.1 = s.liveCount y.1 && x.2.erases < y.2.erases)) with
    | some k => done (s.startLeaving k 1)
    | none => done s
  else done s

/-- WEAR_LEVEL (R404): one block at a time on a channel. -/
def execWearLevel (ch : Fin 32) (s : State) : Host.Outcome State Fault Refusal :=
  let c := ch.val
  let es := (s.goodBlocks c).map (fun k => (s.blk k).erases)
  let spread := max 16 (s.field pgFLS oFLS_WL_CFG 11 0)
  let lo := es.foldl min (es.headD 0)
  let hi := es.foldl max 0
  let busy := s.flash.blocks.any (fun e => keyCh e.1 = c && e.2.leaving = 2)
  if s.flashReady && lo + spread < hi && !busy then
    match s.bestBlock c (fun _ b => b.st = .closed && b.data && b.leaving = 0 && b.erases = lo) (fun _ _ => false) with
    | some k => done (s.startLeaving k 2)
    | none => done s
  else done s

/-- FOLD (R402): the SLC block with the oldest data, while SLC data is at or above the target. -/
def execFold (ch : Fin 32) (s : State) : Host.Outcome State Fault Refusal :=
  let first := fun (b : Blk) => match b.units.head? with | some u => u.seq | none => 0
  if s.flashReady && s.slcTarget ≤ s.slcHeld * 4096 then
    match s.bestBlock ch.val (fun _ b => b.st = .closed && b.mode = 1 && b.leaving = 0) (fun x y => first x.2 < first y.2) with
    | some k => done (s.startLeaving k 3)
    | none => done s
  else done s

/-- REFRESH (R405): the live units of the first block queued for refresh leave it. -/
def execRefresh (ch : Fin 32) (s : State) : Host.Outcome State Fault Refusal :=
  match s.bestBlock ch.val (fun _ b => b.st = .closed && b.refresh && b.leaving = 0) (fun _ _ => false) with
  | some k => if s.flashReady then done ((s.startLeaving k 4).count pgFLS oFLS_REFRESHES 1) else done s
  | none => done s

/-! ### Retirement (R401, R408) -/

/-- A block retired in service and recorded (R408, R483, R487). -/
def State.retireBlk (s : State) (k : Nat) : State :=
  let s := s.setBlk k { s.blk k with st := .retired }
  let c := s.chan (keyCh k)
  let s := s.setChan (keyCh k) { c with retired := c.retired + 1 }
  match s.addHist (s.histOf 8 false pgFLS k) with
  | some t => (t.repairEvent 8 pgFLS k).checkLife
  | none => s.checkLife

/-- The parity blocks of a band are released for erase. -/
def State.releaseParity (s : State) (ch band : Nat) : State :=
  { s with flash := { s.flash with blocks := s.flash.blocks.map (fun e =>
    if keyCh e.1 = ch && e.2.mode = 3 && e.2.band = band then (e.1, { e.2 with leaving := 5 }) else e) } }

/-- Whether the parity of a band still stands. -/
def State.parityStands (s : State) (ch band : Nat) : Bool :=
  s.flash.blocks.any (fun e => keyCh e.1 = ch && e.2.mode = 3 && e.2.band = band && e.2.leaving = 0 && e.2.st = .open)

/-- READ_VERIFY (R401): every block of the band has closed and has been read once; `failed` are those with a page that needed
a read retry. -/
def execReadVerify (ch : Fin 32) (band : Nat) (failed : List BlockId) (s : State) : Host.Outcome State Fault Refusal :=
  let mine := (s.flash.blocks.filter (fun e => keyCh e.1 = ch.val && e.2.data && e.2.band = band && e.2.st ≠ .free)).map (·.1)
  if mine = [] || mine.any (fun k => (s.blk k).st = .open) || !(s.parityStands ch.val band) then done s
  else
    let bad := mine.filter (fun k => failed.any (fun b => blkKey b = k))
    if bad = [] then done (s.releaseParity ch.val band)
    else
      let s := mine.foldl (fun s k => s.startLeaving k 5) s
      let s := bad.foldl (fun s k => s.retireBlk k) s
      done (s.releaseParity ch.val band)

/-- PROGRAM_FAILURE (R408): the block is retired; its units, from the buffer or the parity, are programmed elsewhere. -/
def execProgramFailure (blk : BlockId) (s : State) : Host.Outcome State Fault Refusal :=
  let k := blkKey blk
  if (s.blk k).st = .open then
    let n := ceilDiv (s.blk k).units.length 4
    let parity := (s.blk k).data && s.parityStands blk.ch (s.blk k).band
    let s := (s.startLeaving k 5).retireBlk k
    done (if parity then s.count pgFLS oFLS_PARITY_RECOV n else s)
  else done s

/-- ERASE_FAILURE (R408): a block ready for erase is retired instead. -/
def execEraseFailure (blk : BlockId) (s : State) : Host.Outcome State Fault Refusal :=
  let k := blkKey blk
  if s.erasable k then done ((s.setBlk k { s.blk k with units := [], leaving := 0 }).retireBlk k) else done s

/-- A unit marked lost: its map entry goes, and it reads as DATA_ERROR until written whole or trimmed. -/
def State.loseUnit (s : State) (lua : Nat) : State :=
  ({ s with flash := { s.flash with lostUnits := insertNat s.flash.lostUnits lua, map := tabDrop s.flash.map lua } }).count
    pgFLS oFLS_LOST_UNITS 1

/-- UNIT_LOST (R408): a closed-block read fails after every retry. -/
def execUnitLost (lua : Nat) (s : State) : Host.Outcome State Fault Refusal :=
  match tabFind s.flash.map lua with
  | none => done s
  | some (k, _) =>
    if (s.blk k).st = .closed then
      let rs := s.homeReaders lua
      let s := (s.loseUnit lua).flagEvent pgFLS 4 3 lua none
      let s := (s.startLeaving k 5).retireBlk k
      done (s.endWhere (fun c => rs.contains c.ref) stDATA_ERROR 0)
    else done s

/-- DIE_LOST (R408): units whose band's parity still stands are rebuilt and move elsewhere; the others are lost. -/
def execDieLost (ch : Fin 32) (die : Fin 16) (s : State) : Host.Outcome State Fault Refusal :=
  let c := s.chan ch.val
  if !((s.liveDies ch.val).contains die.val) then done s
  else
    let ks := (s.flash.blocks.filter (fun e => keyCh e.1 = ch.val && keyDie e.1 = die.val && e.2.st ≠ .free)).map (·.1)
    let s := s.setChan ch.val { c with lost := insertNat c.lost die.val }
    let s := ks.foldl (fun s k =>
      let b := s.blk k
      if !b.data then s.setBlk k { b with st := .retired }
      else if s.parityStands ch.val b.band then
        ((s.startLeaving k 5).count pgFLS oFLS_PARITY_RECOV (ceilDiv b.units.length 4)).setBlk k
          { b with st := .retired, leaving := 5 }
      else
        let lost := ((b.units.zipIdx).filter (fun u => s.unitLive k u.2 u.1)).map (fun u => u.1.lua)
        (lost.foldl (fun s l => s.loseUnit l) s).setBlk k { b with st := .retired }) s
    done ((s.flagEvent pgFLS 5 4 (ch.val + die.val * 2 ^ 8) none).checkLife)

/-! ### Patrol (R405, R406) -/

/-- Closed data blocks in block order, with their programmed pages. -/
def State.patrolPages (s : State) : List (Nat × Nat) :=
  (s.flash.blocks.filter (fun e => e.2.st = .closed && e.2.data)).map (fun e => (e.1, ceilDiv e.2.units.length 4))

/-- The block of the n-th page of the patrol. -/
def patrolAt : List (Nat × Nat) → Nat → Option Nat
  | [], _ => none
  | (k, n) :: t, i => if i < n then some k else patrolAt t (i - n)

/-- The patrol's period in seconds. -/
def State.patrolPeriod (s : State) : Nat := min 90 (max 1 (s.field pgFLS oFLS_PATROL_CFG 6 0)) * 86400

def State.readLimit (s : State) : Nat := max 1 (s.field pgFLS oFLS_PATROL_CFG 31 16) * 1024

/-- Pages of a patrol pass. -/
def State.patrolTotal (s : State) : Nat := (s.patrolPages.map (·.2)).sum

/-- The patrol is behind its pace. -/
def State.patrolBehind (s : State) : Bool :=
  s.flash.patrolPos * s.patrolPeriod < min s.flash.patrolElapsed s.patrolPeriod * s.patrolTotal

/-- PATROL_STEP (R405, R406): the next programmed page is read; its block is queued for refresh when needed. -/
def execPatrolStep (sample : PatrolSample) (s : State) : Host.Outcome State Fault Refusal :=
  if !s.flashReady then done s
  else
    let el := s.flash.patrolElapsed + sample.seconds
    let excess := s.patrolTotal ≤ s.flash.patrolPos && s.patrolPeriod ≤ el
    let pos := if excess then 0 else s.flash.patrolPos
    let el := if excess then el - s.patrolPeriod else el
    let s : State := { s with flash := { s.flash with patrolPos := pos, patrolElapsed := el } }
    match patrolAt s.patrolPages pos with
    | none => done s
    | some k =>
      let b := s.blk k
      let n := b.reads + 1
      let need := sample.retry || sample.high || s.readLimit < n
      let s := s.setBlk k { b with reads := n, refresh := b.refresh || need }
      let steps := s.flash.patrolDone + 1
      let s : State := { s with flash := { s.flash with patrolPos := pos + 1, patrolDone := steps } }
      done (if steps % 100 = 0 then s.savePatrol else s)

/-! ### Bring-up (R389, R395, R396) -/

/-- Channels whose population breaks R388. -/
def badChannels (dies : List (List FlashDie)) : List Nat :=
  let first := nth [] dies 0
  let kind := match first.head? with | some d => d.kind | none => 0
  (List.range 32).filter (fun c =>
    let l := nth [] dies c
    !(1 ≤ l.length && l.length ≤ 16 && l.length = first.length &&
      l.all (fun d => d.supported && d.kind = kind && (d.planes = 2 || d.planes = 4))))

/-- Parameter pages read and channels trained: with a good population the map loads, or is rebuilt where no clean marker
stands; a broken population or an unformatted tier leaves MAP at 0 (R389, R395, R406). -/
def State.flashTrained (s : State) (dies : List (List FlashDie)) : State :=
  let bad := badChannels dies
  if bad ≠ [] then
    let s : State := { s with
      flash := { s.flash with mapState := 0 }
      start := { s.start with flashDone := true } }
    let s := (List.range 32).foldl (fun s c => s.setChan c { s.chan c with dies := [] }) s
    s.flagEvent pgFLS 2 2 ((bad.map (fun c => 2 ^ c)).sum) none
  else
    let s := (List.range 32).foldl (fun s c => s.setChan c { s.chan c with dies := nth [] dies c, lost := [] }) s
    if !s.flash.formatted then
      { s with
        flash := { s.flash with mapState := 0 }
        start := { s.start with flashDone := true } }
    else
      let f := s.flash
      let at_ := f.patrolSaved.1 * s.patrolPeriod / max 1 s.patrolTotal
      let el := if s.cal.valid then at_ + (s.cal.seconds - f.patrolSaved.2) else s.patrolPeriod
      { s with flash := { f with
        mapState := if f.marker.isSome then 1 else 2
        patrolPos := f.patrolSaved.1
        patrolElapsed := el } }

/-- The rebuilt map (R396): for each LUA the record with the greatest SEQ, data or trim. -/
def rebuildMap (blocks : Tab Blk) : Tab (Nat × Nat) × Nat :=
  let recs := (blocks.filter (fun e => e.2.data && e.2.st ≠ .free)).flatMap (fun e =>
    (e.2.units.zipIdx).map (fun u => (u.1.seq, u.1, e.1, u.2)))
  let best := recs.foldl (fun (t : Tab (Nat × Nat × Nat)) r =>
    if r.2.1.kind = 0 then
      match tabFind t r.2.1.lua with
      | some b => if b.1 < r.1 then tabSet t r.2.1.lua (r.1, r.2.2) else t
      | none => tabSet t r.2.1.lua (r.1, r.2.2)
    else t) []
  let trims := recs.filter (fun r => r.2.1.kind = 1)
  let live := best.filter (fun e => !(trims.any (fun r =>
    e.1 / 512 = r.2.1.lua / 512 && e.1 / 4 % 32 = r.2.1.lua / 4 % 32 && e.2.1 < r.1)))
  (live.map (fun e => (e.1, e.2.2)), (recs.map (·.1)).foldl max 0)

/-- The map is rebuilt (R395, R396, R397, R413). DEDUCED (log entry 78). -/
def State.mapRebuilt (s : State) (seconds : Nat) : State :=
  let r := rebuildMap s.flash.blocks
  let s : State := { s with
    flash := { s.flash with map := r.1.filter (fun e => !(s.flash.lostUnits.contains e.1)), seq := 1 + r.2, mapState := 3, rebuildS := seconds }
    start := { s.start with flashDone := true } }
  s.flagEvent pgFLS 3 1 (seconds % 2 ^ 32 + r.2 % 2 ^ 32 * 2 ^ 32) none

/-- The map is loaded from the map blocks (R395). -/
def State.mapLoaded (s : State) : State :=
  { s with
    flash := { s.flash with mapState := 3 }
    start := { s.start with flashDone := true } }

end Sys2Proof.Machine
end

