-- ==== Sys2Proof/Machine/Work.lean ====
section
/-! DEFINITION. What a command of each opcode writes when all its work is done (R151, order 1): the reader of each of its units, the
bytes, the counts of its completion and of its engines' pages (R583), and the events of an access or data error (R497). -/

namespace Sys2Proof.Machine

/-! ### Units and engines -/

/-- What a command computes with. An uncorrectable error in a KV page reads as undefined: it ends its request alone (R318). -/
def State.runOf (s : State) (c : Cmd) : Run :=
  let pools : List (Nat × Nat) := if c.opcode = opATTEND && (attOf c.body).paged then
      [(s.hbmPool c.part, s.hbmPoolFrames c.part * s.frameBytes c.part), (s.ddrPool c.part, s.ddrPoolFrames c.part * s.frameBytes c.part)]
    else []
  let rd := fun (r a n : Nat) => match s.unitReader c.part c.opcode (some c.ref) (s.unitDie c r) a n with
    | .error (.data e) => if pools.any (fun x => within e 1 x.1 x.2) then .ok ((List.range n).map (fun i => s.undefByte (a + i))) else .error (.data e)
    | x => x
  ⟨rd, rd, c.hdr.seed, hRnd c.hdr, if hArrival c.hdr then some s.freeCtr else none, hFlush c.hdr⟩

/-- The page and the master ID of an engine that serves a command (R492, R583); cores serve by their own masters. -/
def State.engineOf (s : State) (c : Cmd) : Nat × Nat :=
  let ds := s.diesOf c.part
  let dies := if ds = [] then [0, 1, 2, 3] else ds
  let pick := fun (per base : Nat) =>
    let l := dies.flatMap (fun q => (List.range per).map (fun i => per * q + i))
    base + nth 0 l (s.choose 0xE0 l.length)
  if c.opcode = opGATHER || c.opcode = opSCATTER then let i := pick 8 0; (pgLDL i, 0x100 + i)
  else if c.opcode = opSEARCH || c.opcode = opMERGE then let i := pick 4 0; (pgSKM i, 0x120 + i)
  else if c.opcode = opSELECT then let i := pick 4 0; (pgSIV i, 0x130 + i)
  else if c.opcode = opTOKENIZE || c.opcode = opPACK then let i := s.choose 0xE1 8; (pgMDL i, 0x150 + i)
  else if c.opcode = opDETOKENIZE then let i := s.choose 0xE2 8; (pgSTN i, 0x158 + i)
  else if c.opcode = opSTEP then (pgSTP c.part, 0x172)
  else if c.opcode = opMIGRATE then (pgTNG, 0x170)
  else if c.opcode = opCOPY || c.opcode = opCOLLECT || c.opcode = opSEMOP then (pgFABRIC, 0x182)
  else let l := s.coreSet c.part; (pgGRD (nth 0 l (s.choose 0xE3 l.length)), nth 0 l (s.choose 0xE3 l.length))

/-- The largest stockpot share of partition p on a die that serves it. -/
def State.potShare (s : State) (p : Nat) : Nat := (s.diesOf p).foldl (fun m q => max m ((s.part p).stk q).2) 0

/-! ### Errors met in execution (R158, R208, R241, R262, R294, R497) -/

/-- The target code of an address in FAULT_FIRST. DEDUCED (log entry 43). -/
def targetOf (a : Nat) : Nat :=
  match zoneOf a with
  | .rawHbm | .rawDdr => 1
  | .localPot | .pot _ => 2
  | .regs => 6
  | _ => 0

/-- Arrays of an index image that hold something for each node: base, bytes of each, and how many. -/
def Image.perNode (g : Image) : List (Nat × Nat × Nat) :=
  [(g.code, g.codeStride, g.nodes), (g.tomb, 4, g.nodes)] ++ (if g.metric = 0 then [] else [(g.aux, 4, g.nodes)])
    ++ (if g.isGraph then [(g.graph, g.nodeBytes, g.nodes)] else []) ++ (if g.label = 0 then [] else [(g.label, 8, g.nodes)])
    ++ (List.range g.attrs).map (fun i => (g.attr i, 4, g.nodes)) ++ (if g.refines then [(g.refine, g.refineStride, g.nodes)] else [])

/-- The node to which address a of an image belongs, if it lies in the image: a side entry stands after the nodes; the header and the entry
list belong to node 0. DEDUCED (log entry 63). -/
def Image.nodeAt (g : Image) (ix : IndexDesc) (a : Nat) : Option Nat :=
  match g.perNode.find? (fun e => within a 1 e.1 (e.2.1 * e.2.2)) with
  | some e => some ((a - e.1) / e.2.1)
  | none =>
    if within a 1 g.sideBase (g.sideStride * ix.side) then some (g.nodes + (a - g.sideBase) / g.sideStride)
    else if g.refines && within a 1 g.sideRefine (g.refineStride * ix.side) then some (g.nodes + (a - g.sideRefine) / g.refineStride)
    else if within a 1 ix.image 256 || (g.isGraph && within a 1 g.entry (4 * g.entries)) then some 0
    else none

/-- The table row to which address a belongs: in its tier, or as a hot copy on a die. -/
def State.rowAt (s : State) (p : Nat) (t : TableDesc) (a : Nat) : Option Nat :=
  if within a 1 t.base (t.rows * t.rowBytes) then some ((a - t.base) / t.rowBytes)
  else (s.diesOf p).findSome? (fun q =>
    let share := potBase + q * potStep + ((s.part p).stk q).1
    if within a 1 (share + t.hotRows) (t.hotCount * t.rowBytes) then
      some (s.readN p (share + t.hotDir + 8 * ((a - share - t.hotRows) / t.rowBytes)) 8)
    else none)

/-- FAULT on the page of the engine that served a command, where an access fault at address a is one that the page tells of (R208, R241,
R262, R294). -/
def State.noteFault (s : State) (c : Cmd) (a : Nat) : State :=
  let (page, master) := s.engineOf c
  let slot := fld c.body 0 2
  let atSlot := c.slotPtr ≠ 0 && within a 1 c.slotPtr 128
  if c.opcode = opGATHER || c.opcode = opSCATTER then
    match (s.rowAt c.part (s.tableFor c) a).or (if atSlot then some 0 else none) with
    | some r => s.flagEvent page 2 3 (slot % 2 ^ 12 + master * 2 ^ 16 + r % 2 ^ 32 * 2 ^ 32) c.evTag
    | none => s
  else if c.opcode = opSEARCH || c.opcode = opMERGE then
    let (ix, g) := s.imageFor c
    match (g.nodeAt ix a).or (if atSlot then some 0 else none) with
    | some n => s.flagEvent page 2 2 (slot % 2 ^ 8 + master * 2 ^ 16 + n % 2 ^ 32 * 2 ^ 32) c.evTag
    | none => s
  else if c.opcode = opSELECT then
    let d := selOf c.body
    let list := match d.opt (s.unitReader c.part c.opcode (some c.ref) none) with | .ok o => o.list | .error _ => false
    s.flagEvent page 2 1 (master * 2 ^ 16 + ((d.outRow list a).getD (d.failRow (s.runOf c) (s.potShare c.part))) % 2 ^ 32 * 2 ^ 32) c.evTag
  else if c.opcode = opTOKENIZE || c.opcode = opDETOKENIZE then
    let own := (s.regions c.part c.opcode c.body c.slotPtr ++ infoRegion c.opcode c.hdr.info.toNat).any (fun r => within a 1 r.addr r.len)
    let stream := fld c.body 2 2
    if own then s
    else s.flagEvent page 2 1 (slot % 2 ^ 10 + master * 2 ^ 16 + (if stream = 0xFFFF then 0xFFFFFFFF else stream) * 2 ^ 32) c.evTag
  else s

/-- UE likewise, where an uncorrected error at address a was met by a read. -/
def State.noteUe (s : State) (c : Cmd) (a : Nat) : State :=
  let page := (s.engineOf c).1
  let slot := fld c.body 0 2
  let unit := a / 64 % 2 ^ 48 * 2 ^ 16
  if c.outs.any (fun r => within a 1 r.1 r.2) then s
  else if c.opcode = opGATHER || c.opcode = opSCATTER then
    match s.rowAt c.part (s.tableFor c) a with
    | some r => s.flagEvent page 1 4 (slot % 2 ^ 12 + r % 2 ^ 40 * 2 ^ 24) c.evTag
    | none => s
  else if c.opcode = opSEARCH || c.opcode = opMERGE then
    let (ix, g) := s.imageFor c
    if (g.nodeAt ix a).isSome then s.flagEvent page 1 3 (slot % 2 ^ 8 + unit) c.evTag else s
  else if c.opcode = opSELECT then s.flagEvent page 1 2 unit c.evTag
  else if c.opcode = opTOKENIZE || c.opcode = opPACK || c.opcode = opDETOKENIZE then s.flagEvent page 1 3 unit c.evTag
  else s

/-- A command ends because it cannot read or write memory, or because of what it read: the access-fault record and its engine's page tell
of it. DETAIL is the low 8 bits of `detail`, the address above them. -/
def State.failCmd (s : State) (c : Cmd) (status detail : Nat) : State :=
  let a := detail / 256
  let s :=
    if status = stACCESS_FAULT then (s.accessFault (targetOf a) c.part (s.engineOf c).2 a c.evTag).noteFault c a
    else if status = stDATA_ERROR then s.noteUe c a
    else s
  s.endCmd c status (detail % 256)

/-- Opcodes whose home chapters end them with DATA_ERROR for an uncorrectable error in any read (R206, R241, R262, R290, R318); a poisoned
stockpot word kills every other command that reads it (R153, R478). DEDUCED (log entry 54). -/
def endsOnPoison (op : Nat) : Bool :=
  op = opGATHER || op = opSCATTER || op = opSEARCH || op = opMERGE || op = opSELECT || op = opTOKENIZE || op = opPACK || op = opDETOKENIZE
    || op = opSTEP

/-- A command cannot read its inputs: it ends, or it is killed and re-run where the error lies in a stockpot (R153, R158, R478). DEDUCED (log entry 54). -/
def State.readFailed (s : State) (c : Cmd) (status detail : Nat) : State :=
  if status = stDATA_ERROR && targetOf (detail / 256) = 2 && !(endsOnPoison c.opcode) then s.killCmd { c with phase := .issued } causeError
  else s.failCmd c status detail

/-! ### Outputs -/

/-- A piece written by the unit of its row. -/
def State.writePieceOf (s : State) (c : Cmd) (k : Piece) : Except MemErr State :=
  if s.mayAccess c.part c.opcode true k.addr k.bytes.length then s.writeFor c.part (s.unitDie c k.row) k.addr k.bytes
  else .error (.access k.addr)

/-- Pieces written in order; the first that cannot be written ends them. -/
def State.writePieces : State → Cmd → List Piece → Except MemErr State
  | s, _, [] => .ok s
  | s, c, k :: t => match s.writePieceOf c k with
    | .error e => .error e
    | .ok s => State.writePieces s c t

/-- Where the hot set of a position's unit lies (R194, R195); none where the die's ladles ignore hot sets (R470). -/
def State.hotAt (s : State) (c : Cmd) (slot : Nat) : HotAt := fun pos =>
  match s.unitDie c pos with
  | some q => if (s.table slot).ignoreHot.contains q then none else some (potBase + q * potStep + ((s.part c.part).stk q).1)
  | none => none

/-- What a PAGED ATTEND needs; without a model nothing is paged. -/
def State.pagingOf (s : State) (c : Cmd) : Paging :=
  match s.modelOfRec c with
  | some m => s.paging c.part m c.ref.seq
  | none => ⟨64, 0#32, 0, 0, 0, []⟩

/-! ### Collectives (R446, R447) -/

/-- The place of rank r's block among the others' in the staging of rank j. -/
def stagePlace (r j : Nat) : Nat := if r < j then r + 1 else r

/-- A node buffer's node: level, index, CTOTAL, and rows of FP32 words. -/
structure NodeBuf where
  level : Nat
  index : Nat
  ctotal : Nat
  vals : List Word
  deriving DecidableEq, Repr

/-- The node buffers that bytes hold, each of n words. -/
def nodeBufs (n : Nat) : Nat → List Byte → List NodeBuf
  | 0, _ => []
  | fuel + 1, bs =>
    if bs.length < 16 + 4 * n then []
    else ⟨fld bs 4 2, fld bs 8 4, fld bs 0 4, (List.range n).map (fun i => BitVec.ofNat 32 (fld bs (16 + 4 * i) 4))⟩
      :: nodeBufs n fuel (bs.drop (16 + 4 * n))

/-- The value of a tree node from the nodes given (R35): its own buffer, or the sum of its children. -/
def nodeVal (ns : List NodeBuf) (ctotal : Nat) : Nat → Nat → Option (List Word)
  | 0, i => (ns.find? (fun n => n.level = 0 && n.index = i)).map (·.vals)
  | l + 1, i =>
    match ns.find? (fun n => n.level = l + 1 && n.index = i) with
    | some n => some n.vals
    | none =>
      match nodeVal ns ctotal l (2 * i) with
      | none => none
      | some a =>
        if (2 * i + 1) * 2 ^ l < ctotal then
          match nodeVal ns ctotal l (2 * i + 1) with
          | none => none
          | some b => some ((a.zip b).map (fun x => f32Add x.1 x.2))
        else some a

/-- Chunks of a node. -/
def NodeBuf.span (n : NodeBuf) : Nat × Nat := nodeSpan n.ctotal (n.level, n.index)

/-- The full sum of the nodes given, or the status and DETAIL of R447. -/
def combineNodes (ns : List NodeBuf) : Except (Nat × Nat) (List Word) :=
  match ns with
  | [] => .error (stBAD_DESCRIPTOR, 0x31)
  | n :: _ =>
    let t := n.ctotal
    if ns.any (fun m => m.ctotal ≠ t) then .error (stREDUCTION_TAG, 0)
    else
      let spans := ns.map NodeBuf.span
      let clash := spans.zipIdx.any (fun a => spans.zipIdx.any (fun b => a.2 < b.2 && overlaps a.1 b.1))
      if clash || (spans.map (fun a => a.2 - a.1)).sum ≠ t then .error (stBAD_DESCRIPTOR, 0x31)
      else match nodeVal ns t (Nat.log2 t + 1) 0 with
        | some v => .ok v
        | none => .error (stBAD_DESCRIPTOR, 0x31)

/-- What a COLLECT writes at this device once every rank's data is whole. -/
def State.collectWork (s : State) (x : Run) (c : Cmd) : Except (Nat × Nat) Out :=
  let d := collOf c.body
  let k := tabGet commNone s.net.comms d.comm
  let r := k.rank
  let put := fun (ps : List Piece) => (⟨ps, 0, 0, [], []⟩ : Out)
  let rd := x.rdOf 0
  match d.kind with
  | 0 => match orFail (rd d.src d.bytes) with
    | .error e => .error e
    | .ok b => .ok (put [⟨0, d.dst + r * d.bytes, b⟩])
  | 1 =>
    let f := fmtD d.fmt
    let n := d.bytes * 8 / f.bits
    match orFail (mapE (fun j => rd (if j = r then d.src + r * d.bytes else d.dst + stagePlace j r * d.bytes) d.bytes) (List.range k.members)) with
    | .error e => .error e
    | .ok bs =>
      let codes := (List.range n).map (fun i =>
        f.encode (rndOf x.rnd x.seed i 0) (f32 (treeWords (bs.map (fun b => toF32 (f.decode (f.codeAt b i)))))))
      .ok (put [⟨0, d.dst, f.pack codes⟩])
  | 2 => match orFail (rd d.splits (8 * k.members)) with
    | .error e => .error e
    | .ok cs =>
      let cnt := fun (j : Nat) => fld cs (8 * j) 8
      match orFail (rd (d.src + ((List.range r).map cnt).sum) (cnt r)) with
      | .error e => .error e
      | .ok b => .ok (put [⟨0, d.dst + r * d.bytes, b⟩, ⟨0, d.dst + k.members * d.bytes + 8 * r, leBytes 8 (cnt r)⟩])
  | _ =>
    let rows := ceilDiv d.rows (max 1 k.members)
    let lo := rows * r
    let mine := min rows (d.rows - lo)
    let got := fun (j : Nat) => match (s.net.colls.find? (fun e => e.cmd = c.ref)) with
      | some e => match e.arrived.find? (fun i => i.1 % 0x8000 = j) with | some i => i.2 | none => 0
      | none => 0
    match orFail (rd d.src d.bytes),
        orFail (mapE (fun j => if j = r then .ok [] else rd (d.dst + stagePlace j r * d.bytes) (got j)) (List.range k.members)) with
    | .error e, _ => .error e
    | _, .error e => .error e
    | .ok own, .ok others =>
      let full := nodeBufs (d.rows * d.cols) (own.length + 1) own
      let part := full.map (fun n => { n with vals := (n.vals.drop (lo * d.cols)).take (mine * d.cols) })
      match combineNodes (part ++ others.flatMap (fun b => nodeBufs (mine * d.cols) (b.length + 1) b)) with
      | .error e => .error e
      | .ok v => .ok (put [⟨0, d.dst, v.flatMap (fun w => leBytes 4 w.toNat)⟩])

/-! ### The work of an opcode -/

/-- The index descriptor that a command captured, with the header of its image (R212). -/
def Cmd.readImage (c : Cmd) (x : Run) : Except (Nat × Nat) (IndexDesc × Image) :=
  match x.chk 0 (indexOf c.desc).image 256 with
  | .error e => .error (memFail e)
  | .ok h => .ok (indexOf c.desc, imageOf h)

/-- What a command writes, and the text it emits. SCATTER_ADD writes its rows at commit order 2 (R152), COPY to another device and
SEMOP write nothing here. DEDUCED (log entry 49). -/
def State.work (s : State) (c : Cmd) : Except (Nat × Nat) (Out × List Byte) :=
  let x := s.runOf c
  let plain := fun (o : Out) => (o, ([] : List Byte))
  let mem := fun (l : Except MemErr (List Piece × Nat × Nat)) => match l with
    | .error e => Except.error (memFail e)
    | .ok (ps, n, nans) => .ok (plain ⟨ps, n, if n = 0 then 0 else 64, [], [nans]⟩)
  let out := fun (r : Except (Nat × Nat) Out) => r.map plain
  if c.opcode = opPRODUCT then mem (productWork x c.body)
  else if c.opcode = opATTEND then mem (attendWork x (s.pagingOf c) c.body)
  else if c.opcode = opGATHER then
    let d := gatherOf c.body
    let t := tableOf c.desc
    out (if t.kind = 1 then gatherExpert x d t c.slotVersion else gatherData x d t (s.hotAt c d.slot) c.slotVersion)
  else if c.opcode = opSEARCH then
    match c.readImage x with
    | .error e => .error e
    | .ok (ix, g) => out (searchWork x (searchOf c.body) g ix c.slotVersion)
  else if c.opcode = opSELECT then out (selectWork x (selOf c.body) (s.potShare c.part))
  else if c.opcode = opTOKENIZE then
    let d := tokenizeOf c.body
    out (tokenizeWork x d (c.body.drop 40) c.slotPtr c.slotVersion (s.tokEntry c.part d.stream))
  else if c.opcode = opDETOKENIZE then
    let d := detokOf c.body
    detokWork x d c.slotPtr c.slotVersion (s.strainEntry c.part d.stream)
  else if c.opcode = opPACK then out (packWork x (packOf c.body))
  else if c.opcode = opCOPY then
    let d := copyOf c.body
    if d.dev ≠ 0xFFFF then .ok (plain ⟨[], 0, 0, [], []⟩)
    else match x.rdOf 0 d.src d.bytes with
      | .error e => .error (memFail e)
      | .ok b => .ok (plain ⟨[⟨0, d.dst, b⟩], 0, 0, [], []⟩)
  else if c.opcode = opCOLLECT then out (s.collectWork x c)
  else if c.opcode = opMERGE then
    match c.readImage x with
    | .error e => .error e
    | .ok (ix, g) => out (mergeWork x (mergeOf c.body) g ix c.slotVersion)
  else .ok (plain ⟨[], 0, 0, [], []⟩)

/-! ### Counters of the engines' pages (R207, R240, R261, R292, R293, R583) -/

/-- A count split among pages in an open way: free parts of what is left, the last page taking the rest (R583). DEDUCED (log entry 85). -/
def State.splitCount (off : Nat) : Nat → Nat → List Nat → State → State
  | _, _, [], s => s
  | n, _, [g], s => if n = 0 then s else s.count g off n
  | n, salt, g :: rest, s =>
    let x := s.choose (2 ^ 20 + off * 64 + salt) (n + 1)
    State.splitCount off (n - x) (salt + 1) rest (if x = 0 then s else s.count g off x)

/-- Pages of the engines that may serve a part of a command, so many of them on each die. -/
def State.diePages (s : State) (p per : Nat) (page : Nat → Nat) : List Nat :=
  (if s.diesOf p = [] then [0, 1, 2, 3] else s.diesOf p).flatMap (fun q => (List.range per).map (fun i => page (per * q + i)))

/-- Pages of the engines of its kind that may serve a part of a command. DEDUCED (log entry 85). -/
def State.enginePages (s : State) (c : Cmd) : List Nat :=
  if c.opcode = opGATHER || c.opcode = opSCATTER then s.diePages c.part 8 pgLDL
  else if c.opcode = opSEARCH || c.opcode = opMERGE then s.diePages c.part 4 pgSKM
  else if c.opcode = opSELECT then s.diePages c.part 4 pgSIV
  else if c.opcode = opTOKENIZE then (List.range 8).map pgMDL
  else if c.opcode = opDETOKENIZE then (List.range 8).map pgSTN
  else if coreWork c.opcode then (s.coreSet c.part).map pgWSK
  else []

/-- The counts of a command added on the pages of the engines that served it. How many candidate sets the sieves order for a SEARCH
is open. -/
def State.countWork (s : State) (c : Cmd) (st : List Nat) : State :=
  let add := fun (s : State) (l : List (Nat × Nat)) => l.foldl (fun s e => State.splitCount e.1 (nth 0 st e.2) 0 (s.enginePages c) s) s
  if c.opcode = opPRODUCT || c.opcode = opATTEND then add s [(oWSK_WSK_NAN, 0)]
  else if c.opcode = opGATHER then
    add s [(oLDL_ROWS_READ, 0), (oLDL_HOT_HITS, 1), (oLDL_COALESCED, 2), (oLDL_INVALID, 3), (oLDL_MISSING, 4)]
  else if c.opcode = opSCATTER then add s [(oLDL_ROWS_READ, 0), (oLDL_COALESCED, 2), (oLDL_INVALID, 3), (oLDL_MISSING, 4)]
  else if c.opcode = opSEARCH then
    let s := (s.diePages c.part 4 pgSIV).foldl (fun s g => s.count g oSIV_SKM_SETS (s.choose (2 ^ 21 + g) (2 ^ 32))) s
    add s [(oSKM_QUERIES, 0), (oSKM_EXPANSIONS, 2), (oSKM_KEYS, 1), (oSKM_DOUBLINGS, 3), (oSKM_FILTER_SHORT, 11), (oSKM_NAN_KEYS, 6),
      (oSKM_VISIT_FULL, 8), (oSKM_REFINE_READS, 9)]
  else if c.opcode = opMERGE then
    add s [(oSKM_EXPANSIONS, 2), (oSKM_KEYS, 1), (oSKM_NAN_KEYS, 6), (oSKM_VISIT_FULL, 8), (oSKM_REFINE_READS, 9)]
  else if c.opcode = opSELECT then
    add s [(oSIV_ROWS, 0), (oSIV_KEYS, 1), (oSIV_PASSES, 2), (oSIV_NAN, 3), (oSIV_DUPS, 4), (oSIV_SAMPLES, 5)]
  else if c.opcode = opTOKENIZE then add s [(oMDL_BYTES, 0), (oMDL_TOKENS, 1), (oMDL_INVALID_SEQS, 2), (oMDL_TRUNCATIONS, 3)]
  else if c.opcode = opDETOKENIZE then add s [(oSTN_TOKENS, 0), (oSTN_BYTES_OUT, 1), (oSTN_STOPS, 2), (oSTN_REPLACED, 3)]
  else s

end Sys2Proof.Machine
end

