-- ==== Sys2Proof/Machine/Issue.lean ====
section
/-! DEFINITION. The issue of a command (R148, R149): its conditions, the checks made at issue, what it captures and reserves, its units
and spans, the pages it reads, and what COPY and COLLECT send. STEP's own part is in Serving. -/

namespace Sys2Proof.Machine

/-! ### Conditions (R148) -/

/-- Every wait entry holds (R140); those of a carried command count as satisfied (R340). -/
def State.waitsMet (s : State) (c : Cmd) : Bool :=
  c.carried || (hWaits c.hdr).all (fun e =>
    if entKind e = 1 then (s.sem (entSem e)).geq (entN e)
    else if entKind e = 2 then (s.sem (entSem e)).takeable (entN e)
    else true)

/-- The TAKE entries: semaphore and amount; a carried command's subtract nothing (R340). -/
def Cmd.takeEntries (c : Cmd) : List (Nat × Nat) :=
  if c.carried then [] else ((hWaits c.hdr).filter (fun e => entKind e = 2)).map (fun e => (entSem e, entN e))

/-- The key of a slot as a pending span (R142). -/
def slotSpan (kind slot : Nat) : Nat := 2 ^ 64 + kind * 2 ^ 20 + slot

/-- What is pending besides the output regions (R142, R199): rows of a SCATTER_ADD, a text stream's entry, MIGRATE's pages, the slot of a
TABLE_SWITCH. DEDUCED (log entry 48). -/
def State.moreSpans (s : State) (c : Cmd) : List (Nat × Nat) :=
  if c.opcode = opMIGRATE then [((migOf c.body).base, (migOf c.body).bytes)]
  else if c.opcode = opSWITCH then [(slotSpan (switchOf c.body).kind (switchOf c.body).slot, 1)]
  else s.moreOuts c

/-- A range placed by its start. -/
def insertSpan (r : Nat × Nat) : List (Nat × Nat) → List (Nat × Nat)
  | [] => [r]
  | h :: t => if r.1 ≤ h.1 then r :: h :: t else h :: insertSpan r t

/-- Two neighbours with the smallest gap, the lowest of them, become one range. -/
def mergeOnce (l : List (Nat × Nat)) : List (Nat × Nat) :=
  let gaps := (l.zip (l.drop 1)).map (fun e => e.2.1 - e.1.2)
  let least := gaps.foldl min (gaps.headD 0)
  match gaps.findIdx? (· = least) with
  | none => l
  | some i =>
    let a := nth (0, 0) l i
    let b := nth (0, 0) l (i + 1)
    l.take i ++ [(a.1, max a.2 b.2)] ++ l.drop (i + 2)

/-- At most 8 spans are left (R149). -/
def mergeSpans : Nat → List (Nat × Nat) → List (Nat × Nat)
  | 0, l => l
  | n + 1, l => if l.length ≤ 8 then l else mergeSpans n (mergeOnce l)

/-- The pending spans of a command (R149). DEDUCED (log entry 48). -/
def State.spansOf (s : State) (c : Cmd) : List (Nat × Nat) :=
  let ptr := (s.slotOf c.part c.opcode c.body).1
  let l := s.outputsOf c.part c.opcode c.body c.hdr.info.toNat ptr ++ s.moreSpans c
  mergeSpans l.length (l.foldl (fun a r => insertSpan (r.1, r.1 + r.2) a) [])

/-- A span of another command of the partition overlaps one of these; a STEP's own records do not hold it up. -/
def State.spansClash (s : State) (c : Cmd) (l : List (Nat × Nat)) : Bool :=
  s.cmds.any (fun d => d.part = c.part && !(ownSpan (some c.ref) d.ref) && d.spans.any (fun a => l.any (overlaps a)))

/-- Staging bytes free of partition p's share on die q (R40). -/
def State.stagingFree (s : State) (p q : Nat) : Nat :=
  ((s.part p).stk q).2 - ((s.cmds.filter (fun d => d.part = p && d.running)).map (fun d => ((d.staging.filter (fun e => e.1 = q)).map (·.2)).sum)).sum

/-- A reservation placed on the dies in number order; none where it does not fit. DEDUCED (log entry 52). -/
def placeStaging : List (Nat × Nat) → Nat → Option (List (Nat × Nat))
  | _, 0 => some []
  | [], _ + 1 => none
  | (q, free) :: t, n + 1 =>
    let take := min free (n + 1)
    (placeStaging t (n + 1 - take)).map (fun l => if take = 0 then l else (q, take) :: l)

/-- Where the staging of a command goes. DEDUCED (log entry 52). -/
def State.stagingFor (s : State) (c : Cmd) : Option (List (Nat × Nat)) :=
  placeStaging ([0, 1, 2, 3].map (fun q => (q, s.stagingFree c.part q))) (s.tilingOf c.part c.opcode c.hdr c.body).staging

/-- Working space of the rows of a SELECT, or of a query of a SEARCH, in the partition's share on the serving die (R236, R258). TOP_K is read from the
row's parameter block. -/
def State.rowSpaces (s : State) (c : Cmd) : List Nat :=
  let d := selOf c.body
  if c.opcode = opSEARCH then [640 * 1024]
  else if c.opcode ≠ opSELECT then []
  else if d.mode ≠ 5 then [d.space 0]
  else (List.range d.rows).map (fun r => match s.readFor c.part none (some c.ref) (d.param + 48 * r) 48 with
    | .ok b => d.space (sampleOf b).topK
    | .error _ => 0x10000)

/-- The space that the first row or query takes as the command issues: on an open choice of the dies where it is free; none where it must wait. DESIGN CHOICE (log entry 107). -/
def State.rowHold (s : State) (c : Cmd) : List (Nat × Nat) :=
  match (s.rowSpaces c).head? with
  | none => []
  | some n =>
    let ds := (s.diesOf c.part).filter (fun q => n ≤ s.stagingFree c.part q)
    match ds[s.choose 0xED ds.length]? with
    | some q => [(q, n)]
    | none => []

/-- Every row that fits a share can find its space on some die, the command's own given up between its rows; a row that fits none ends the command
when it is reached (R258). -/
def State.rowsFit (s : State) (c : Cmd) : Bool :=
  (s.rowSpaces c).all (fun n => s.potShare c.part < n ||
    (s.diesOf c.part).any (fun q => n ≤ s.stagingFree c.part q + ((c.staging.filter (fun e => e.1 = q)).map (·.2)).sum))

/-- The conditions of R148 but for staging and energy: an accepted command of an ACTIVE partition whose waits hold, whose spans are free,
and whose dies are out of reset. -/
def State.canIssue (s : State) (c : Cmd) : Bool :=
  c.phase = .waiting && (s.part c.part).st = .active && s.waitsMet c && !(s.spansClash c (s.spansOf c))
    && (s.energyDies c).all (fun q => !((s.die q).inReset)) && (!(coreWork c.opcode) || c.opcode = opSTEP || s.coreSet c.part ≠ [])

/-- Ready to issue now. -/
def State.readyNow (s : State) (c : Cmd) : Bool := s.canIssue c && (s.stagingFor c).isSome && (s.energyCheck c).isSome

/-- Accepted before: by acceptance number, then by place in a forward list. -/
def refBefore (a b : CmdRef) : Bool := a.seq < b.seq || (a.seq = b.seq && a.sub < b.sub)

/-- A command of the partition accepted earlier is ready too: it issues first (R148). -/
def State.earlierReady (s : State) (c : Cmd) : Bool :=
  s.cmds.any (fun d => d.part = c.part && refBefore d.ref c.ref && s.readyNow d)

/-! ### Checks at issue -/

/-- What a TABLE_SWITCH finds wrong (R184, R213). -/
def State.switchBad (s : State) (c : Cmd) : Option (Nat × Nat) :=
  let d := switchOf c.body
  let ds := s.diesOf c.part
  let rd := fun (die : Option Nat) => s.unitReader c.part c.opcode (some c.ref) die
  if d.kind = 0 then
    match rd none d.base 128 with
    | .error e => some (memFail e)
    | .ok b =>
      let t := tableOf b
      let share := (ds.map (fun q => ((s.part c.part).stk q).2)).foldl min (2 ^ 28)
      let dirBad := fun (q : Nat) =>
        match s.readBytes c.part (potBase + q * potStep + ((s.part c.part).stk q).1 + t.hotDir) (8 * t.hotCount) with
        | .error _ => true
        | .ok l => hotDirBad t.rows ((List.range t.hotCount).map (fun i => fld l (8 * i) 8))
      (t.bad share (t.hotCount ≤ 65536 && ds.any dirBad)).map (fun off => (stBAD_DESCRIPTOR, 0x80 + off))
  else
    match rd none d.base 64 with
    | .error e => some (memFail e)
    | .ok b =>
      let ix := indexOf b
      if ix.image % 64 ≠ 0 then some (stBAD_DESCRIPTOR, 0x80)
      else match rd none ix.image 256 with
        | .error e => some (memFail e)
        | .ok h =>
          let g := imageOf h
          match g.bad with
          | some off => some (stBAD_DESCRIPTOR, 0xC0 + off / 4)
          | none =>
            let old := (s.imageAt (s.index d.slot).ptr).1
            let same := (s.index d.slot).ptr ≠ 0 && old.image = ix.image
            if same && ix.seq < old.seq then some (stBAD_DESCRIPTOR, 0x88)
            else if g.sideCap < ix.side || (same && ix.side < old.side) then some (stBAD_DESCRIPTOR, 0x8C)
            else none

/-- Pages of a range. -/
def rangePages (base bytes : Nat) : List Nat := (List.range (bytes / pageBytes)).map (fun i => base / pageBytes + i)

/-- The pages of a MIGRATE that get a window copy: TIER 0, or TIER 0xFF with HINT pin (R360). -/
def State.migFills (s : State) (p : Nat) (d : MigDesc) : List Nat :=
  if zoneTier d.base d.bytes ≠ some 0 && (d.tier = 0 || (d.tier = 0xFF && d.hint = 0)) then
    (rangePages d.base d.bytes).filter (fun g => ((s.page g).own p).isNone)
  else []

/-- The status and DETAIL with which a command ends at issue, if it does. DEDUCED (log entry 66). -/
def State.issueBad (s : State) (c : Cmd) : Option (Nat × Nat) :=
  let rd := s.unitReader c.part c.opcode (some c.ref) (s.unitDie c 0)
  let share := s.potShare c.part
  let image := fun (k : Image → IndexDesc → Option (Nat × Nat)) =>
    if c.slotPtr = 0 then some (stBAD_DESCRIPTOR, 0)
    else match rd c.slotPtr 64 with
      | .error e => some (memFail e)
      | .ok _ => match c.readImage (s.runOf c) with
        | .error e => some e
        | .ok (ix, g) => k g ix
  if c.opcode = opGATHER || c.opcode = opSCATTER then
    if c.slotPtr = 0 then some (stBAD_DESCRIPTOR, 0)
    else match rd c.slotPtr 128 with
      | .error e => some (memFail e)
      | .ok _ =>
        let t := tableOf c.desc
        if c.opcode = opGATHER then ((gatherOf c.body).bad t).map (fun off => (stBAD_DESCRIPTOR, off))
        else if t.kind ≠ 0 then some (stBAD_DESCRIPTOR, 0) else none
  else if c.opcode = opSEARCH then
    image (fun g _ => if share < 640 * 1024 then some (stSTAGING_LIMIT, 0)
      else if (searchOf c.body).refine ≠ 0 && !(g.refines) then some (stBAD_DESCRIPTOR, 0x06) else none)
  else if c.opcode = opMERGE then
    let d := mergeOf c.body
    image (fun g ix =>
      match g.mergeNeed rd ix with
      | .error e => some e
      | .ok n => if d.bytes < n then some (stBAD_DESCRIPTOR, 0x10) else none)
  else if c.opcode = opSELECT then
    let d := selOf c.body
    if share < (if d.mode = 5 then 0x10000 else d.space 0) then some (stSTAGING_LIMIT, 0) else none
  else if c.opcode = opTOKENIZE then
    if (s.text (tokenizeOf c.body).slot).kind ≠ 1 then some (stBAD_DESCRIPTOR, 0)
    else match s.tokEntry c.part (tokenizeOf c.body).stream with
      | none => none
      | some a => match rd a 16 with
        | .error e => some (memFail e)
        | .ok b => if 3 < fld b 0 1 then some (stBAD_DESCRIPTOR, 0x70) else none
  else if c.opcode = opDETOKENIZE then
    if (s.text (detokOf c.body).slot).kind ≠ 1 then some (stBAD_DESCRIPTOR, 0)
    else match readStops rd (detokOf c.body).stop with
      | .error e => some e
      | .ok _ => none
  else if c.opcode = opSWITCH then s.switchBad c
  else if c.opcode = opMIGRATE then
    let d := migOf c.body
    let pins := if d.hint = 0 && (d.tier = 0 || d.tier = 0xFF) then (rangePages d.base d.bytes).filter (fun g => !(((s.page g).own c.part).any (·.pinned))) else []
    if zoneTier d.base d.bytes ≠ some 0 && pins ≠ [] && (s.part c.part).winFrames < 16 + s.winPinned c.part + pins.length then
      some (stSTAGING_LIMIT, 0) else none
  else if c.opcode = opCOLLECT then
    let d := collOf c.body
    let k := tabGet commNone s.net.comms d.comm
    if !k.valid then some (stACCESS_FAULT, 0)
    else if d.kind = 2 then
      match rd d.splits (8 * k.members) with
      | .error e => some (memFail e)
      | .ok b => if (List.range k.members).any (fun j => d.bytes < fld b (8 * j) 8) then some (stBAD_DESCRIPTOR, 0x32) else none
    else none
  else none

/-! ### Pages read (R358) -/

/-- Input ranges that are not regions: rows of a table, arrays of an index image, arrays of a trie, KV pages of a PAGED ATTEND. -/
def State.moreInputs (s : State) (c : Cmd) : List (Nat × Nat) :=
  let rd := s.unitReader c.part c.opcode (some c.ref) (s.unitDie c 0)
  if c.opcode = opGATHER || c.opcode = opSCATTER then
    let t := tableOf c.desc
    let idx := if c.opcode = opGATHER then readIndices rd (gatherOf c.body).idx (gatherOf c.body).count
      else readIndices rd (scatterOf c.body).idx (scatterOf c.body).count
    match idx with
    | .error _ => []
    | .ok l => if t.kind = 1 then [] else (firsts [] (l.filter (fun i => i < t.rows))).map (fun r => (t.base + r * t.rowBytes, t.rowBytes))
  else if c.opcode = opSEARCH || c.opcode = opMERGE then
    let (ix, g) := s.imageFor c
    let refine := if g.refines && (c.opcode = opMERGE || (searchOf c.body).refine ≠ 0) then
      [(g.refine, g.refineStride * g.nodes), (g.sideRefine, g.refineStride * ix.side)] else []
    [(g.code, g.codeStride * g.nodes), (g.tomb, 4 * g.nodes), (g.sideBase, g.sideStride * ix.side)]
      ++ (if g.metric = 0 then [] else [(g.aux, 4 * g.nodes)])
      ++ (if g.isGraph then [(g.graph, g.nodeBytes * g.nodes), (g.entry, 4 * g.entries)] else [])
      ++ (if g.label = 0 then [] else [(g.label, 8 * g.nodes)])
      ++ (List.range g.attrs).map (fun i => (g.attr i, 4 * g.nodes)) ++ refine
  else if c.opcode = opTOKENIZE || c.opcode = opDETOKENIZE then
    match rd c.slotPtr 64 with
    | .error _ => []
    | .ok b => let t := trieOf b; [(c.slotPtr, 64), (t.nodeBase, 16 * t.nodes), (t.strIndex, 8 * t.vocab)]
  else if c.opcode = opATTEND then
    let d := attOf c.body
    match d.entries rd, s.modelOfRec c with
    | .ok es, some m => if !d.paged then [] else es.flatMap (fun e =>
        (List.range (ceilDiv e.keys 64)).filterMap (fun j =>
          match (s.pagingOf c).page rd e.k (d.kBase % 2 ^ 16) (64 * j) with
          | .ok (some a) => some (a, m.pageSize)
          | _ => none))
    | _, _ => []
  else []

/-- The ranges a command reads. DEDUCED (log entry 53). -/
def State.inputsOf (s : State) (c : Cmd) : List (Nat × Nat) :=
  ((s.regions c.part c.opcode c.body c.slotPtr).filter (fun g => !g.out && g.len ≠ 0)).map (fun g => (g.addr, g.len)) ++ s.moreInputs c

/-- What a command reads through its descriptor beside its operands (R138): chain blocks, pointer lists, streams, scales, stop sets, trie images. -/
def State.structsOf (s : State) (c : Cmd) : List (Nat × Nat) :=
  let d := prodOf c.body
  let a := attOf c.body
  let data := if c.opcode = opPRODUCT then (if d.plist then [] else [d.aBase, d.bBase]) ++ [(prodOf (c.body.drop 104)).bBase]
    else if c.opcode = opATTEND then (if a.count = 0 || a.mode = 1 then [a.qBase, a.kBase, a.vBase] else if a.paged then [a.qBase] else [])
    else [(detokOf c.body).base]
  let rs := (s.regions c.part c.opcode c.body c.slotPtr).filter (fun g => !g.out && g.entry.isNone && g.len ≠ 0 && !(data.contains g.addr))
  if coreWork c.opcode then rs.map (fun g => (g.addr, g.len))
  else if c.opcode = opDETOKENIZE then rs.map (fun g => (g.addr, g.len)) ++ s.moreInputs c
  else if c.opcode = opTOKENIZE then s.moreInputs c
  else []

/-- One of the ranges that were written behind a command's back meets what it reads through its descriptor: its outputs are undefined (R138). -/
def State.soiled (s : State) (c : Cmd) : Bool :=
  c.clouds ≠ [] && (s.structsOf c).any (fun r => c.clouds.any (overlaps (r.1, r.1 + r.2)))

/-- Read references on the pages of a command's inputs (R358): the state, the pages, and those that wait for a fill. DEDUCED (log entry 53). -/
def State.takeReads (s : State) (c : Cmd) : State × List Nat × List Nat :=
  ((s.inputsOf c).flatMap (fun r => pagesOf r.1 r.2)).foldl (fun (a : State × List Nat × List Nat) e =>
    match pageZone e.1 with
    | .ddr | .fls =>
      let r := a.1.readRef c.part e.1 e.2
      (r.1, insertNat a.2.1 e.1, if r.2 then insertNat a.2.2 e.1 else a.2.2)
    | _ => a) (s, [], [])

/-! ### Expert blocks (R203, R205, R365, R366) -/

/-- A page of a listed block counts at the GATHER's issue (R366). -/
def State.countExpert (s : State) (p g : Nat) : State :=
  s.countBytes (pgFNL p) (if ((s.page g).own p).isSome then oFNL_EXP_HIT else oFNL_EXP_MISS) pageBytes

/-- One page of a listed block: held where it stands, or filled. Answers false where no frame can be taken. -/
def State.holdPage (s : State) (p slot : Nat) (named : List Nat) (g : Nat) : State × Bool :=
  let x := s.page g
  match x.own p with
  | some _ =>
    let pin := s.pins p g
    (s.setPage g { x with
      copies := x.copies.map (fun (k : WinCopy) => if k.part = p then { k with hold := insertNat k.hold slot, pinned := k.pinned || pin } else k) }, true)
  | none =>
    if x.moves.any (fun m => m.part = p && m.kind = 0) then
      (s.setPage g { x with moves := x.moves.map (fun (m : Move) => if m.part = p then { m with hold := insertNat m.hold slot } else m) }, true)
    else s.startFill p g (some slot) named

/-- The tiered pages of the blocks that an expert GATHER lists. DEDUCED (log entry 65). -/
def State.expertPages (s : State) (c : Cmd) : List Nat :=
  let d := gatherOf c.body
  let t := tableOf c.desc
  if c.opcode ≠ opGATHER || t.kind ≠ 1 then []
  else match readIndices (s.unitReader c.part c.opcode (some c.ref) (s.unitDie c 0)) d.idx d.count with
    | .error _ => []
    | .ok idx => ((expertsOf t d.bags idx).flatMap (fun e => rangePages (t.base + e * t.rowBytes) t.rowBytes)).filter (fun g => g * pageBytes ≠ 0 &&
        (match pageZone g with | .ddr | .fls => true | _ => false))

/-- Every listed page held or being filled; false where one cannot be placed. -/
def State.holdPages (p slot : Nat) (named : List Nat) : List Nat → State → State × Bool
  | [], s => (s, true)
  | g :: t, s => match s.holdPage p slot named g with
    | (u, false) => (u, false)
    | (u, true) => State.holdPages p slot named t u

/-! ### What is sent at issue -/

/-- Rank j of a communicator: device and partition. -/
def State.memberOf (s : State) (k : Comm) (j : Nat) : Nat × Nat :=
  let b := s.readZ 16 (k.list + 4 * j) 4
  (fld b 0 2, fld b 2 1)

/-- The connection from partition p to a member. -/
def memberConn (p : Nat) (m : Nat × Nat) : ConnId := ⟨Fin.ofNat 16 p, BitVec.ofNat 16 m.1, Fin.ofNat 17 (m.2 % 16)⟩

/-- ITEM of what rank r sends in a collective of a kind; `count` for the byte count of KIND 2. DESIGN CHOICE (log entry 39). -/
def collItem (kind r : Nat) (count : Bool) : Nat := kind * 2 ^ 16 + b2n count * 0x8000 + r

/-- What rank r sends rank j: item, offset in the receiver's DST, bytes. DEDUCED (log entry 26). -/
def State.collPieces (s : State) (c : Cmd) (k : Comm) (j : Nat) : Except MemErr (List (Nat × Nat × List Byte)) :=
  let d := collOf c.body
  let r := k.rank
  let rd := s.unitReader c.part c.opcode (some c.ref) none
  let one := fun (off a n : Nat) => match rd a n with
    | .error e => Except.error e
    | .ok b => .ok [(collItem d.kind r false, off, b)]
  match d.kind with
  | 0 => one (r * d.bytes) d.src d.bytes
  | 1 => one (stagePlace r j * d.bytes) (d.src + j * d.bytes) d.bytes
  | 2 => match rd d.splits (8 * k.members) with
    | .error e => .error e
    | .ok b =>
      let cnt := fun (i : Nat) => fld b (8 * i) 8
      match one (r * d.bytes) (d.src + ((List.range j).map cnt).sum) (cnt j) with
      | .error e => .error e
      | .ok l => .ok (l ++ [(collItem 2 r true, k.members * d.bytes + 8 * r, leBytes 8 (cnt j))])
  | _ => match rd d.src d.bytes with
    | .error e => .error e
    | .ok b =>
      let rows := ceilDiv d.rows (max 1 k.members)
      let bufs := nodeBufs (d.rows * d.cols) (b.length + 1) b
      let cut := bufs.flatMap (fun n => leBytes 4 n.ctotal ++ leBytes 4 n.level ++ leBytes 8 n.index
        ++ ((n.vals.drop (rows * j * d.cols)).take (min rows (d.rows - rows * j) * d.cols)).flatMap (fun w => leBytes 4 w.toNat))
      .ok [(collItem 3 r false, stagePlace r j * d.bytes, cut)]

/-- A COLLECT takes its number in its communicator at its first issue (R445) and sends every member its part. -/
def State.sendColl (s : State) (c : Cmd) : Except MemErr (State × Cmd) :=
  let d := collOf c.body
  let k := tabGet commNone s.net.comms d.comm
  let (s, num) : State × Nat := match s.net.colls.find? (fun e => e.cmd = c.ref) with
    | some e => (s, e.num)
    | none => ({ s with net := { s.net with
        comms := tabPut commNone s.net.comms d.comm { k with issued := k.issued + 1 }
        colls := s.net.colls ++ [(⟨d.comm, k.issued % 65536, c.ref, []⟩ : Coll)] } }, k.issued % 65536)
  let c : Cmd := { c with collSeq := num }
  match mapE (s.collPieces c k) ((List.range k.members).filter (· ≠ k.rank)) with
  | .error e => .error e
  | .ok l =>
    let dests := ((List.range k.members).filter (· ≠ k.rank)).map (s.memberOf k)
    .ok ((dests.zip l).foldl (fun s e => e.2.foldl (fun s i =>
      s.sendItem c (memberConn c.part e.1) d.comm i.1 i.2.1 0xFFFF i.2.2) s) s, c)

/-- A COPY to another device sends its bytes to the partition that the device's table names (R368). -/
def State.sendCopy (s : State) (c : Cmd) : Except MemErr State :=
  let d := copyOf c.body
  if d.dev = 0xFFFF then .ok s
  else match s.unitReader c.part c.opcode (some c.ref) none d.src d.bytes with
    | .error e => .error e
    | .ok b => .ok (s.sendItem c ⟨Fin.ofNat 16 c.part, BitVec.ofNat 16 d.dev, 16⟩ 0xFFFF 0xFFFFFFFF d.dst 0xFFFF b)

/-- A window copy that a MIGRATE makes starts (R360): the frame is taken and the page marked moving. -/
def State.startCopy (s : State) (c : Cmd) (g : Nat) : State :=
  if (s.page g).moves.any (fun m => m.kind = 2 && m.cmd = some c.ref) then s
  else match s.takeFrame c.part none [] with
    | (t, none) => t
    | (t, some f) =>
      let x := t.page g
      t.setPage g { x with moves := x.moves ++ [(⟨2, c.part, f, [], (migOf c.body).hint = 0, [], some c.ref, false⟩ : Move)] }

/-! ### Issue -/

/-- The record of a command as it issues: what it captures (R185, R212, R266), reserves and divides into units. A re-run
captures again. -/
def State.issued (s : State) (c : Cmd) (borrowed : Bool) : Cmd :=
  let sl := s.slotOf c.part c.opcode c.body
  let t := s.tilingOf c.part c.opcode c.hdr c.body
  let cs := s.chainsOf c.part c.opcode c.body
  let rs := s.deal c.part t.tn t.total
  let descLen := if c.opcode = opGATHER || c.opcode = opSCATTER then 128 else if c.opcode = opSEARCH || c.opcode = opMERGE then 64 else 0
  let desc := match s.unitReader c.part c.opcode (some c.ref) (s.unitDie c 0) sl.1 descLen with | .ok b => b | .error _ => []
  let halo := if c.opcode = opPRODUCT && cs.1.chained && (prodOf c.body).haloH ≠ 0 then t.halo rs (prodOf c.body).haloSem
    else if c.opcode = opATTEND && (attOf c.body).mode = 0 && (attOf c.body).mask = 2 && 2 ≤ (attOf c.body).window then t.halo rs (attOf c.body).haloSem
    else []
  { c with
    phase := .issued
    outs := s.outputsOf c.part c.opcode c.body c.hdr.info.toNat sl.1
    spans := s.spansOf c
    staging := (s.stagingFor c).getD [] ++ s.rowHold c
    slotPtr := sl.1
    slotVersion := sl.2.1
    ranges := rs
    taken := 0
    landing := if cs.1.landEn then List.range t.tiles else []
    landSems := s.landSems c.part cs.1
    halo := halo
    tileM := t.tm
    tileN := t.tn
    tileK := t.tk
    parts := t.parts
    desc := desc
    log := []
    drops := (0, 0)
    landSlots := []
    haloRows := []
    units := if cs.1.landEn then [(t.tiles, nth 1 t.across 0)] else t.units.zip t.across
    placed := []
    borrowed := if borrowed then 1 + (s.cmds.map (·.borrowed)).foldl max 0 else 0
    heldPeriods := 0 }

/-- A command issues (R148, R149), but for what is STEP's own. -/
def State.issueCmd (s : State) (c : Cmd) (borrowed : Bool) : State :=
  let c := s.issued c borrowed
  let s := s.setCmd c
  match s.issueBad c with
  | some e => s.readFailed c e.1 e.2
  | none =>
    let c : Cmd := { c with takes := c.takeEntries }
    let s := c.takes.foldl (fun s t => s.semReserve t.1 t.2) (s.setCmd c)
    let named := s.expertPages c
    let s := named.foldl (fun s g => s.countExpert c.part g) s
    match State.holdPages c.part (gatherOf c.body).slot named named s with
    | (u, false) => u.failCmd { c with fetched := named } stSTAGING_LIMIT 0
    | (u, true) =>
      let fresh := named.filter (fun g => !(((s.page g).own c.part).any (fun k => k.hold.contains (gatherOf c.body).slot)))
      let r := u.takeReads c
      let waits := r.2.2 ++ named.filter (fun g => ((r.1.page g).own c.part).isNone)
      let c : Cmd := { c with reads := named.foldl insertNat r.2.1, fills := waits, fetched := fresh }
      let s := r.1.setCmd c
      if c.opcode = opCOLLECT then
        match s.sendColl c with
        | .error e => let f := memFail e; s.readFailed c f.1 f.2
        | .ok (t, c) => t.setCmd c
      else if c.opcode = opCOPY then
        match s.sendCopy c with
        | .error e => let f := memFail e; s.readFailed c f.1 f.2
        | .ok t => t
      else if c.opcode = opMIGRATE then (s.migFills c.part (migOf c.body)).foldl (fun s g => s.startCopy c g) s
      else s

/-- A command that staging holds up: counted once for each time it is held. DEDUCED (log entry 52). -/
def State.holdStaging (s : State) (c : Cmd) : State :=
  if c.staging = [] then
    (s.setCmd { c with staging := [(0, 0)] }).count (pgSTK (((s.diesOf c.part).head?).getD 0)) oSTK_STK_HOLDS 1
  else s

/-- A command that its energy class holds up (R461). DEDUCED (log entry 33). -/
def State.holdEnergy (s : State) (c : Cmd) : State :=
  if c.heldPeriods = 0 then (s.setCmd { c with heldPeriods := 1 }).count pgTRV oTRV_HOLDS 1 else s

end Sys2Proof.Machine
end

