-- ==== Sys2Proof/Machine/Commit.lean ====
section
/-! DEFINITION. The commit of a command (R151): when its work is complete, outputs, SCATTER_ADD's rows and the ladles' stall buffers
(R152, R197 to R201), slot switches (R184, R213, R235), MIGRATE's switch (R360), takes, signals and SEMOP (R140, R169 to R174), and the
completion. -/

namespace Sys2Proof.Machine

/-! ### When work is complete -/

/-- No unit is queued and every semaphore a unit waits for has come. -/
def State.unitsDone (s : State) (c : Cmd) : Bool :=
  c.ranges.all (fun r => r.hi ≤ r.lo) && c.landing = [] && c.halo.all (fun h => 1 ≤ (s.sem h.1).read)
    && c.landSems.all (fun k => 1 ≤ (s.sem k).read)

/-- The pages a command waits for have come (R358). -/
def State.fillsDone (s : State) (c : Cmd) : Bool :=
  c.fills.all (fun g => !((s.page g).moves.any (fun m => m.kind = 0 && m.part = c.part)))

/-- Every item that a COLLECT receives is whole (R445, R446). -/
def State.arrivalsDone (s : State) (c : Cmd) : Bool :=
  let d := collOf c.body
  let k := tabGet commNone s.net.comms d.comm
  match s.net.colls.find? (fun e => e.cmd = c.ref) with
  | none => false
  | some e =>
    let has := fun (i : Nat) => e.arrived.any (fun a => a.1 = i)
    ((List.range k.members).filter (· ≠ k.rank)).all (fun j =>
      match d.kind with
      | 2 => has (collItem 2 j true) && (has (collItem 2 j false) || s.readN c.part (d.dst + k.members * d.bytes + 8 * j) 8 = 0)
      | _ => d.bytes = 0 || has (collItem d.kind j false))

/-- Pages of a MIGRATE whose copy has not been made yet, or not begun. -/
def State.copiesLeft (s : State) (c : Cmd) : List Nat :=
  (s.migFills c.part (migOf c.body)).filter (fun g => !((s.page g).moves.any (fun m => m.kind = 2 && m.cmd = some c.ref && m.done)))

/-- All work of an issued command is complete, its rows found their working space, and it may commit. DESIGN CHOICE (log entry 91). -/
def State.workDone (s : State) (c : Cmd) : Bool :=
  c.phase = .issued && c.opcode ≠ opSTEP && s.unitsDone c && s.fillsDone c && !(s.unacked c.ref)
    && s.rowsFit c && (c.opcode ≠ opCOLLECT || s.arrivalsDone c) && (c.opcode ≠ opMIGRATE || s.copiesLeft c = [])

/-! ### Order 5 -/

/-- Text records of a command's text (R281). -/
def textRecs (c : Cmd) (text : List Byte) : List Rec :=
  (textCuts text.length text).map (fun b => textRec c.hdr.tag.toNat (detokOf c.body).stream b)

/-- A committed command leaves flight: text records and completion; a record of a forward list writes none (R298). -/
def State.leave (s : State) (c : Cmd) (texts : List Rec) : State :=
  let s := s.dropHands c.ref
  let s : State := { s with net := { s.net with colls := s.net.colls.filter (fun k => k.cmd ≠ c.ref) } }
  if c.ref.sub = 0 then s.complete { c.unrun with spans := [] } texts
  else (s.dropCmd c.ref).postRecs c.part texts

/-! ### Order 4 -/

/-- The signal entries in index order (R140, R169); answers whether one saturated. -/
def State.applySignals (s : State) (h : CapHdr) (tag : Option (Nat × Nat)) : State × Bool :=
  (hSignals h).foldl (fun (a : State × Bool) e =>
    let k := entSem e
    let r := if entKind e = 1 then a.1.semAdd k (entN e) (semMaster k) tag
      else if entKind e = 2 then a.1.semSub k (entN e) (semMaster k) tag
      else (a.1, false)
    (r.1, a.2 || r.2)) (s, false)

/-- Each of a list of semaphores loses 1 (R110, R128). -/
def State.takeOnes (s : State) (ks : List Nat) (tag : Option (Nat × Nat)) : State × Bool :=
  ks.foldl (fun (a : State × Bool) k => let r := a.1.semSub k 1 (semMaster k) tag; (r.1, a.2 || r.2)) (s, false)

/-- The reserved amounts taken (R140). -/
def State.applyTakes (s : State) (ts : List (Nat × Nat)) (tag : Option (Nat × Nat)) : State × Bool :=
  ts.foldl (fun (a : State × Bool) t => let r := a.1.semTake t.1 t.2 tag; (r.1, a.2 || r.2)) (s, false)

/-- A local SEMOP's operation (R169). -/
def State.applySemop (s : State) (d : SemopDesc) (tag : Option (Nat × Nat)) : State × Bool :=
  if d.op = 0 then s.semAdd d.sem d.n (semMaster d.sem) tag
  else if d.op = 1 then s.semSub d.sem d.n (semMaster d.sem) tag
  else (s.semSet d.sem d.n, false)

/-- A remote SEMOP's message (R173, R433). -/
def State.sendSemop (s : State) (c : Cmd) : State :=
  let d := semopOf c.body
  let conn : ConnId := ⟨Fin.ofNat 16 c.part, BitVec.ofNat 16 d.dev, 16⟩
  let h : FabHdr := { c.fabHdr 0xFFFF with sem := BitVec.ofNat 16 d.sem }
  (s.fabQueue conn [⟨0, fbSEMOP, h, leBytes 1 d.op ++ beBytes 4 d.n, some c.ref, 0, 0, false, 0⟩]).owe c.ref conn 0xFFFF

/-- Takes, halo and arrival semaphores, then signals; SAT in the command's FLAGS says that one saturated (R172). -/
def State.takeAndSignal (s : State) (c : Cmd) : State × Cmd :=
  let a := s.applyTakes c.takes c.evTag
  let b := a.1.takeOnes (c.halo.map (·.1)) c.evTag
  let d := b.1.takeOnes c.landSems c.evTag
  let e := d.1.applySignals c.hdr c.evTag
  (e.1, { c with
    takes := []
    halo := []
    landSems := []
    flags := if a.2 || b.2 || d.2 || e.2 then c.flags ||| 128 else c.flags })

/-- Orders 4 and 5 of a commit. A remote SEMOP waits for its answer before its completion (R174). -/
def State.lastOrders (s : State) (c : Cmd) (texts : List Rec) : State :=
  let s := c.spoiled.foldl (fun s r => s.undefRange c.part r.1 (r.2 - r.1)) s
  let (s, c) := s.takeAndSignal c
  let d := semopOf c.body
  if c.opcode ≠ opSEMOP then s.leave c texts
  else if d.dev = 0xFFFF then
    let f := s.applySemop d c.evTag
    f.1.leave { c with flags := if f.2 then c.flags ||| 128 else c.flags } texts
  else (s.setCmd { c with phase := .answering }).sendSemop c

/-! ### Order 3 -/

/-- Commands that hold a version of the slot that command c switches (R184). -/
def State.holders (s : State) (c : Cmd) (kind slot ptr version : Nat) : List CmdRef :=
  (s.cmds.filter (fun d => d.ref ≠ c.ref && d.running && d.slotPtr = ptr && d.slotVersion = version && fld d.body 0 2 = slot
    && (if kind = 0 then d.opcode = opGATHER || d.opcode = opSCATTER else d.opcode = opSEARCH || d.opcode = opMERGE))).map (·.ref)

/-- SIDE_HIGH where a new descriptor fills 7/8 of the side list or more (R232, R242). DEDUCED (log entry 63). -/
def State.sideHigh (s : State) (slot ptr : Nat) (tag : Option (Nat × Nat)) : State :=
  let (ix, g) := s.imageAt ptr
  if ix.side ≠ 0 && 7 * g.sideCap ≤ 8 * ix.side then s.flagEvent (pgSKM 0) 3 1 (slot % 256 + ix.side * 2 ^ 32) tag else s

/-- The slot's version and pointer replaced together; orders 4 and 5 wait for the holders of the old ones. DEDUCED (log entry 93). -/
def State.switchSlot (s : State) (c : Cmd) (kind slot version ptr : Nat) : State :=
  let old := if kind = 0 then s.table slot else s.index slot
  let hold := s.holders c kind slot old.ptr old.version
  let s := if kind = 0 then s.setTable slot { old with version := version, ptr := ptr, ignoreHot := [] }
    else s.setIndex slot { old with version := version, ptr := ptr }
  let s := if kind = 1 then s.sideHigh slot ptr c.evTag else s
  let c : Cmd := { c with spans := [], fetched := hold.map (fun r => r.seq * 8192 + r.sub), sent := [(old.ptr, old.version)] }
  if hold = [] then s.lastOrders c [] else s.setCmd { c with phase := .draining }

/-- Whether a command that drains still has a holder of the old version. DEDUCED (log entry 93). -/
def State.draining (s : State) (c : Cmd) : Bool :=
  let old := nth (0, 0) c.sent 0
  s.cmds.any (fun d => d.running && c.fetched.contains (d.ref.seq * 8192 + d.ref.sub) && d.slotPtr = old.1 && d.slotVersion = old.2)

/-- INDEX_MERGE at order 3 (R235): the slot must name what the command captured. -/
def State.mergeSwitch (s : State) (c : Cmd) : State :=
  let d := mergeOf c.body
  let now := s.index d.slot
  let same := now.version = c.slotVersion && (s.imageAt now.ptr).1 = indexOf c.desc
  if same then s.switchSlot c 1 d.slot d.version d.out
  else s.lastOrders { c with flags := c.flags ||| 1 } []

/-- One page of a MIGRATE switches (R360): its copy taken into use or dropped, its hint stored. -/
def State.migratePage (s : State) (c : Cmd) (g : Nat) : State :=
  let d := migOf c.body
  let p := c.part
  let mine := fun (m : Move) => m.kind = 2 && m.cmd = some c.ref
  let s : State := match (s.page g).moves.find? mine with
    | some m =>
      let t : State := if ((s.page g).own p).isNone then
          let t := s.copyPageIn p g m.frame
          let x := t.page g
          (({ t with readStamp := t.readStamp + 1 }.setPage g { x with
            copies := x.copies ++ [(⟨p, m.frame, [], d.hint = 0, [], t.readStamp + 1⟩ : WinCopy)] }).fallBehind p g).count pgTNG oTNG_MOVES 1
        else s
      let x := t.page g
      t.setPage g { x with moves := x.moves.filter (fun m => !(mine m)) }
    | none => s
  let drop := d.tier = 1 || d.tier = 2 || d.tier = 0xFE || (d.tier = 0xFF && d.hint = 3)
  let s := if drop then s.dropCopy p g (d.tier ≠ 0xFE) else s
  let x := s.page g
  s.setPage g { x with
    hint := some d.hint
    copies := x.copies.map (fun (k : WinCopy) => if k.part = p then { k with pinned := d.hint = 0 } else k) }

/-- TIER 0xFE's zeros and trims (R360, R390), made before order 3. -/
def State.discardPage (s : State) (p g : Nat) : State :=
  let s := s.dropCopy p g false
  match pageZone g with
  | .fls => (List.range 32).foldl (fun s i => s.bufferUnit ((g * pageBytes - flsBase) / 4096 + 4 * i) 1 []) s
  | .hbm => s.writeZ p (g * pageBytes) (List.replicate pageBytes 0#8)
  | _ => s.writeZ p (g * pageBytes) (List.replicate pageBytes 0#8)

/-! ### Order 2 of SCATTER_ADD (R152, R197, R200) -/

/-- The ladle that applies an update: an open choice on the dies of the core set (R583). -/
def State.ladleOf (s : State) (c : Cmd) (r : Nat) : Nat :=
  let ds := if s.diesOf c.part = [] then [0] else s.diesOf c.part
  let ls := ds.flatMap (fun q => (List.range 8).map (fun i => 8 * q + i))
  nth 0 ls (s.choose (2 ^ 22 + r) ls.length)

/-- One update of a log applied: the row is written, or where a page of it moves the update enters its ladle's stall buffer; a ladle whose buffer is
full applies nothing, and STALL_FULL tells once that it filled. The hot copies are written at once (R201). Answers whether the update was taken and
whether it stalled. -/
def State.applyOne (s : State) (c : Cmd) (t : TableDesc) (r : Nat) (u : List Word) : State × Bool × Bool :=
  let l := s.ladleOf c r
  if 256 ≤ s.stallUse l then (s, false, false)
  else
    let x := s.appliedRow c t r u
    match s.movingPage x.1 x.2.length with
    | none => ((s.writeZ c.part x.1 x.2).writeHot c.part t r x.2, true, false)
    | some g =>
      let s : State := { s with stalls := s.stalls ++ [(⟨l, c.ref, g, x.1, x.2⟩ : Stall)] }
      let s := s.peak (pgLDL l) oLDL_STALL_USE 24 16 (s.stallUse l)
      let s := if 256 ≤ s.stallUse l then
          (s.count (pgLDL l) oLDL_STALL_FULL 1).flagEvent (pgLDL l) 3 2 (fld c.body 0 2 % 2 ^ 12 + g % 2 ^ 40 * 2 ^ 24) c.evTag
        else s
      (s.writeHot c.part t r x.2, true, true)

/-- The updates of a log that are still to be applied, in ascending order of rows; one that is applied leaves its row with nothing behind it. Answers
the log and how many updates stalled. -/
def State.applyLog (c : Cmd) (t : TableDesc) : List (Nat × List Word) → State → State × List (Nat × List Word) × Nat
  | [], s => (s, [], 0)
  | (r, u) :: rest, s =>
    let x := if u = [] then (s, true, false) else s.applyOne c t r u
    let y := State.applyLog c t rest x.1
    (y.1, (r, if x.2.1 then [] else u) :: y.2.1, y.2.2 + b2n x.2.2)

/-- The command's outputs stand: whoever began before without waiting for them reads them undefined (R12). -/
def State.unveil (s : State) (c : Cmd) : State :=
  let t := tableOf c.desc
  let rs := if c.opcode = opSCATTER then c.log.map (fun e => (t.base + e.1 * t.rowBytes, t.rowBytes)) ++ c.outs else s.allOuts c
  s.cloudOver (some c.ref) (fun _ => false) (rs.map (fun r => (r.1, r.1 + r.2)))

/-- Orders 3 to 5 of a SCATTER_ADD, with its extended record. -/
def State.scatterEnd (s : State) (c : Cmd) : State :=
  let (inv, mis) := c.drops
  let a := c.hdr.info.toNat
  let s := if a = 0 then s else (s.spread c.part (a, 32)).foldl (fun s r =>
    s.writeZ c.part r.1 (tableInfo inv mis c.taken 0 0 c.slotVersion (nth 0 c.fetched 0) 0)) s
  let s := (s.unveil c).countWork c [c.taken, 0, (scatterOf c.body).count - inv - mis - c.taken, inv, mis]
  s.lastOrders { c with
    spans := []
    count := c.taken
    flags := c.flags ||| (if inv + mis = 0 then 0 else 8) ||| (if a = 0 then 0 else 256) } []

/-- A SCATTER_ADD applies what is left of its log (R152). -/
def State.scatterApply (s : State) (c : Cmd) : State :=
  let (s, log, stalls) := State.applyLog c (tableOf c.desc) c.log s
  let c : Cmd := { c with
    phase := .applying
    log := log
    taken := (log.filter (fun e => e.2 = [])).length
    fetched := [nth 0 c.fetched 0 + stalls] }
  if log.all (fun e => e.2 = []) && !(s.stalls.any (fun e => e.cmd = c.ref)) then s.scatterEnd c else s.setCmd c

/-- Why a row of the log cannot be read or written, if it cannot. -/
def State.rowBad (s : State) (c : Cmd) (t : TableDesc) (r : Nat) : Option (Nat × Nat) :=
  let a := t.base + r * t.rowBytes
  if !(s.mayAccess c.part c.opcode true a t.rowBytes) then some (memFail (.access a))
  else match s.readFor c.part none none a t.rowBytes with
    | .error e => some (memFail e)
    | .ok b => match s.writeFor c.part none a b with
      | .error e => some (memFail e)
      | .ok _ => none

/-- A SCATTER_ADD builds its log (R152) and begins to apply it. -/
def State.commitScatter (s : State) (c : Cmd) : State :=
  let t := tableOf c.desc
  match scatterLog (s.runOf c) (scatterOf c.body) t with
  | .error e => let f := memFail e; s.readFailed c f.1 f.2
  | .ok (log, idx) =>
    match log.findSome? (fun e => s.rowBad c t e.1) with
    | some e => s.failCmd c e.1 e.2
    | none => s.scatterApply { c with
        log := log
        drops := (invalidCount t.rows idx, missingCount t.rows idx)
        taken := 0
        fetched := [] }

/-- SCATTER_ADDs whose applications can go on (R200, orders 7 and 8). -/
def State.resumeScatters (s : State) : State :=
  (s.cmds.filter (fun c => c.phase = .applying)).foldl (fun s c => match s.cmd? c.ref with
    | some d => s.scatterApply d
    | none => s) s

/-! ### What a GATHER leaves behind (R196, R365) -/

/-- The hot-set count of the slot, HOT_REFRESH and the miss sample ring; the holds of the previous expert GATHER end. -/
def State.gatherEnd (s : State) (c : Cmd) (missed : List Nat) : State :=
  let slot := (gatherOf c.body).slot
  let t := tableOf c.desc
  let x := s.table slot
  let n := x.gathers + 1
  let s := s.setTable slot { x with gathers := n }
  let s := if t.hotPeriod ≠ 0 && n % t.hotPeriod = 0 then
      s.raise (s.engineOf c).1 none 1 (slot % 2 ^ 12 + n % 2 ^ 32 * 2 ^ 32) c.evTag else s
  let s := if t.sample = 0 || t.kind = 1 then s
    else
      let w := s.readN c.part t.sample 8
      let l := missed.take 64
      let s := l.zipIdx.foldl (fun s e => s.writeZ c.part (t.sample + 64 + (w + e.2) % 4096 * 8) (leBytes 8 e.1)) s
      s.writeZ c.part t.sample (leBytes 8 (w + l.length))
  if t.kind = 1 then
    let named := s.expertPages c
    { s with pages := s.pages.map (fun e => (e.1, if named.contains e.1 then e.2 else
        { e.2 with copies := e.2.copies.map (fun (k : WinCopy) => if k.part = c.part then { k with hold := k.hold.filter (· ≠ slot) } else k) })) }
  else s

/-! ### Orders 1 to 5 -/

/-- New keys and values written; one that would leave part of a poisoned granule is not, and its request ends at the step's commit
(R318). -/
def State.writeKv : State → Cmd → List Piece → Except MemErr State
  | s, _, [] => .ok s
  | s, c, k :: t => match s.writePieceOf c k with
    | .error (.data _) => State.writeKv s c t
    | .error e => .error e
    | .ok s => State.writeKv s c t

/-- Order 1: every output byte is written. New keys and values of a PAGED ATTEND come first (R299). A failure tells whether it met a
read. -/
def State.writeOutputs (s : State) (c : Cmd) : Except (Bool × Nat × Nat) (State × Out × List Byte) :=
  match orFail (if c.opcode = opATTEND then attendKv (s.runOf c) (s.pagingOf c) c.body else .ok ([], 0)) with
  | .error e => .error (true, e)
  | .ok (kv, kvNans) => match orFail (State.writeKv s c kv) with
    | .error e => .error (false, e)
    | .ok s => match s.work c with
      | .error e => .error (true, e)
      | .ok (o, text) =>
        let a := c.hdr.info.toNat
        let info := if a = 0 || o.info = [] then [] else [(⟨0, a, o.info⟩ : Piece)]
        match orFail (State.writePieces s c (o.pieces ++ info)) with
        | .error e => .error (false, e)
        | .ok s => .ok (s, { o with
            flags := o.flags ||| (if info = [] then 0 else 256)
            stats := if kvNans = 0 then o.stats else [nth 0 o.stats 0 + kvNans] }, text)

/-- A MIGRATE commits: an uncorrectable error in a page it copies, or in a block it writes back, abandons the move (R362). -/
def State.commitMigrate (s : State) (c : Cmd) : State :=
  let d := migOf c.body
  let gs := rangePages d.base d.bytes
  let inHbm := zoneTier d.base d.bytes = some 0
  let leaves := d.tier = 1 || d.tier = 2 || (d.tier = 0xFF && d.hint = 3)
  let goes := fun (g : Nat) => leaves && (match (s.page g).own c.part with | some k => s.copyBad k | none => false)
  match ((s.migFills c.part d).find? (fun g => s.pageBad c.part g)).or (gs.find? goes) with
  | some g =>
    let s := if goes g then s.abandonedEvent g else s.abandonMove g (fun m => m.cmd = some c.ref)
    (s.endWhere (fun e => e.ref ≠ c.ref && e.running && e.reads.contains g) stDATA_ERROR 0).failCmd c stDATA_ERROR 0
  | none =>
    if d.tier = 0xFE && gs.any (fun g => s.readOnlyHit 16 none (g * pageBytes) 1) then s.failCmd c stACCESS_FAULT (256 * d.base)
    else
      let s := if d.tier = 0xFE then gs.foldl (fun s g => s.discardPage c.part g) s else s
      let s := if inHbm && d.tier ≠ 0xFE then s else gs.foldl (fun s g => s.migratePage c g) s
      let s := gs.foldl (fun s g => s.applyStalls g) s
      ((s.unveil c).lastOrders { c with spans := [] } []).resumeScatters

/-- A command whose work is complete commits (R151). Where what it reads through its descriptor was changed, it computes from what stands there
now, and its outputs are undefined (R138). DEDUCED (log entry 49). -/
def State.commitCmd (s : State) (c : Cmd) : State :=
  let soiled := s.soiled c
  let c : Cmd := if soiled then { c with clouds := [] } else c
  let s := if soiled then s.setCmd c else s
  if c.opcode = opSCATTER then s.commitScatter c
  else if c.opcode = opMIGRATE then s.commitMigrate c
  else match s.writeOutputs c with
    | .error (rd, e) => if rd then s.readFailed c e.1 e.2 else s.failCmd c e.1 e.2
    | .ok (s, o, text) =>
      let s := if soiled then s.undefAll c.part (s.allOuts c) else s
      let s := s.unveil c
      let c : Cmd := { c with
        spans := []
        count := o.count
        flags := c.flags ||| o.flags }
      let s := (s.setCmd c).countWork c o.stats
      if c.opcode = opSWITCH then
        let d := switchOf c.body
        s.switchSlot c d.kind d.slot d.version d.base
      else if c.opcode = opMERGE then s.mergeSwitch c
      else
        let s := if c.opcode = opGATHER then s.gatherEnd c (o.stats.drop 5) else s
        s.lastOrders c (if c.opcode = opDETOKENIZE then textRecs c text else [])

end Sys2Proof.Machine
end

