-- ==== Sys2Proof/Machine/Dealing.lean ====
section
/-! DEFINITION. How griddles take the units of issued commands (R112 to R116, R314), halo exchange (R128), and the pass watchdog
(R79). -/

namespace Sys2Proof.Machine

/-! ### Whose units come first (R114, R314) -/

/-- A forward-list record of a generation step: 0; a command of its own: 1; a record of a prefill pass: 2. -/
def State.unitRank (s : State) (c : Cmd) : Nat :=
  if c.ref.sub = 0 then 1
  else if (s.part c.part).srv.steps.any (fun t => t.cmd.seq = c.ref.seq) then 0 else 2

/-- Whether a command's units go before another's. DEDUCED (log entry 50). -/
def State.goesBefore (s : State) (a b : Cmd) : Bool :=
  s.unitRank a < s.unitRank b || (s.unitRank a = s.unitRank b && refBefore a.ref b.ref)

/-- Issued commands with core work of partition p, in the order in which its griddles look at them. -/
def State.dealt (s : State) (p : Nat) : List Cmd :=
  (s.cmds.filter (fun c => c.part = p && c.phase = .issued && coreWork c.opcode && c.opcode ≠ opSTEP)).foldl
    (fun l c => l.takeWhile (fun d => !(s.goesBefore c d)) ++ c :: l.dropWhile (fun d => !(s.goesBefore c d))) []

/-! ### One griddle takes a unit -/

/-- A queue range after its first or its last unit left. -/
def takeFirst (q : Nat) (rs : List DieRange) : List DieRange := rs.map (fun r => if r.die = q then { r with lo := r.lo + 1 } else r)
def takeLast (q : Nat) (rs : List DieRange) : List DieRange := rs.map (fun r => if r.die = q then { r with hi := r.hi - 1 } else r)

def DieRange.left (r : DieRange) : Nat := r.hi - r.lo

/-- The die with most units left, the lowest among equals. -/
def mostLeft (rs : List DieRange) : Option DieRange :=
  rs.foldl (fun (b : Option DieRange) r =>
    if r.left = 0 then b else match b with | none => some r | some x => if x.left < r.left then some r else b) none

/-- A unit taken by a griddle of die q. -/
def Cmd.took (c : Cmd) (i q : Nat) : Cmd := { c with taken := c.taken + 1, placed := c.placed ++ [(i, q)] }

/-- The unit that a griddle has in hand, and the one it has taken beyond it. -/
def State.held (s : State) (core g : Nat) : Option UnitRef × Option UnitRef := (((s.core core).hand[g]?).join, ((s.core core).next[g]?).join)

/-- Units that the griddles of a core hold. -/
def State.coreUnits (s : State) (core : Nat) : List UnitRef := ((s.core core).hand ++ (s.core core).next).filterMap id

/-- Landing tile t of a command has arrived (R110). -/
def State.landed (s : State) (c : Cmd) (t : Nat) : Bool := 1 ≤ (s.sem (nth 0 c.landSems t)).read

/-- A landing tile of the core's own for which `ok` holds: the first not yet taken, else one that another of its griddles holds (R109). DEDUCED (log entry 50). -/
def State.landingUnit (s : State) (core : Nat) (c : Cmd) (ok : Nat → Bool) : Option (UnitRef × Cmd) :=
  let cs := s.chainsOf c.part c.opcode c.body
  match c.landing.find? (fun t => s.homeCore c.part cs.1 t = core && ok t) with
  | some t => some (⟨c.ref, t, true, false⟩, { c with landing := c.landing.filter (· ≠ t) }.took t (core / 52))
  | none => ((s.coreUnits core).find? (fun u => u.cmd = c.ref && u.landing && ok u.index)).map (fun u => (u, c))

/-- A stripe that another griddle of the core works on (R112, R114); `mine` is what this griddle held. -/
def State.stripeUnit (s : State) (core : Nat) (c : Cmd) (mine : Option UnitRef) : Option (UnitRef × Cmd) :=
  if !((s.tilingOf c.part c.opcode c.hdr c.body).stripes) then none
  else ((s.coreUnits core).find? (fun u => u.cmd = c.ref && !u.landing && mine ≠ some u)).map (fun u => (u, c))

/-- The unit that a griddle of a core would take of a command: an arrived landing tile, the first of its die, or a stolen one (R110, R114, R115).
DEDUCED (log entry 50). DEDUCED (log entry 50). -/
def State.unitFor (s : State) (core : Nat) (c : Cmd) : Option (UnitRef × Cmd) :=
  let q := core / 52
  let own := (c.ranges.find? (fun r => r.die = q && r.lo < r.hi)).map (fun r =>
    ((⟨c.ref, r.lo, false, false⟩ : UnitRef), ({ c with ranges := takeFirst q c.ranges } : Cmd).took r.lo q))
  let steal := match mostLeft c.ranges with
    | none => none
    | some r =>
      let i := r.hi - 1
      if c.halo.any (fun h => h.2 = i) then none
      else some ((⟨c.ref, i, false, true⟩ : UnitRef), ({ c with ranges := takeLast r.die c.ranges } : Cmd).took i q)
  s.landingUnit core c (s.landed c) <|> own <|> steal

/-- What a griddle takes: the tiles of a stripe that its core has begun before anything else (R114), then the first command's unit. DEDUCED (log entry 50). -/
def State.firstUnit (s : State) (core : Nat) (mine : Option UnitRef) (l : List Cmd) : Option (UnitRef × Cmd) :=
  l.findSome? (fun c => s.stripeUnit core c mine) <|> l.findSome? (s.unitFor core)

/-- A griddle for which there is nothing else to take stands at a landing tile of its core that has not arrived (R110, R177). DEDUCED (log entry 50). -/
def State.standUnit (s : State) (core : Nat) (l : List Cmd) : Option (UnitRef × Cmd) :=
  l.findSome? (fun c => s.landingUnit core c (fun _ => true))

/-- Griddles of a core that may work at once: the gate (R462), the quarters lent (R178) and a borrower's gate (R464). -/
def State.openGriddles (s : State) (core : Nat) : Nat :=
  let x := s.core core
  min (s.die (core / 52)).gate (min (4 - x.lent) (4 - x.borrowGate))

/-- Four places, one of them set. -/
def setPlace (l : List (Option UnitRef)) (g : Nat) (u : Option UnitRef) : List (Option UnitRef) :=
  setNth none (l ++ List.replicate (4 - l.length) none) g u

/-- What a griddle holds set. -/
def State.setHeld (s : State) (core g : Nat) (u v : Option UnitRef) : State :=
  let x := s.core core
  s.setCore core { x with hand := setPlace x.hand g u, next := setPlace x.next g v }

/-- The landing tiles that none of the core's griddles holds any more give up their slots (R110, order 4). -/
def State.freeSlots (s : State) (core : Nat) (left_ : Option UnitRef) : State :=
  match left_ with
  | some u => if !u.landing || (s.coreUnits core).contains u then s
    else match s.cmd? u.cmd with
      | some c => s.setCmd { c with landSlots := c.landSlots.filter (· ≠ u.index) }
      | none => s
  | none => s

/-- A landing tile at which a griddle stood goes back among those not taken, unless another griddle of its core stands there. -/
def State.putBack (s : State) (core : Nat) (u : UnitRef) : State :=
  if (s.coreUnits core).contains u then s
  else match s.cmd? u.cmd with
    | some c => s.setCmd { c with landing := insertNat c.landing u.index }
    | none => s

/-- The core's tray as its partition's units fill it: so much space as is open, of it at most 2 MiB for chained intermediates, where there are any (R69,
R82, R103). DESIGN CHOICE (log entry 101). -/
def State.drawTray (s : State) (core : Nat) : State :=
  let x := s.core core
  let used := s.choose core 4097
  let chains := (s.coreUnits core).any (fun u => match s.cmd? u.cmd with
    | some c => (s.chainsOf c.part c.opcode c.body).1.chained
    | none => false)
  let chain := if chains then s.choose (0x400 + core) (min 2048 used + 1) else 0
  s.setCore core { x with trayOf := some x.owner, trayUsed := used, trayChain := chain }

/-- A griddle finds unit u of command d beside what it holds (R62): it takes it beyond the unit in hand, or into an empty hand; one that stood at a
landing tile leaves that. -/
def State.gain (s : State) (core g : Nat) (u : UnitRef) (d : Cmd) (stood : Bool) : State :=
  let h := s.held core g
  let s := s.setCmd d
  match h.2.or h.1 with
  | none => (s.setHeld core g (some u) none).drawTray core
  | some x =>
    if stood then (((s.setHeld core g none none).putBack core x).setHeld core g (some u) none).drawTray core
    else ((s.setHeld core g (some x) (some u)).freeSlots core (if h.2.isSome then h.1 else none)).drawTray core

/-- A griddle finds no unit: the one that it had taken beyond the first is now in hand, else it is idle; one that stands at a semaphore keeps its
unit. DESIGN CHOICE (log entry 91). -/
def State.rest (s : State) (core g : Nat) (stands : Bool) : State :=
  let h := s.held core g
  let now := if stands then h.2.or h.1 else h.2
  if now = h.1 then s.setHeld core g now none else (s.setHeld core g now none).freeSlots core h.1

/-- TAKE_UNIT (R62, R110, R114, R115): the griddle's present tile is in its last block, and it takes its next unit, or none. One that stands at a halo
semaphore keeps its unit; one that stands at a landing tile may take another unit instead. DESIGN CHOICE (log entry 91). -/
def execTakeUnit (core : Fin 208) (griddle : Fin 4) (s : State) : Host.Outcome State Fault Refusal :=
  let c := core.val
  let g := griddle.val
  let x := s.core c
  let mine := (s.held c g).2.or (s.held c g).1
  let stands := match mine with | some u => s.unitWaits u | none => false
  let atHalo := match mine with | some u => stands && !u.landing | none => false
  let busy := (x.hand.zipIdx.filter (fun e => e.2 ≠ g && e.1.isSome)).length
  let able := x.st = .enabled && x.owner < 16 && !(x.stopped.contains g) && !((s.die (c / 52)).held) && !((s.die (c / 52)).inReset)
  if !able then done s
  else if atHalo || s.openGriddles c ≤ busy then done (s.rest c g stands)
  else match s.firstUnit c mine (s.dealt x.owner) with
    | some (u, d) => done (s.gain c g u d stands)
    | none =>
      if stands then done (s.rest c g true)
      else match s.standUnit c (s.dealt x.owner) with
        | some (u, d) => done (s.gain c g u d false)
        | none => done (s.rest c g false)

/-! ### Halo exchange (R128) -/

/-- HALO_COPY (R128): stripe `stripe` of an entry has left its last rows; they are copied to the next stripe's halo slot, and its semaphore rises by
1, once for each run of the command. -/
def execHaloCopy (r : CmdRef) (entry stripe : Nat) (s : State) : Host.Outcome State Fault Refusal :=
  match s.cmd? r with
  | none => done s
  | some c =>
    let t := s.tilingOf c.part c.opcode c.hdr c.body
    let i := (t.units.take entry).sum + stripe
    let queued := c.ranges.any (fun x => x.lo ≤ i && i < x.hi)
    match c.halo.find? (fun h => h.2 = i + 1) with
    | none => done s
    | some h =>
      if c.phase = .issued && stripe + 1 < nth 0 t.units entry && !queued && (s.sem h.1).read < 1 then
        done ((s.setCmd { c with haloRows := insertNat c.haloRows (i + 1) }).semAdd h.1 1 (semMaster h.1) c.evTag).1
      else done s

/-! ### The pass watchdog (R79) -/

/-- PASS_WATCHDOG (R79): a pass of the griddle did not complete in time. The griddle is quiesced, WDOG is set, commands with tiles on it
are killed, and it undergoes self-test. A griddle that waits at a semaphore runs no pass (R111). -/
def execPassWatchdog (core : Fin 208) (griddle : Fin 4) (s : State) : Host.Outcome State Fault Refusal :=
  let h := s.held core.val griddle.val
  match h.1 with
  | none => done s
  | some u =>
    if s.unitWaits u then done s
    else
      let s := (s.quiesce (.griddle core griddle)).setErr (pgGRD core.val) 2
      let s := s.killWhere (fun c => c.ref = u.cmd || h.2.any (fun v => v.cmd = c.ref)) causePass
      done (s.beginTest (.griddle core griddle) 2)

/-! ### Semaphore writes (R169) -/

/-- SEM_VALUE_WRITE (R169, R181): a write of SEM_VALUE sets the semaphore that SEM_SEL of the page names. -/
def execSemValueWrite (die : Fin 4) (value : Word) (s : State) : Host.Outcome State Fault Refusal :=
  onPage s (pgSEM die.val)
    (if (s.die die.val).inReset then done s
     else done (s.semSet (die.val * 0x4000 + s.field (pgSEM die.val) oSEM_SEM_SEL 13 0) value.toNat))

end Sys2Proof.Machine
end

