-- ==== Sys2Proof/Machine/Serving.lean ====
section
/-! DEFINITION. The serving engine up to a step's work (12): pages and their references (R302, R303, R308), the handle registry (R306),
batches and contexts (R313, R316, R298), forward lists, prefill passes (R325 to R327), masks (R283, R284). -/

namespace Sys2Proof.Machine

def State.modSrv (s : State) (p : Nat) (f : Serving → Serving) : State :=
  let x := s.part p
  s.setPart p { x with srv := f x.srv }

def State.srv (s : State) (p : Nat) : Serving := (s.part p).srv

/-- The serving engine's reader for a command: held to the partition's windows. -/
def State.srvReader (s : State) (p : Nat) (me : Option CmdRef) : Reader := s.unitReader p opSTEP me none

/-! ### Pages (R302, R303) -/

/-- The lowest number below n that a list does not hold. -/
def lowestFree (used : List Nat) (n : Nat) : Option Nat := (List.range (min n (used.length + 1))).find? (fun f => !(used.contains f))

def State.hbmFree (s : State) (p : Nat) : Nat := s.hbmPoolFrames p - (s.srv p).hbmUsed.length
def State.ddrFree (s : State) (p : Nat) : Nat := s.ddrPoolFrames p - (s.srv p).ddrUsed.length

/-- The lowest free HBM frame, else the lowest free DDR5 frame, taken: its page number. -/
def State.takePage (s : State) (p : Nat) : Option (State × Nat) :=
  match lowestFree (s.srv p).hbmUsed (s.hbmPoolFrames p) with
  | some f => some (s.modSrv p (fun v => { v with hbmUsed := insertNat v.hbmUsed f }), f)
  | none =>
    match lowestFree (s.srv p).ddrUsed (s.ddrPoolFrames p) with
    | some f => some (s.modSrv p (fun v => { v with ddrUsed := insertNat v.ddrUsed f }), 2 ^ 31 + f)
    | none => none

/-- A page's frame is free again. -/
def State.freePage (s : State) (p n : Nat) : State :=
  s.modSrv p (fun v => if bit n 31 then { v with ddrUsed := v.ddrUsed.filter (· ≠ n % 2 ^ 31) } else { v with hbmUsed := v.hbmUsed.filter (· ≠ n) })

/-- Fields of a page's header. -/
def State.pageReq (s : State) (p n : Nat) : Nat := s.readN p (s.pageAddr p n) 4
def State.pageRefs (s : State) (p n : Nat) : Nat := s.readN p (s.pageAddr p n + 0xC) 4
def State.setPageReq (s : State) (p n v : Nat) : State := s.writeZ p (s.pageAddr p n) (leBytes 4 v)
def State.setPageRefs (s : State) (p n v : Nat) : State := s.writeZ p (s.pageAddr p n + 0xC) (leBytes 4 v)

/-- Every group and layer of a range of groups, in the order of R303. -/
def groupLayers (m : Model) (lo n : Nat) : List (Nat × Nat) := (List.range' lo n).flatMap (fun g => (List.range m.layers).map (fun y => (g, y)))

/-- Pages that a request's directory names. -/
def State.pagesOfReq (s : State) (p : Nat) (m : Model) (r : Request) : List (Nat × Nat) :=
  (groupLayers m 0 (m.maxPos / 64)).filterMap (fun e =>
    let a := r.dirAt m e.2 e.1
    let n := s.readN p a 4
    if n = noPage then none else some (a, n))

/-- Live requests but `gone` whose directory names a page, in admission order. -/
def State.namers (s : State) (p n : Nat) (gone : Option Nat) : List Nat :=
  ((byAdmission (s.liveRequests p)).filter (fun e => some e.1 ≠ gone && (match s.model? p e.2.model with
    | some m => (s.pagesOfReq p m e.2).any (fun x => x.2 = n)
    | none => false))).map (·.1)

/-- A directory or a handle no longer names a page (R302); `gone` is the request that leaves, if one does. The page belongs to the earliest admitted
request that still names it; a page that only handles hold belongs to none. One at REFS 0 is freed at a boundary. DEDUCED (log entry 70). -/
def State.dropPage (s : State) (p n : Nat) (gone : Option Nat) : State :=
  if n = noPage then s
  else
    let k := s.pageRefs p n - 1
    let s := s.setPageRefs p n k
    if k = 0 then s
    else
      let l := s.namers p n gone
      if l.contains (s.pageReq p n) then s else s.setPageReq p n (l.headD 0xFFFFFFFF)

/-- Frames in use whose page is at REFS 0 are free again (R302). -/
def State.freePages (s : State) (p : Nat) : State :=
  let v := s.srv p
  ((v.hbmUsed ++ v.ddrUsed.map (2 ^ 31 + ·)).filter (fun n => s.pageRefs p n = 0)).foldl (fun s n => s.freePage p n) s

/-! ### Uncorrected errors that the engine meets (R318, R331) -/

/-- A range of the partition's memory holds poison. -/
def State.poisonIn (s : State) (p a n : Nat) : Bool :=
  (pieces pageBytes (n / pageBytes + 2) a n).any (fun e =>
    match s.locate p none e.1 with
    | some (.phys k) => s.errors.poison.any (fun g => g + 64 > k && g < k + e.2)
    | _ => false)

/-- The engine reads ranges: UE tells of poison in them. DEDUCED (log entry 102). -/
def State.srvReads (s : State) (p : Nat) (rs : List (Nat × Nat)) : State :=
  if rs.any (fun r => s.poisonIn p r.1 r.2) then s.setErr (pgSRV p) 1 else s

/-- The request table. -/
def State.srvTable (s : State) (p : Nat) : Nat × Nat := (s.entryAddr p 0, 128 * 2 ^ s.reqLog2 p)

/-- A request's directory. -/
def dirRange (m : Model) (dir : Nat) : Nat × Nat := (dir, m.layers * (m.maxPos / 64) * 4)

/-- What the engine reads of a request beside its entry: its directory and its pages. -/
def State.reqRanges (s : State) (p : Nat) (m : Model) (i : Nat) : List (Nat × Nat) :=
  let r := s.request p i
  dirRange m r.dir :: (s.pagesOfReq p m r).map (fun e => (s.pageAddr p e.2, m.pageSize))

/-- An uncorrectable error in a request's directory or pages (R318). -/
def State.reqPoison (s : State) (p : Nat) (m : Model) (i : Nat) : Bool := (s.reqRanges p m i).any (fun r => s.poisonIn p r.1 r.2)

/-- Groups of 64 positions that positions start to start + len - 1 touch. -/
def groupsOf (start len : Nat) : Nat × Nat := if len = 0 then (start / 64, 0) else (start / 64, (start + len - 1) / 64 + 1 - start / 64)

def noTaken : Taken := ⟨[], [], [], []⟩

/-- LENGTH of a request after its admission (R307, R325). -/
def State.admitLen (s : State) (p i : Nat) : Nat := (((s.srv p).admitLens.find? (fun e => e.1 = i)).map (·.2)).getD 0

/-- Writing from position `start` on first copies a request's page of group g: the one its prefix ends in (R308). -/
def State.copies (s : State) (p i start g : Nat) : Bool := start = s.admitLen p i && start % 64 ≠ 0 && g = start / 64

/-- A request's page of one group and layer, its own for writing from position `start` on: allocated where it has none, copied where its
prefix ends in it (R303, R308). The directory names a copy from the commit on. -/
def State.ownPage (s : State) (p idx mod : Nat) (m : Model) (r : Request) (start : Nat) (k : Taken) (e : Nat × Nat) : Option (State × Taken) :=
  let a := r.dirAt m e.2 e.1
  let n := s.readN p a 4
  if n ≠ noPage && !(s.copies p idx start e.1) then some (s, k)
  else match s.takePage p with
    | none => none
    | some (s, f) =>
      let s := if n = noPage then s
        else
          let row := m.hkv * m.headDim * m.kvBytes
          let keep := row * (start % 64)
          let old := s.pageAddr p n
          let new := s.pageAddr p f
          let s := s.undefRange p new m.pageSize
          let s := s.writeZ p (new + 64) (s.readZ p (old + 64) keep)
          let s := s.writeZ p (new + 64 + 64 * row) (s.readZ p (old + 64 + 64 * row) keep)
          s.count (pgSRV p) oSRV_COW_COPIES 1
      let s := s.writeZ p (s.pageAddr p f) (leBytes 4 idx ++ leBytes 2 e.2 ++ leBytes 2 mod ++ leBytes 4 (64 * e.1) ++ leBytes 4 1 ++ List.replicate 48 0#8)
      some (if n = noPage then (s.writeZ p a (leBytes 4 f), { k with frames := k.frames ++ [f], undo := k.undo ++ [(a, n)] })
        else (s, { k with frames := k.frames ++ [f], renames := k.renames ++ [(a, f)], shared := k.shared ++ [n] }))

/-- Pages for a list of groups and layers; where one cannot be had, everything taken for them is given back. -/
def State.ownPages (p idx mod : Nat) (m : Model) (r : Request) (start : Nat) : List (Nat × Nat) → State → Taken → State × Option Taken
  | [], s, k => (s, some k)
  | e :: t, s, k => match s.ownPage p idx mod m r start k e with
    | none => (s.giveBack p k, none)
    | some (u, k) => State.ownPages p idx mod m r start t u k

/-- Pages for len positions of a request from `start` on. DEDUCED (log entry 70). -/
def State.pagesFor (s : State) (p idx mod : Nat) (m : Model) (r : Request) (start len : Nat) : State × Option Taken :=
  let g := groupsOf start len
  State.ownPages p idx mod m r start (groupLayers m g.1 g.2) s noTaken

/-- DEDUCED (log entry 70). -/
def Taken.add (a b : Taken) : Taken := ⟨a.frames ++ b.frames, a.undo ++ b.undo, a.renames ++ b.renames, a.shared ++ b.shared⟩

/-- At the commit directories name the private copies, and the shared pages lose a reference (R308). -/
def State.keepTaken (s : State) (p : Nat) (k : Taken) : State :=
  let s := k.renames.foldl (fun s e => s.writeZ p e.1 (leBytes 4 e.2)) s
  k.shared.foldl (fun s n => s.dropPage p n none) s

/-- Pages that positions start to start + len - 1 would take. -/
def State.pagesNeeded (s : State) (p idx : Nat) (m : Model) (r : Request) (start len : Nat) : Nat :=
  let g := groupsOf start len
  ((groupLayers m g.1 g.2).filter (fun e =>
    let n := s.readN p (r.dirAt m e.2 e.1) 4
    n = noPage || s.copies p idx start e.1)).length

/-! ### The handle registry (R306) -/

/-- The slots probed for handle h, in order. -/
def State.probes (s : State) (p h : Nat) : List Nat :=
  let z := s.handleLog2 p
  let start := h * 0x9E3779B97F4A7C15 % 2 ^ 64 / 2 ^ (64 - z)
  (List.range 32).map (fun i => (start + i) % 2 ^ z)

/-- A registry slot's handle, STATE, LENGTH, DIR_BASE, MODEL, SHARERS. -/
structure Handle where
  handle : Nat
  st : Nat
  len : Nat
  dir : Nat
  model : Nat
  sharers : Nat
  deriving DecidableEq, Repr

def State.handleAt (s : State) (p i : Nat) : Handle :=
  let b := s.readZ p (s.handleAddr p i) 32
  ⟨fld b 0 8, fld b 8 1 % 4, fld b 0xC 4, fld b 0x10 8, fld b 0x18 2, fld b 0x1C 4⟩

def State.setHandle (s : State) (p i : Nat) (h : Handle) : State :=
  s.writeZ p (s.handleAddr p i) (leBytes 8 h.handle ++ leBytes 4 h.st ++ leBytes 4 h.len ++ leBytes 8 h.dir ++ leBytes 2 h.model ++ leBytes 2 0 ++ leBytes 4 h.sharers)

/-- The probed slots up to the first that ends the probe: empty, or valid and holding h. -/
def State.probed (s : State) (p h : Nat) : List Nat :=
  let l := s.probes p h
  match l.findIdx? (fun i => let e := s.handleAt p i; e.st = 0 || (e.st = 1 && e.handle = h)) with
  | some k => l.take (k + 1)
  | none => l

/-- The valid slot that holds handle h. -/
def State.findHandle (s : State) (p h : Nat) : Option Nat :=
  (s.probed p h).find? (fun i => (s.handleAt p i).st = 1 && (s.handleAt p i).handle = h)

/-- The slot an insertion takes. -/
def State.freeHandle (s : State) (p h : Nat) : Option Nat := (s.probed p h).find? (fun i => (s.handleAt p i).st ≠ 1)

/-! ### Forward lists (R298) -/

/-- The records of a list become commands under a STEP's or a pass's number; or the status with which they end it. -/
def State.spawn (s : State) (p seq addr count : Nat) : Except (Nat × Nat) State :=
  let r := listRecords (s.srvReader p (some ⟨seq, 0⟩)) addr count
  if !r.2 then .error (stLIST_FETCH, 0)
  else
    r.1.zipIdx.foldl (fun (a : Except (Nat × Nat) State) e => match a with
      | .error x => .error x
      | .ok s =>
        let b := e.1.2
        let op := fld b 1 1
        let c := newCmd ⟨seq, e.2 + 1⟩ p op (hdrOf b) (b.drop 64)
        if op = opSTEP then .error (stBAD_OPCODE, 0)
        else match s.checks p op c.hdr c.body true true with
          | some j => .error (j.status, j.detail)
          | none => .ok { s with cmds := s.cmds ++ [c] }) (.ok s)

/-- The records of this number still to commit. -/
def State.recordsLeft (s : State) (seq : Nat) : Bool := s.cmds.any (fun c => c.ref.seq = seq && c.ref.sub ≠ 0)

/-! ### Masks (R283, R284) -/

/-- The chain of states from `st` over draft tokens: it stops after a malformed state, and after the first state reached through a token
that its mask forbids. DEDUCED (log entry 72). -/
def Grammar.chain (g : Grammar) (rd : Reader) : Nat → List Nat → Except MemErr (List (Nat × GState))
  | st, ds =>
    match g.state rd st, ds with
    | .error e, _ => .error e
    | .ok x, [] => .ok [(st, x)]
    | .ok (.malformed i n), _ => .ok [(st, .malformed i n)]
    | .ok x, d :: t =>
      let nx := (x.next g st d).1
      if x.allows g d then
        match g.chain rd nx t with
        | .error e => .error e
        | .ok l => .ok ((st, x) :: l)
      else match g.state rd nx with
        | .error e => .error e
        | .ok y => .ok [(st, x), (nx, y)]

/-- The bytes of a state's mask. -/
def GState.maskBytes (x : GState) (g : Grammar) (n : Nat) : List Byte :=
  (List.range n).map (fun i => BitVec.ofNat 8 (((List.range 8).map (fun j => if x.allows g (8 * i + j) then 2 ^ j else 0)).sum))

/-- The automaton whose image stands at a pointer. -/
def State.grammarRead (s : State) (p ptr : Nat) (me : CmdRef) : Except MemErr Grammar := (s.srvReader p (some me) ptr 64).map grammarOf

/-- The automaton that a step captured for a slot; none where the slot is not one. DEDUCED (log entry 72). -/
def State.grammarAt (s : State) (p ptr : Nat) (me : CmdRef) : Option Grammar :=
  if ptr = 0 then none
  else match s.grammarRead p ptr me with
    | .ok g => some g
    | .error _ => none

/-- What a slot captured by a step points at, where it is of a KIND (R266). -/
def StepRun.ptr (t : StepRun) (kind slot : Nat) : Nat :=
  ((t.slots.find? (fun e => e.1 = slot && e.2.1 = kind)).map (fun e => e.2.2.2)).getD 0

/-- The cutter's chain for a request with a grammar slot: a malformed automaton's where the slot holds none; or the read that failed. DEDUCED (log entry 72). -/
def State.cutRead (s : State) (p : Nat) (t : StepRun) (r : Request) (draft : List Nat) : Except MemErr (List (Nat × GState)) :=
  if t.ptr 2 r.grammar = 0 then .ok [(r.gstate, .malformed 0xFFFFFFFF 0)]
  else match s.grammarRead p (t.ptr 2 r.grammar) t.cmd with
    | .error e => .error e
    | .ok g => g.chain (s.srvReader p (some t.cmd)) r.gstate draft

/-- The cutter's work for a request: its states with their masks; the mask of a state that cannot be read is empty. DEDUCED (log entry 72). -/
def State.cut (s : State) (p : Nat) (t : StepRun) (r : Request) (draft : List Nat) : List (Nat × GState) :=
  if r.grammar = 0xFFFF then []
  else match s.cutRead p t r draft with
    | .ok l => l
    | .error _ => [(r.gstate, .dead)]

/-- A state that a chain found malformed is dead from then on (R284). -/
def afterChain (l : List (Nat × GState)) (st : Nat) : Nat :=
  if l.any (fun e => e.1 = st && (match e.2 with | .malformed _ _ => true | _ => false)) then deadState else st

/-- FAULT or UE of a cutter or a strainer, for a read of the step that failed (R294, R295): page, master ID, slot, stream, and the status with
the failing address. A fault is logged as any access fault. -/
def State.textFault (s : State) (p page master slot stream : Nat) (e : Nat × Nat) (tag : Option (Nat × Nat)) : State :=
  let a := e.2 / 256
  if e.1 = stACCESS_FAULT then
    (s.accessFault (targetOf a) p master a tag).flagEvent page 2 1
      (slot % 2 ^ 10 + master * 2 ^ 16 + (if stream = 0xFFFF then 0xFFFFFFFF else stream) * 2 ^ 32) tag
  else if e.1 = stDATA_ERROR then s.flagEvent page 1 3 (a / 64 % 2 ^ 48 * 2 ^ 16) tag
  else s

/-- CUT's counts, MALFORMED, FAULT and UE (R293 to R295). DEDUCED (log entry 85). -/
def State.countCut (s : State) (p : Nat) (t : StepRun) (r : Request) (draft : List Nat) : State :=
  let i := s.choose 0xE5 8
  let page := pgCUT i
  let g := (s.grammarAt p (t.ptr 2 r.grammar) t.cmd).getD (grammarOf [])
  let l := s.cut p t r draft
  let tag := (s.cmd? t.cmd).bind Cmd.evTag
  let s := match s.cutRead p t r draft with
    | .error e => s.textFault p page (0x160 + i) r.grammar 0xFFFF (memFail e) tag
    | .ok _ => s
  let s := s.count page oCUT_MASKS l.length
  let s := s.count page oCUT_RUNS_READ ((l.map (fun e => e.2.runsRead)).sum)
  let s := s.count page oCUT_EMPTY_MASKS ((l.filter (fun e => e.2.isEmpty g)).length)
  match l.findSome? (fun e => match e.2 with | .malformed i _ => some i | _ => none) with
  | some i => (s.count page oCUT_MALFORMED 1).flagEvent page 3 2 (r.grammar % 1024 + i % 2 ^ 32 * 2 ^ 32) tag
  | none => s

/-! ### Batches (R313, R316) -/

/-- The draft tokens of a request, as its block reads now. -/
def State.draftOf (s : State) (p : Nat) (m : Model) (r : Request) (me : CmdRef) : List Nat :=
  if r.draft = 0 then []
  else match s.srvReader p (some me) r.draft 68 with
    | .error _ => []
    | .ok b => (List.range (min (min (fld b 0 1) 16) (min m.draftMax (m.maxPos - 1 - r.length)))).map (fun i => fld b (4 + 4 * i) 4)

/-- A list turned to begin with the first element of a test, if one meets it. -/
def rotateTo {α : Type} (l : List α) (f : α → Bool) : List α :=
  match l.findIdx? f with
  | some i => l.drop i ++ l.take i
  | none => l

/-- Requests of a model in a state, in admission order. -/
def State.requestsIn (s : State) (p mod : Nat) (f : Nat → Bool) : List (Nat × Request) :=
  byAdmission ((s.liveRequests p).filter (fun e => e.2.model = mod && f e.2.st))

/-- CHUNK.LEN (R327, R330): 0 without the mark. -/
def State.chunkLen (s : State) (p : Nat) : Nat :=
  let n := s.field (pgSRV p) oSRV_CHUNK 12 0
  if n = 0 || !((s.part p).chunkPriv) then 0 else min 4096 (max 256 n)

/-- The next chunk of a request (R325): it ends at a multiple of the chunk length past the request's LENGTH after admission. -/
def State.nextChunk (s : State) (p idx : Nat) (m : Model) (r : Request) : Chunk :=
  let n := if s.chunkLen p = 0 then m.pfRows else s.chunkLen p
  ⟨idx, r.length, min (n - (r.length - s.admitLen p idx) % n) (r.prompt - 1 - r.length)⟩

/-- One request offered to the batch that a step forms. -/
def State.offerRow (p mod : Nat) (m : Model) (a : State × StepRun × Nat) (e : Nat × Request) : State × StepRun × Nat :=
  let (s, t, rows) := a
  let d := s.draftOf p m e.2 t.cmd
  if m.batch < rows + 1 + d.length then (s, { t with satOut := t.satOut ++ [e.1] }, rows)
  else match s.pagesFor p e.1 mod m e.2 e.2.length (1 + d.length) with
    | (s, none) => (s, { t with satOut := t.satOut ++ [e.1], pageWait := t.pageWait ++ [e.1] }, rows)
    | (s, some k) => (s, { t with batch := t.batch ++ [(⟨e.1, rows, d⟩ : BatchRow)], taken := t.taken.add k }, rows + 1 + d.length)

/-- Chunks of the PREFILL requests offered to a step in admission order (R327), with the rows and the chunk tokens so far: the
first chunk that would exceed CHUNK.LEN or BATCH_MAX ends them; one whose pages cannot be had sits out. DEDUCED (log entry 68). -/
def State.offerChunks (p mod : Nat) (m : Model) : List (Nat × Request) → State → StepRun → Nat → Nat → State × StepRun
  | [], s, t, _, _ => (s, t)
  | e :: es, s, t, rows, sum =>
    let c := s.nextChunk p e.1 m e.2
    if s.chunkLen p < sum + c.len || m.batch < rows + c.len then (s, t)
    else match s.pagesFor p e.1 mod m e.2 c.start c.len with
      | (s, none) => State.offerChunks p mod m es s { t with satOut := t.satOut ++ [e.1], pageWait := t.pageWait ++ [e.1] } rows sum
      | (s, some k) => State.offerChunks p mod m es s { t with chunks := t.chunks ++ [c], taken := t.taken.add k } (rows + c.len) (sum + c.len)

/-- The step that ACTION 0 forms at its issue. Requests that drain keep running with the others (R324). DEDUCED (log entry 66). -/
def State.formStep (s : State) (c : Cmd) (mod : Nat) (m : Model) : State × StepRun :=
  let p := c.part
  let ready := s.requestsIn p mod (fun st => st = rqRUNNING || st = rqDRAINING)
  let ready := ready.filter (fun e => e.2.prompt ≤ e.2.length + 1)
  let first := ((s.srv p).turn.find? (fun e => e.1 = mod)).map (·.2)
  let order := match first with | some i => rotateTo ready (fun e => e.1 = i) | none => ready
  let slots := (firsts [] (m.trie :: (ready.map (fun e => e.2.grammar)).filter (· ≠ 0xFFFF))).map (fun i =>
    (i, (s.text i).kind, (s.text i).version, (s.text i).ptr))
  let t : StepRun := ⟨mod, c.ref, [], [], [], [], slots, noTaken⟩
  let (s, t, rows) := order.foldl (State.offerRow p mod m) (s, t, 0)
  if s.chunkLen p = 0 then (s, t)
  else
    let r := (s.requestsIn p mod (fun st => st = rqPREFILL || st = rqDRAINING)).filter (fun e => e.2.length + 1 < e.2.prompt)
    State.offerChunks p mod m r s t rows 0

/-! ### Contexts (R298, R313) -/

/-- A pointer-list entry of a context. -/
def ctxEntry (r : Request) (len pos : Nat) : List Byte :=
  leBytes 8 0 ++ leBytes 8 r.dir ++ leBytes 8 0 ++ leBytes 4 len ++ leBytes 4 (pos + 3 * 2 ^ 30)

/-- The input token of a request (R301). -/
def State.inputToken (s : State) (p idx : Nat) (r : Request) (me : CmdRef) : Nat :=
  if r.generated = 0 then
    match s.srvReader p (some me) (r.promptBase + 4 * (r.prompt - 1)) 4 with
    | .ok b => leNat b
    | .error _ => 0
  else (((s.srv p).last.find? (fun e => e.1 = idx)).map (·.2)).getD 0

/-- Prompt tokens of a chunk. -/
def State.chunkTokens (s : State) (p : Nat) (r : Request) (c : Chunk) (me : CmdRef) : List Nat :=
  match s.srvReader p (some me) (r.promptBase + 4 * c.start) (4 * c.len) with
  | .ok b => (List.range c.len).map (fun i => fld b (4 * i) 4)
  | .error _ => List.replicate c.len 0

/-- HEAD, TOK, POS and PLIST written. -/
def State.writeContext (s : State) (p : Nat) (lay : List Nat) (toks pos : List Nat) (es : List (List Byte)) : State :=
  let s := s.writeZ p (nth 0 lay 0) (leBytes 4 toks.length ++ leBytes 4 es.length ++ List.replicate 56 0#8)
  let s := s.writeZ p (nth 0 lay 1) (toks.flatMap (leBytes 4))
  let s := s.writeZ p (nth 0 lay 2) (pos.flatMap (leBytes 4))
  s.writeZ p (nth 0 lay 3) es.flatten

/-- The parameter block of row j of a request (R255, R313). -/
def paramBlock (r : Request) (j mask : Nat) : List Byte :=
  leBytes 8 r.seed ++ leBytes 4 r.step ++ leBytes 4 j ++ leBytes 4 r.temp ++ leBytes 4 r.topK ++ leBytes 4 r.topP ++ leBytes 4 0
    ++ leBytes 8 mask ++ leBytes 8 0

/-- A step's context filled. -/
def State.fillStep (s : State) (p : Nat) (m : Model) (t : StepRun) : State :=
  let lay := m.layout m.ctx m.batch
  let rs := t.batch.map (fun b => (b, s.request p b.req))
  let cs := t.chunks.map (fun c => (c, s.request p c.req))
  let toks := rs.flatMap (fun e => s.inputToken p e.1.req e.2 t.cmd :: e.1.draft) ++ cs.flatMap (fun e => s.chunkTokens p e.2 e.1 t.cmd)
  let pos := rs.flatMap (fun e => List.range' e.2.length (1 + e.1.draft.length)) ++ cs.flatMap (fun e => List.range' e.1.start e.1.len)
  let es := rs.map (fun e => ctxEntry e.2 (e.2.length + 1 + e.1.draft.length) e.2.length)
    ++ cs.map (fun e => ctxEntry e.2 (e.1.start + e.1.len) e.1.start)
  let s := s.writeContext p lay toks pos es
  rs.foldl (fun s e =>
    let l := s.cut p t e.2 e.1.draft
    let g := (s.grammarAt p (t.ptr 2 e.2.grammar) t.cmd).getD (grammarOf [])
    let s := if l = [] then s else s.countCut p t e.2 e.1.draft
    (List.range (1 + e.1.draft.length)).foldl (fun s j =>
      let n := e.1.row + j
      let at_ := if e.2.grammar = 0xFFFF then 0 else nth 0 lay 5 + n * m.maskBytes
      let s := s.writeZ p (nth 0 lay 4 + 48 * n) (paramBlock e.2 j at_)
      if at_ = 0 then s
      else s.writeZ p at_ (match l[j]? with
        | some x => x.2.maskBytes g m.maskBytes
        | none => List.replicate m.maskBytes 0#8)) s) s

/-! ### The issue of an ACTION 0 step (R313, R315) -/

/-- A step's issue, past the conditions of R148: its batch, pages, context and records. -/
def State.startStep (s : State) (c : Cmd) : State :=
  let d := stepOf c.body
  match s.model? c.part d.model with
  | none => s.failCmd c stACCESS_FAULT 0
  | some m =>
    let (s, t) := s.formStep c d.model m
    let s := s.srvReads c.part (s.srvTable c.part :: (t.batch.map (·.req) ++ t.chunks.map (·.req)).map (fun i => dirRange m (s.request c.part i).dir))
    if (t.ptr 1 m.trie) = 0 && t.batch.any (fun b => (s.request c.part b.req).stream ≠ 0xFFFF) then
      (s.giveBack c.part t.taken).failCmd c stBAD_DESCRIPTOR 0
    else
      let s := s.modSrv c.part (fun v => { v with steps := v.steps ++ [t] })
      let s := s.setField (pgSTP c.part) oSTP_STP_STATUS 15 0 d.model
      if t.batch = [] && t.chunks = [] then s
      else
        let s := s.fillStep c.part m t
        match s.spawn c.part c.ref.seq m.fwd m.fwdCount with
        | .ok s => s
        | .error e => s.failCmd c e.1 e.2

/-! ### Prefill passes (R325, R326) -/

/-- The acceptance number under which the records of a model's passes run. -/
def passSeq (p mod : Nat) : Nat := 2 ^ 64 + p * 16 + mod

/-- The request whose pass comes next for a model (R326): the one its last pass was for until its prompt is filled, then the
oldest PREFILL request. DEDUCED (log entry 68). -/
def State.passTurn (s : State) (q mod : Nat) : Option Nat :=
  let l := (s.requestsIn q mod (fun st => st = rqPREFILL || st = rqDRAINING)).filter (fun e => e.2.length + 1 < e.2.prompt)
  match l.find? (fun e => (s.srv q).filling.contains (mod, e.1)) with
  | some e => some e.1
  | none => l.head?.map (·.1)

/-- PREFILL_PASS_START (R326): the next pass of the request whose turn it is, where none of its model is in flight and its pages
can be allocated. DEDUCED (log entry 68). -/
def execPrefillPassStart (p : Fin 16) (request : Nat) (s : State) : Host.Outcome State Fault Refusal :=
  let q := p.val
  let r := s.request q request
  let on := (s.srv q).enabled && request < 2 ^ s.reqLog2 q && (s.part q).st = .active && s.chunkLen q = 0
    && (r.st = rqPREFILL || r.st = rqDRAINING) && r.length + 1 < r.prompt && !((s.srv q).passes.any (fun t => t.model = r.model))
  match s.model? q r.model with
  | none => done s
  | some m =>
    if !on || s.passTurn q r.model ≠ some request then done s
    else
      let c := s.nextChunk q request m r
      match s.pagesFor q request r.model m r c.start c.len with
      | (_, none) => done s
      | (u, some k) =>
        let seq := passSeq q r.model
        let u := u.srvReads q [u.srvTable q, dirRange m r.dir]
        let u := u.modSrv q (fun v => { v with
          passes := v.passes ++ [(⟨r.model, ⟨seq, 0⟩, c, k⟩ : PassRun)]
          filling := (r.model, request) :: v.filling.filter (fun e => e.1 ≠ r.model) })
        let u := u.writeContext q (m.layout m.pfCtx m.pfRows) (u.chunkTokens q r c ⟨seq, 0⟩) (List.range' c.start c.len) [ctxEntry r (c.start + c.len) c.start]
        match u.spawn q seq m.pf m.pfCount with
        | .ok t => done t
        | .error _ => done (u.dropPass q seq true)

/-- PREFILL_PASS_COMMIT (R326): the pass's positions enter LENGTH; its directory names the pages that it copied (R308). DEDUCED (log entry 68). -/
def execPrefillPassCommit (p : Fin 16) (request : Nat) (s : State) : Host.Outcome State Fault Refusal :=
  let q := p.val
  match (s.srv q).passes.find? (fun t => t.chunk.req = request) with
  | none => done s
  | some t =>
    if s.recordsLeft t.cmd.seq then done s
    else
      let r := s.request q request
      let s := s.setRequest q request { r with length := t.chunk.start + t.chunk.len }
      let s := s.keepTaken q t.taken
      let s := s.count (pgSTP q) oSTP_PREFILL_ROWS t.chunk.len
      done (s.modSrv q (fun v => { v with passes := v.passes.filter (fun u => u.cmd ≠ t.cmd) }))

end Sys2Proof.Machine
end

