-- ==== Sys2Proof/Machine/Boundary.lean ====
section
/-! DEFINITION. Step boundaries (12): sampling and verification of a step's rows (R315 to R318), the eight orders of a boundary (R319),
cancellation (R321 to R324), admission (R307, R311), publication (R309), spill (R305), handles (R310), and serving on and off
(R330, R584). -/

namespace Sys2Proof.Machine

/-! ### What a step made of a request (R315 to R317) -/

/-- END codes of an end record (R317, R320). -/
def endTOKEN : Nat := 0
def endSTOP : Nat := 1
def endMAXNEW : Nat := 2
def endMAXPOS : Nat := 3
def endEMPTY : Nat := 4
def endCANCELLED : Nat := 5
def endPAGES : Nat := 6
def endDATA : Nat := 7

/-- The fate of a batch request: tokens kept, drafts accepted, GSTATE after them, the strainer's run, and its end where it ends; what the sieves
counted (rows, keys, passes, NaN, samples), and the strainer's read that failed: status and address. -/
structure Fate where
  req : Nat
  kept : List Nat
  accepted : Nat
  gstate : Nat
  run : Strained
  ending : Option Nat
  sieved : List Nat
  fault : Option (Nat × Nat)
  deriving DecidableEq, Repr

/-- Verification (R316) from row j on: tokens kept, drafts accepted, whether the last row's mask was empty. DEDUCED (log entry 69). -/
def verify (pick : Nat → Option Nat) : Nat → List Nat → List Nat × Nat × Bool
  | j, [] => match pick j with
    | none => ([], 0, true)
    | some t => ([t], 0, false)
  | j, d :: ds => match pick j with
    | none => ([], 0, true)
    | some t =>
      if t = d then
        let r := verify pick (j + 1) ds
        (t :: r.1, r.2.1 + 1, r.2.2)
      else ([t], 0, false)

/-- How kept tokens are examined (R317): tokens kept so far, GSTATE, strainer. -/
structure Examined where
  kept : List Nat
  gstate : Nat
  run : Strained
  ending : Option Nat
  deriving DecidableEq, Repr

/-- The kept tokens examined in order; the first that ends the request is the last. `chain` are the states from the next row on, `str` a
token's string. DEDUCED (log entry 69). -/
def examine (m : Model) (r : Request) (g : Option Grammar) (stops : StopSet) (str : Nat → Except (Nat × Nat) (Option (List Byte))) :
    List Nat → List (Nat × GState) → Examined → Except (Nat × Nat) Examined
  | [], _, x => .ok x
  | k :: ks, chain, x =>
    let next := match g, chain.head? with
      | some g, some e => e.2.next g e.1 k
      | _, _ => (x.gstate, false)
    let text : Except (Nat × Nat) Strained :=
      if r.stream = 0xFFFF || x.run.st.stopped then .ok x.run
      else match str k with
        | .error e => .error e
        | .ok b => .ok (strainTok stops false b x.run)
    match text with
    | .error e => .error e
    | .ok run =>
      let n := x.kept.length + 1
      let ending :=
        if m.ends.contains k && k ≠ 0xFFFFF || next.2 then some endTOKEN
        else if run.stop then some endSTOP
        else if r.maxNew ≤ r.generated + n then some endMAXNEW
        else if m.maxPos ≤ r.length + n then some endMAXPOS
        else none
      let y : Examined := ⟨x.kept ++ [k], next.1, run, ending⟩
      if ending.isSome then .ok y else examine m r g stops str ks (chain.drop 1) y

/-- What the sieves count for the sampled rows of a request: rows, keys, passes, NaN, samples (R261, R583). -/
def sievedOf (l : List (Sampled × Nat)) : List Nat :=
  let keys := l.map (fun e => e.2 - e.1.nan - e.1.dropped)
  [l.length, 4 * keys.sum, 4 * (keys.filter (· ≠ 0)).length, (l.map (fun e => e.1.nan)).sum, l.length]

/-- The parts of the step's context that the step uses, but for LOGITS, are read through; an error in them is the STEP's own (R318). -/
def State.contextRead (s : State) (p : Nat) (m : Model) (t : StepRun) : Except (Nat × Nat) Unit :=
  let lay := m.layout m.ctx m.batch
  let own := (t.batch.map (fun b => 1 + b.draft.length)).sum
  let rows := own + (t.chunks.map (·.len)).sum
  let masks := (t.batch.filter (fun b => (s.request p b.req).grammar ≠ 0xFFFF)).map (fun b =>
    (nth 0 lay 5 + b.row * m.maskBytes, (1 + b.draft.length) * m.maskBytes))
  match mapE (fun (e : Nat × Nat) => s.srvReader p (some t.cmd) e.1 e.2)
      ([(nth 0 lay 0, 64), (nth 0 lay 1, 4 * rows), (nth 0 lay 2, 4 * rows), (nth 0 lay 3, 32 * (t.batch.length + t.chunks.length)),
        (nth 0 lay 4, 48 * own)] ++ masks) with
  | .error e => .error (memFail e)
  | .ok _ => .ok ()

/-- The fate of one batch request; an error is the STEP's own (R318). -/
def State.fateOf (s : State) (p : Nat) (m : Model) (t : StepRun) (b : BatchRow) : Except (Nat × Nat) Fate :=
  let r := s.request p b.req
  let rd := s.srvReader p (some t.cmd)
  let lay := m.layout m.ctx m.batch
  let chain := s.cut p t r b.draft
  let g := s.grammarAt p (t.ptr 2 r.grammar) t.cmd
  let fl : Word → Word := match s.cmd? t.cmd with | some c => c.applier.fl | none => id
  let rows : Except MemErr (List (List Word)) := mapE (fun j => match rd (nth 0 lay 6 + (b.row + j) * m.logitBytes) (4 * m.vocab) with
    | .error e => .error e
    | .ok l => .ok ((List.range m.vocab).map (fun i => BitVec.ofNat 32 (fld l (4 * i) 4)))) (List.range (1 + b.draft.length))
  match rows with
  | .error e => .error (memFail e)
  | .ok rows =>
    let sampled := fun (j : Nat) =>
      let allow := fun (i : Nat) => r.grammar = 0xFFFF || (match g, chain[j]? with
        | some g, some e => e.2.allows g i
        | _, _ => false)
      sampleRow fl ⟨BitVec.ofNat 64 r.seed, r.step, j, BitVec.ofNat 32 r.temp, r.topK, BitVec.ofNat 32 r.topP, 0⟩ ((nth [] rows j).map fl) allow
    let sieved := sievedOf ((List.range (1 + b.draft.length)).map (fun j => (sampled j, m.vocab)))
    let v := verify (fun j => (sampled j).pick) 0 b.draft
    let entry := s.strainEntry p r.stream
    let st : Strain := match entry with
      | some a => strainOf (s.readZ p a 128)
      | none => Strain.start
    let start : Strained := ⟨st, [], 0, 0, 0, 0, false⟩
    let ended := fun (e : Option (Nat × Nat)) => (⟨b.req, [], 0, r.gstate, start, some endDATA, sieved, e⟩ : Fate)
    let stream := match entry with
      | some a => match rd a 128 with
        | .error e => some (memFail e)
        | .ok _ => none
      | none => none
    let trie := if r.stream = 0xFFFF then .ok [] else rd (t.ptr 1 m.trie) 64
    if s.reqPoison p m b.req then .ok (ended none)
    else match stream, readStops rd r.stop, trie with
      | some e, _, _ => .ok (ended (some e))
      | none, .error e, _ => .ok (ended (if e.1 = stDATA_ERROR then some e else none))
      | none, .ok _, .error e => .ok (ended (some (memFail e)))
      | none, .ok stops, .ok hd =>
        match examine m r g stops ((trieOf hd).string rd) v.1 chain ⟨[], r.gstate, start, none⟩ with
        | .error e => .ok (ended (some e))
        | .ok x => .ok ⟨b.req, x.kept, v.2.1, afterChain chain x.gstate, x.run, if v.2.2 && x.ending.isNone then some endEMPTY else x.ending, sieved, none⟩

/-! ### What a boundary gathers -/

/-- A boundary in progress: the model, ends, text by request, tokens written, and STEP commands resolved with their COUNT. -/
structure Bound where
  p : Nat
  mod : Nat
  ends : List (Nat × Nat)
  texts : List (Nat × List Rec)
  tokens : Nat
  commits : List (CmdRef × Nat)
  endRecs : List (Nat × Rec)
  deriving DecidableEq, Repr

/-! ### Order 1: cancels (R321 to R323) -/

/-- A CANCEL packet to every other stage of a model's pipeline. -/
def State.sendCancel (s : State) (p : Nat) (m : Model) (tag code : Nat) : State :=
  let k := tabGet commNone s.net.comms m.comm
  ((List.range k.members).filter (· ≠ k.rank)).foldl (fun s j =>
    s.fabQueue (memberConn p (s.memberOf k j)) [⟨0, fbCANCEL, fabHdr0 m.comm tag, leBytes 1 code ++ leBytes 1 m.stage, none, 0, 0, false, 0⟩]) s

/-- The first stage of a pipeline that has not acknowledged. -/
def missingAck (m : Model) (acks : List Nat) : Option Nat := (List.range m.stages).find? (fun j => j ≠ m.stage && !(acks.contains j))

/-- RESULT of a cancel entry, and the entry of the cancel table freed. -/
def State.resolveCancel (s : State) (p : Nat) (e : CancelEntry) (code : Nat) : State :=
  let s := match s.cmd? e.cmd with
    | some c => if e.notified then s else s.writeZ p ((stepOf c.body).list + 16 * e.entry + 8) (leBytes 1 code)
    | none => s
  s.modSrv p (fun v => { v with cancels := v.cancels.filter (· ≠ e) })

/-- The request drains: no further output, and its end comes where it would have come (R324). -/
def State.drainRequest (s : State) (p i : Nat) : State :=
  let r := s.request p i
  (s.setRequest p i ({ (r.flag 5 true).flag 4 false with st := rqDRAINING })).count (pgSRV p) oSRV_DEFERRED 1

/-- One cancel of the model, at order 1; a further entry of a TAG that an earlier one has resolved gets the same RESULT and does nothing more. DEDUCED (log entry 67). -/
def State.cancelOne (m : Model) (fates : List Fate) (a : State × Bound) (e : CancelEntry) : State × Bound :=
  let (s, b) := a
  let r := s.request b.p e.request
  let finished := fates.any (fun f => f.req = e.request && (match f.ending with | some c => c ≤ endEMPTY | none => false))
  let gone := !(r.live) || r.tag ≠ e.tag
  if e.notified then
    if gone then (s.resolveCancel b.p e 0, b)
    else if b.ends.any (fun x => x.1 = e.request) then (s.resolveCancel b.p e 0, b)
    else if e.confirmed then (s.resolveCancel b.p e 0, { b with ends := b.ends ++ [(e.request, endCANCELLED)] })
    else if e.deferred then ((s.resolveCancel b.p e 0).drainRequest b.p e.request, b)
    else (s, b)
  else if finished || gone then (s.resolveCancel b.p e 2, b)
  else if b.ends.any (fun x => x.1 = e.request) then (s.resolveCancel b.p e 1, b)
  else match missingAck m e.acks with
    | some j =>
      if r.st = rqDRAINING then (s.resolveCancel b.p e 3, b) else
      let s := ((s.resolveCancel b.p e 3).drainRequest b.p e.request).sendCancel b.p m e.tag 4
      (s.flagEvent (pgSRV b.p) 5 5 (j % 256 + e.request % 2 ^ 32 * 2 ^ 32) none, b)
    | none =>
      let s := s.resolveCancel b.p e 1
      let s := if 1 < m.stages then s.sendCancel b.p m e.tag 3 else s
      (s, { b with ends := b.ends ++ [(e.request, endCANCELLED)] })

/-- DEDUCED (log entry 67). -/
def State.order1 (s : State) (b : Bound) (m : Model) (fates : List Fate) : State × Bound :=
  (((s.srv b.p).cancels.filter (fun e => e.model = b.mod)).foldl (State.cancelOne m fates) (s, b))

/-! ### Order 2: tokens, text, states -/

/-- Whether a request has ended at this boundary. -/
def Bound.cancelled (b : Bound) (i : Nat) : Bool := b.ends.any (fun e => e.1 = i)

/-- What a request's rows count on the engines' pages, whether it is cancelled or not (R261, R293, R328, R583), and the strainer's FAULT or UE. DEDUCED (log entry 85). -/
def State.countFate (s : State) (p : Nat) (m : Model) (t : StepRun) (f : Fate) : State :=
  let r := s.request p f.req
  let i := s.choose (0xE6 + f.req) 8
  let page := pgSTN i
  let tag := (s.cmd? t.cmd).bind Cmd.evTag
  let s := match f.fault with
    | some e => s.textFault p page (0x158 + i) m.trie r.stream e tag
    | none => s
  let s := [oSIV_ROWS, oSIV_KEYS, oSIV_PASSES, oSIV_NAN, oSIV_SAMPLES].zipIdx.foldl (fun s e =>
    State.splitCount e.1 (nth 0 f.sieved e.2) f.req (s.diePages p 4 pgSIV) s) s
  let s := s.count page oSTN_TOKENS f.run.consumed
  let s := s.count page oSTN_BYTES_OUT f.run.text.length
  let s := s.count page oSTN_STOPS (b2n f.run.stop)
  let s := s.count page oSTN_REPLACED f.run.replaced
  s.count (pgSTP p) oSTP_ACCEPTED f.accepted

/-- One request's tokens written and its entry, stream entry and grammar state brought up to date. DEDUCED (log entry 69). -/
def State.applyFate (a : State × Bound) (f : Fate) : State × Bound :=
  let (s, b) := a
  if b.cancelled f.req then (s, b)
  else if f.ending = some endDATA then (s, { b with ends := b.ends ++ [(f.req, endDATA)] })
  else
    let p := b.p
    let r := s.request p f.req
    let n := f.kept.length
    let s := if r.dropsOut then s else s.writeZ p (r.out + 4 * r.generated) (f.kept.flatMap (leBytes 4))
    let s := s.setRequest p f.req { (r.flag 3 false) with
      generated := r.generated + n
      length := r.length + n
      step := (r.step + 1) % 2 ^ 32
      gstate := if r.grammar = 0xFFFF then r.gstate else f.gstate }
    let s := match f.kept.getLast? with
      | some k => s.modSrv p (fun v => { v with last := (f.req, k) :: v.last.filter (fun e => e.1 ≠ f.req) })
      | none => s
    let fin : Strain := { f.run.st with
      tokens := f.run.st.tokens + f.run.consumed
      bytesOut := f.run.st.bytesOut + f.run.text.length }
    let s := match s.strainEntry p r.stream with
      | some e => if f.run.consumed = 0 then s else s.writeZ p e fin.bytes
      | none => s
    let text := if r.dropsOut then [] else (textCuts f.run.text.length f.run.text).map (fun x => textRec r.tag r.stream x)
    (s, { b with
      tokens := b.tokens + (if r.dropsOut then 0 else n)
      texts := b.texts ++ [(f.req, text)]
      ends := match f.ending with
        | some c => b.ends ++ [(f.req, c)]
        | none => b.ends })

/-- Order 2 of a step's boundary. DEDUCED (log entry 67). -/
def State.order2 (s : State) (b : Bound) (m : Model) (t : StepRun) (fates : List Fate) : State × Bound :=
  let p := b.p
  let s := fates.foldl (fun s f => s.countFate p m t f) s
  let broken := (t.chunks.filter (fun c => !(b.cancelled c.req) && s.reqPoison p m c.req)).map (·.req)
  let (s, b) := fates.foldl State.applyFate (s, b)
  let s := t.pageWait.foldl (fun s i => s.setRequest p i ((s.request p i).flag 3 true)) s
  let s := s.keepTaken p t.taken
  let b : Bound := { b with ends := b.ends ++ broken.map (fun i => (i, endDATA)) }
  let s := t.chunks.foldl (fun s c => if b.cancelled c.req then s
    else (s.setRequest p c.req { ((s.request p c.req).flag 3 false) with length := c.start + c.len }).count (pgSTP p) oSTP_PREFILL_ROWS c.len) s
  let s := s.modSrv p (fun v => { v with
    turn := (v.turn.filter (fun e => e.1 ≠ b.mod)) ++ (match t.satOut.find? (fun i => let r := s.request p i; r.prompt ≤ r.length + 1) with | some i => [(b.mod, i)] | none => []) })
  let rows := (t.batch.map (fun x => 1 + x.draft.length)).sum + (t.chunks.map (·.len)).sum
  let s := s.count (pgSTP p) oSTP_STEPS 1
  let s := s.count (pgSTP p) oSTP_ROWS rows
  let s := s.count (pgSTP p) oSTP_SIT_OUTS t.satOut.length
  let s := s.count (pgSTP p) oSTP_DRAFTED ((t.batch.map (fun x => x.draft.length)).sum)
  let s := s.setStored (pgSTP p) oSTP_STEP_TICKS 0 (BitVec.ofNat 32 (s.choose 0xE7 (2 ^ 32)))
  if t.batch = [] && t.chunks = [] && t.pageWait ≠ [] then
    let s := s.count (pgSTP p) oSTP_EMPTY_STEPS 1
    match ((s.requestsIn p b.mod (fun _ => true)).filter (fun e => e.2.waits && !(b.cancelled e.1))).getLast? with
    | some e => (s.flagEvent (pgSRV p) 2 2 (b.mod % 2 ^ 16 + e.1 % 2 ^ 32 * 2 ^ 32) none, { b with ends := b.ends ++ [(e.1, endPAGES)] })
    | none => (s, b)
  else (s, b)

/-! ### Order 3: releases -/

/-- The end record of a request (R320, R324); a cancelled request has not run to its end, though it drained. -/
def State.endRecord (s : State) (r : Request) (code stop : Nat) : Rec :=
  let ran := r.st = rqDRAINING && code ≠ endCANCELLED
  let code := if ran then endCANCELLED else code
  let flags := b2n r.missed + 2 * b2n r.unpublished + 4 * b2n ran
  ⟨[leBytes 8 r.tag ++ [0x04#8, BitVec.ofNat 8 code] ++ leBytes 2 flags ++ [BitVec.ofNat 8 (if code = endSTOP then stop else 0xFF), 0#8, 0#8, 0#8]
    ++ leBytes 4 r.generated ++ leBytes 4 r.length ++ leBytes 8 s.time], none⟩

/-- A request leaves: its pages, its place among a prefix's sharers, its entry. -/
def State.releaseRequest (s : State) (p i : Nat) (m : Model) : State :=
  let r := s.request p i
  let s := match (s.srv p).passes.find? (fun t => t.chunk.req = i) with
    | some t => s.dropPass p t.cmd.seq true
    | none => s
  let s := (s.pagesOfReq p m r).foldl (fun s e => s.dropPage p e.2 (some i)) s
  let s := match (s.srv p).sharing.find? (fun e => e.1 = i) with
    | some e => let h := s.handleAt p e.2; s.setHandle p e.2 { h with sharers := h.sharers - 1 }
    | none => s
  let s := s.setRequest p i { r with st := rqFREE }
  let s := s.modSrv p (fun v => { v with
    last := v.last.filter (fun e => e.1 ≠ i)
    filling := v.filling.filter (fun e => e.2 ≠ i)
    admitLens := v.admitLens.filter (fun e => e.1 ≠ i)
    sharing := v.sharing.filter (fun e => e.1 ≠ i)
    published := v.published.filter (· ≠ i) })
  s.count (pgSRV p) oSRV_ENDS 1

/-- Whole pages of dead positions leave a request's directory (R317). -/
def State.dropDead (s : State) (p i : Nat) (m : Model) : State :=
  let r := s.request p i
  let lo := ceilDiv r.length 64
  (groupLayers m lo (m.maxPos / 64 - lo)).foldl (fun s e =>
    let a := r.dirAt m e.2 e.1
    let n := s.readN p a 4
    if n = noPage then s else (s.dropPage p n (some i)).writeZ p a (leBytes 4 noPage)) s

/-- References that dropped handles held (R310). -/
def State.releaseDrops (s : State) (p : Nat) : State :=
  let s := (s.srv p).drops.foldl (fun s d => match s.model? p d.2.2 with
    | none => s
    | some m => (groupLayers m 0 (ceilDiv d.2.1 64)).foldl (fun s e =>
        s.dropPage p (s.readN p (d.1 + 4 * (e.2 * (m.maxPos / 64) + e.1)) 4) none) s) s
  s.modSrv p (fun v => { v with drops := [] })

/-- Order 3. The end records are made from the entries before they are freed. DEDUCED (log entry 67). -/
def State.order3 (s : State) (b : Bound) (m : Model) (fates : List Fate) : State × Bound :=
  let recs := b.ends.map (fun e =>
    let stop := match fates.find? (fun f => f.req = e.1) with | some f => f.run.st.stopIndex | none => 0xFF
    (e.1, s.endRecord (s.request b.p e.1) e.2 stop))
  let s := b.ends.foldl (fun s e => s.releaseRequest b.p e.1 m) s
  let s := (fates.filter (fun f => !(b.cancelled f.req))).foldl (fun s f => s.dropDead b.p f.req m) s
  ((s.releaseDrops b.p).freePages b.p, { b with endRecs := recs })

/-! ### Order 4: prefill progress and publications -/

/-- A prefix is published (R309). -/
def State.publish (s : State) (p i : Nat) (m : Model) : State :=
  let r := s.request p i
  if !(r.publishes) || r.handle = 0 || !(r.missed) || r.unpublished || r.length < r.pubLen || (s.srv p).published.contains i then s
  else
    let s := s.srvReads p ((s.probed p r.handle).map (fun k => (s.handleAddr p k, 32)))
    let not_ := s.setRequest p i (r.flag 2 true)
    if (s.findHandle p r.handle).isSome then not_
    else match s.freeHandle p r.handle with
      | none => not_.flagEvent (pgSRV p) 3 3 r.handle none
      | some k =>
        let s := s.setHandle p k ⟨r.handle, 1, r.pubLen, r.dir, r.model, 0⟩
        let s := (groupLayers m 0 (ceilDiv r.pubLen 64)).foldl (fun s e =>
          let n := s.readN p (r.dirAt m e.2 e.1) 4
          if n = noPage then s else s.setPageRefs p n (s.pageRefs p n + 1)) s
        s.modSrv p (fun v => { v with published := insertNat v.published i, sharing := v.sharing.filter (fun e => e.2 ≠ k) })

/-- DEDUCED (log entry 67). -/
def State.order4 (s : State) (b : Bound) (m : Model) : State :=
  let p := b.p
  let all := s.requestsIn p b.mod (fun _ => true)
  let busy := (s.srv p).passes.map (fun t => t.chunk.req)
  let s := all.foldl (fun s e =>
    if (e.2.st = rqPREFILL || e.2.st = rqQUEUED) && e.2.prompt ≤ e.2.length + 1 && !(busy.contains e.1) then
      s.setRequest p e.1 { e.2 with st := rqRUNNING } else s) s
  let s := all.foldl (fun s e => s.publish p e.1 m) s
  let fits := fun (e : Nat × Request) =>
    let c := s.nextChunk p e.1 m e.2
    s.pagesNeeded p e.1 m e.2 c.start c.len ≤ s.hbmFree p + s.ddrFree p
  match (s.requestsIn p b.mod (fun st => st = rqQUEUED)).find? fits with
  | some e => s.setRequest p e.1 { e.2 with st := rqPREFILL }
  | none => s

/-! ### Order 5: admission (R307, R311) -/

/-- Results of an admit record. -/
def adOK : Nat := 0x01
def adMISS : Nat := 0x02
def adFULL : Nat := 0x10
def adBAD : Nat := 0x11
def adDUP : Nat := 0x12

/-- A text slot that the partition may use as an automaton of VOCAB. -/
def State.grammarFits (s : State) (p slot vocab : Nat) (me : CmdRef) : Bool :=
  slot < 1024 && within slot 1 (s.part p).xslots.1 (s.part p).xslots.2 && (s.text slot).kind = 2 &&
    (match s.grammarAt p (s.text slot).ptr me with
      | some g => g.vocab = vocab
      | none => false)

/-- A record that cannot be admitted (BAD_RECORD). DEDUCED (log entry 72). -/
def State.recordBad (s : State) (p mod : Nat) (m : Model) (r : Request) (me : CmdRef) : Bool :=
  let nan := fun (w : Nat) => bits w 30 23 = 255 && bits w 22 0 ≠ 0
  let rd := s.srvReader p (some me)
  let win := fun (wr : Bool) (a n : Nat) => s.mayAccess p opSTEP wr a n
  r.model ≠ mod || r.prompt = 0 || m.maxPos < r.prompt || r.maxNew = 0 || 2 ^ 31 < r.maxNew || nan r.temp || nan r.topP || 65536 < r.topK
    || [r.dir, r.promptBase, r.out, r.draft, r.stop].any (fun a => a % 64 ≠ 0)
    || (r.publishes && (r.pubLen = 0 || r.prompt ≤ r.pubLen))
    || !(win true r.dir (m.layers * (m.maxPos / 64) * 4)) || !(win false r.promptBase (4 * r.prompt)) || !(win true r.out (4 * r.maxNew))
    || (r.draft ≠ 0 && !(win false r.draft 68))
    || (r.stop ≠ 0 && (!(win false r.stop 16) || (match readStops rd r.stop with | .ok _ => false | .error _ => true)))
    || (r.stream ≠ 0xFFFF && (4096 ≤ r.stream || (s.part p).streamArea = 0))
    || (r.grammar ≠ 0xFFFF && !(s.grammarFits p r.grammar m.vocab me))

/-- The directory of a new request: empty, then the prefix's pages. -/
def State.fillDir (s : State) (p i : Nat) (m : Model) (r : Request) (h : Option Handle) : State :=
  let s := s.writeZ p r.dir (List.replicate (4 * (m.layers * (m.maxPos / 64))) 0xFF#8)
  match h with
  | none => s
  | some h => (groupLayers m 0 (ceilDiv h.len 64)).foldl (fun s e =>
      let n := s.readN p (h.dir + 4 * (e.2 * (m.maxPos / 64) + e.1)) 4
      if n = noPage then s
      else
        let t := (s.writeZ p (r.dirAt m e.2 e.1) (leBytes 4 n)).setPageRefs p n (s.pageRefs p n + 1)
        if t.pageReq p n = 0xFFFFFFFF then t.setPageReq p n i else t) s

/-- One admit record at address a: the state and whether it was admitted. -/
def State.admitOne (s : State) (p mod : Nat) (m : Model) (me : CmdRef) (a : Nat) : State × Bool :=
  let put := fun (s : State) (code idx seq : Nat) =>
    ((s.writeZ p (a + 8) (leBytes 1 code)).writeZ p (a + 0x10) (leBytes 4 idx)).writeZ p (a + 0x70) (leBytes 4 seq)
  match s.srvReader p (some me) a 128 with
  | .error _ => (put s adBAD 0xFFFFFFFF 0, false)
  | .ok bs =>
    let r := requestOf bs
    if s.recordBad p mod m r me then (put s adBAD 0xFFFFFFFF 0, false)
    else if r.tag = 0 || (s.liveRequests p).any (fun e => e.2.tag = r.tag) then (put s adDUP 0xFFFFFFFF 0, false)
    else match (List.range (2 ^ s.reqLog2 p)).find? (fun i => !((s.request p i).live)) with
      | none => (put s adFULL 0xFFFFFFFF 0, false)
      | some i =>
        let s := if r.handle = 0 then s else s.srvReads p ((s.probed p r.handle).map (fun k => (s.handleAddr p k, 32)))
        let k := if r.handle = 0 then none else s.findHandle p r.handle
        let k := k.filter (fun k => let h := s.handleAt p k; h.model = mod && h.len + 1 ≤ r.prompt)
        let miss := r.handle ≠ 0 && k.isNone
        let seq := ((s.srv p).admitted + 1) % 2 ^ 32
        let len := match k with | some k => (s.handleAt p k).len | none => 0
        let s := s.modSrv p (fun v => { v with
          admitted := seq
          admitLens := (i, len) :: v.admitLens
          sharing := match k with | some k => (i, k) :: v.sharing | none => v.sharing })
        let s := s.fillDir p i m r (k.map (s.handleAt p))
        let s := match k with
          | some k => (s.setHandle p k { (s.handleAt p k) with sharers := (s.handleAt p k).sharers + 1 }).count (pgSRV p) oSRV_PREFIX_HITS 1
          | none => if miss then s.count (pgSRV p) oSRV_PREFIX_MISSES 1 else s
        let g := if r.grammar = 0xFFFF then 0
          else match s.grammarAt p (s.text r.grammar).ptr me with | some g => g.start | none => 0
        let s := s.setRequest p i { r with
          st := rqQUEUED
          flags := b2n r.publishes + 2 * b2n miss
          length := len
          generated := 0
          step := 0
          gstate := g
          seq := seq }
        (put (s.count (pgSRV p) oSRV_ADMITS 1) (if miss then adMISS else adOK) i seq, true)

/-- The issued ACTION 1 commands of the model, in acceptance order. DEDUCED (log entry 67). -/
def State.order5 (s : State) (b : Bound) (m : Model) : State × Bound :=
  let cs := s.cmds.filter (fun c => c.part = b.p && c.opcode = opSTEP && c.phase = .issued && (stepOf c.body).action = 1 && (stepOf c.body).model = b.mod)
  cs.foldl (fun (a : State × Bound) c =>
    let d := stepOf c.body
    let r := (List.range d.count).foldl (fun (x : State × Nat) i =>
      let y := x.1.admitOne b.p b.mod m c.ref (d.list + 128 * i)
      (y.1, x.2 + b2n y.2)) (a.1, 0)
    (r.1, { a.2 with commits := a.2.commits ++ [(c.ref, r.2)] })) (s, b)

/-! ### Order 6: spill (R305) -/

/-- The page that moves next: its directory entry, page number. -/
def State.spillPick (s : State) (p : Nat) : Option (Nat × Nat) :=
  (byAdmission (s.liveRequests p)).findSome? (fun e => match s.model? p e.2.model with
    | none => none
    | some m =>
      ((List.range m.layers).flatMap (fun y => (List.range (e.2.length / 64)).map (fun g => (g, y)))).findSome? (fun x =>
        let a := e.2.dirAt m x.2 x.1
        let n := s.readN p a 4
        if n ≠ noPage && !(bit n 31) && s.pageRefs p n = 1 then some (a, n) else none))

/-- HBM frames are short and no page can move: POOL_LOW (R332). -/
def State.poolLow (s : State) (p : Nat) : State := s.flagEvent (pgSRV p) 6 1 (s.hbmFree p % 2 ^ 32 + s.ddrFree p % 2 ^ 32 * 2 ^ 32) none

/-- Pages moved while HBM frames are short, at most so many; POOL_LOW where none can move. -/
def State.spill (p : Nat) : Nat → State → State
  | 0, s =>
    let can := (s.spillPick p).isSome && (lowestFree (s.srv p).ddrUsed (s.ddrPoolFrames p)).isSome
    if s.field (pgSRV p) oSRV_SPILL 15 0 ≤ s.hbmFree p || can then s else s.poolLow p
  | fuel + 1, s =>
    let low := s.field (pgSRV p) oSRV_SPILL 15 0
    if low ≤ s.hbmFree p then s
    else match s.spillPick p, lowestFree (s.srv p).ddrUsed (s.ddrPoolFrames p) with
      | some (a, n), some f =>
        let bytes := s.readZ p (s.pageAddr p n) (s.frameBytes p)
        let new := 2 ^ 31 + f
        let s := s.modSrv p (fun v => { v with ddrUsed := insertNat v.ddrUsed f })
        let s := (s.writeZ p (s.pageAddr p new) bytes).writeZ p a (leBytes 4 new)
        State.spill p fuel ((s.freePage p n).count (pgSRV p) oSRV_SPILLS 1)
      | _, _ => s.poolLow p

/-- DEDUCED (log entry 67). -/
def State.order6 (s : State) (b : Bound) : State := State.spill b.p (s.field (pgSRV b.p) oSRV_SPILL 31 16) s

/-! ### Orders 7 and 8 -/

/-- Cancel commands whose entries have all arrived and none is pending. -/
def State.cancelsDone (s : State) (p : Nat) : List (CmdRef × Nat) :=
  (s.cmds.filter (fun c => c.part = p && c.opcode = opSTEP && c.phase = .issued && (stepOf c.body).action = 2
    && (stepOf c.body).count ≤ c.taken && !((s.srv p).cancels.any (fun e => e.cmd = c.ref && !e.notified)))).map (fun c => (c.ref, (stepOf c.body).count))

/-- Commands in acceptance order. -/
def byRef (l : List (CmdRef × Nat)) : List (CmdRef × Nat) :=
  l.foldl (fun a e => a.takeWhile (fun b => refBefore b.1 e.1) ++ e :: a.dropWhile (fun b => refBefore b.1 e.1)) []

/-- Order 7 for one command: its outputs stand, its spans are cleared, its signals applied. -/
def State.signalStep (s : State) (r : CmdRef × Nat) : State :=
  match s.cmd? r.1 with
  | none => s
  | some c =>
    let x := (s.unveil c).takeAndSignal { c with spans := [], count := r.2 }
    x.1.setCmd x.2

/-- Order 8 for one command: its completion. DEDUCED (log entry 69). -/
def State.leaveStep (s : State) (r : CmdRef) (texts : List Rec) : State :=
  match s.cmd? r with
  | none => s
  | some c => s.leave c texts

/-- Orders 7 and 8. -/
def State.lastTwo (s : State) (b : Bound) (step : Option (CmdRef × List Nat)) : State :=
  let done := byRef (b.commits ++ s.cancelsDone b.p)
  let s := { s with cmds := s.cmds.map (fun c => if done.any (fun e => e.1 = c.ref) || step.map (·.1) = some c.ref then { c with spans := [] } else c) }
  let s := match step with
    | some x => s.signalStep (x.1, b.tokens)
    | none => s
  let s := done.foldl State.signalStep s
  let batch := (step.map (·.2)).getD []
  let ofReq := fun (i : Nat) => ((b.texts.filter (fun e => e.1 = i)).flatMap (·.2)) ++ ((b.endRecs.filter (fun e => e.1 = i)).map (·.2))
  let others := (b.endRecs.filter (fun e => !(batch.contains e.1))).map (·.2)
  let recs := batch.flatMap ofReq ++ others
  let s := match step with
    | some x => match s.cmd? x.1 with
      | some c => s.leave c recs
      | none => if recs = [] then s else s.postRecs b.p recs
    | none => if recs = [] then s else s.postRecs b.p recs
  done.foldl (fun s e => s.leaveStep e.1 []) s

/-- An idle boundary of a model: orders 1 and 3 to 8, with no batch. -/
def State.idleBoundary (s : State) (p mod : Nat) : State :=
  match s.model? p mod with
  | none => s
  | some m =>
    let s := s.srvReads p [s.srvTable p]
    let (s, b) := s.order1 ⟨p, mod, [], [], 0, [], []⟩ m []
    let (s, b) := s.order3 b m []
    let s := s.order4 b m
    let (s, b) := s.order5 b m
    (s.order6 b).lastTwo b none

/-- A step's boundary (R319). -/
def State.stepBoundary (s : State) (p : Nat) (m : Model) (t : StepRun) (fates : List Fate) : State :=
  let s := s.srvReads p (s.srvTable p :: (t.batch.map (·.req) ++ t.chunks.map (·.req)).flatMap (s.reqRanges p m))
  let (s, b) := s.order1 ⟨p, t.model, [], [], 0, [], []⟩ m fates
  let (s, b) := s.order2 b m t fates
  let s := s.modSrv p (fun v => { v with steps := v.steps.filter (fun u => u.cmd ≠ t.cmd) })
  let (s, b) := s.order3 b m fates
  let s := s.order4 b m
  let (s, b) := s.order5 b m
  (s.order6 b).lastTwo b (some (t.cmd, t.batch.map (·.req)))

/-! ### ACTION 1 and ACTION 2 at issue -/

/-- A model of this partition has an ACTION 0 step that has issued and not committed. -/
def State.stepping (s : State) (p mod : Nat) : Bool := (s.srv p).steps.any (fun t => t.model = mod)

/-- One cancel entry arrives (R321). -/
def State.arrive (s : State) (c : Cmd) (i : Nat) : State :=
  let p := c.part
  let a := (stepOf c.body).list + 16 * i
  let put := fun (s : State) (code : Nat) => s.writeZ p (a + 8) (leBytes 1 code)
  let s := match s.cmd? c.ref with
    | some c => s.setCmd { c with taken := i + 1 }
    | none => s
  let tag := s.readN p a 8
  let s := s.srvReads p [s.srvTable p]
  match (s.liveRequests p).find? (fun e => e.2.tag = tag && tag ≠ 0) with
  | none => put s 4
  | some (k, r) => match s.model? p r.model with
    | none => put s 4
    | some m =>
      if 1 < m.stages && !(m.last) then put s 5
      else if r.st = rqDRAINING then put s 3
      else if 4096 ≤ (s.srv p).cancelUse then
        put ((s.drainRequest p k).flagEvent (pgSRV p) 4 4 (k % 2 ^ 32 * 2 ^ 32) none) 3
      else
        let s := s.setRequest p k (r.flag 4 true)
        let s := s.modSrv p (fun v => { v with cancels := v.cancels ++ [(⟨tag, r.model, k, c.ref, i, [], false, false, false⟩ : CancelEntry)] })
        let s := if 1 < m.stages then s.sendCancel p m tag 1 else s
        if s.stepping p r.model then s else s.idleBoundary p r.model

/-- An ACTION 2 issues: its entries arrive one at a time; where all were resolved, it commits. -/
def State.startCancel (s : State) (c : Cmd) : State :=
  match s.srvReader c.part (some c.ref) (stepOf c.body).list (16 * (stepOf c.body).count) with
  | .error e => let f := memFail e; s.failCmd c f.1 f.2
  | .ok _ =>
    let s := (List.range (stepOf c.body).count).foldl (fun s i => s.arrive c i) s
    if (s.cancelsDone c.part).any (fun e => e.1 = c.ref) then
      (s.signalStep (c.ref, (stepOf c.body).count)).leaveStep c.ref []
    else s

/-- An ACTION 1 issues. -/
def State.startAdmit (s : State) (c : Cmd) : State :=
  if s.stepping c.part (stepOf c.body).model then s else s.idleBoundary c.part (stepOf c.body).model

/-! ### Rows -/

/-- STEP_BOUNDARY (R319): the step of a model whose forward list is done commits. -/
def execStepBoundary (p : Fin 16) (model : Nat) (s : State) : Host.Outcome State Fault Refusal :=
  let q := p.val
  match (s.srv q).steps.find? (fun t => t.model = model), s.model? q model with
  | some t, some m =>
    match s.cmd? t.cmd with
    | none => done s
    | some c =>
      if s.recordsLeft t.cmd.seq || c.phase ≠ .issued then done s
      else match s.contextRead q m t, mapE (s.fateOf q m t) t.batch with
        | .error e, _ | .ok _, .error e => done (s.failCmd c e.1 e.2)
        | .ok _, .ok fates => done (s.stepBoundary q m t fates)
  | _, _ => done s

/-- The handle in HANDLE_HI and HANDLE_LO dropped (R310). -/
def State.handleDrop (s : State) (q : Nat) : State :=
  let h := s.field (pgSRV q) oSRV_HANDLE_LO 31 0 + 2 ^ 32 * s.field (pgSRV q) oSRV_HANDLE_HI 31 0
  let s := if (s.srv q).enabled then s.srvReads q ((s.probed q h).map (fun k => (s.handleAddr q k, 32))) else s
  match if (s.srv q).enabled then s.findHandle q h else none with
  | none => s.setField (pgSRV q) oSRV_HANDLE_CTRL 2 1 3
  | some k =>
    let e := s.handleAt q k
    let s := s.setHandle q k { e with st := 2 }
    let s := s.modSrv q (fun v => { v with drops := v.drops ++ [(e.dir, e.len, e.model)] })
    s.setField (pgSRV q) oSRV_HANDLE_CTRL 2 1 1

/-- HANDLE_DROP (R310). -/
def execHandleDrop (p : Fin 16) (s : State) : Host.Outcome State Fault Refusal := 
  onPage s (pgSRV p.val) (done (s.handleDrop p.val))

/-- What R584 finds wrong with a serving configuration. -/
def State.servingBad (s : State) (p : Nat) : Bool :=
  let x := s.part p
  let frame := s.frameBytes p
  let area := (x.servingBase, s.servingBytes p)
  let hbm := (s.hbmPool p, s.hbmPoolFrames p * frame)
  let ddr := (s.ddrPool p, s.ddrPoolFrames p * frame)
  let meet := fun (a b : Nat × Nat) => a.2 ≠ 0 && b.2 ≠ 0 && overlaps (a.1, a.1 + a.2) (b.1, b.1 + b.2)
  frame = 0 || x.st = .free || x.servingBase = 0 || !(within area.1 area.2 x.resBase x.resBytes)
    || (hbm.2 ≠ 0 && (hbm.1 % pageBytes ≠ 0 || !(within hbm.1 hbm.2 x.resBase x.resBytes)))
    || (ddr.2 ≠ 0 && (ddr.1 % pageBytes ≠ 0 || !(within ddr.1 ddr.2 x.ddrShare.1 x.ddrShare.2)))
    || meet hbm ddr || meet hbm area || meet ddr area

/-- SERVING_ENABLE (R584): a write of 1 to EN. DEDUCED (log entry 71). -/
def State.serveOn (s : State) (p : Nat) : State :=
  if (s.srv p).enabled then s
  else if s.servingBad p then s.setErr (pgSRV p) 7
  else
    let s := s.zeroRange p (s.entryAddr p 0) (128 * 2 ^ s.reqLog2 p + 32 * 2 ^ s.handleLog2 p)
    let config := [oSRV_SRV_CFG, oSRV_HBM_POOL_LO, oSRV_HBM_POOL_HI, oSRV_HBM_FRAMES, oSRV_DDR_POOL_LO, oSRV_DDR_POOL_HI,
      oSRV_DDR_FRAMES].map (fun o => (o, s.field (pgSRV p) o 31 0))
    s.modSrv p (fun _ => { servingOff with
      enabled := true
      admitted := (s.srv p).admitted
      config := config })

/-- SERVING_DISABLE (R330): EN cleared. STEPs in flight and passes end with the requests. DEDUCED (log entry 66). -/
def State.serveOff (s : State) (p : Nat) : State :=
  if !((s.srv p).enabled) then s
  else
    let s := s.endWhere (fun c => c.part = p && c.opcode = opSTEP && c.ref.sub = 0 && c.phase = .issued) stCANCELLED 0
    let s := (s.srv p).passes.foldl (fun s t => s.dropPass p t.cmd.seq true) s
    let live := byAdmission (s.liveRequests p)
    let recs := live.map (fun e => s.endRecord e.2 endCANCELLED 0xFF)
    let s := s.count (pgSRV p) oSRV_ENDS live.length
    let s := s.zeroRange p (s.entryAddr p 0) (128 * 2 ^ s.reqLog2 p + 32 * 2 ^ s.handleLog2 p)
    let s := s.modSrv p (fun v => { servingOff with admitted := v.admitted })
    if recs = [] then s else s.postRecs p recs

def execServingEnable (p : Fin 16) (s : State) : Host.Outcome State Fault Refusal := 
  onPage s (pgSRV p.val) (done (s.serveOn p.val))

def execServingDisable (p : Fin 16) (s : State) : Host.Outcome State Fault Refusal := 
  onPage s (pgSRV p.val) (done (s.serveOff p.val))

end Sys2Proof.Machine
end

