-- ==== Sys2Proof/Machine/Intake.lean ====
section
/-! DEFINITION. The command intake (06): intake rings (R136, R582), list capsules (R141, R578), and the rows that bring a command of
each opcode to the checker. -/

namespace Sys2Proof.Machine

/-! ### Intake rings (R136) -/

/-- The count of consumed entries written to the host. DEDUCED (log entry 47). -/
def State.reportIntake (s : State) (p : Nat) : State :=
  let x := s.part p
  if s.complRts p then s.rdmaOut x.complQp x.intakeCountAddr (leBytes 4 x.intakeCount) else s

/-- One entry consumed: position, ring phase and count move on; every sixteenth count is reported. -/
def State.consumeEntry (s : State) (p : Nat) : State :=
  let x := s.part p
  let pos := (x.intakePos + 1) % 2 ^ x.intakeLog2
  let n := (x.intakeCount + 1) % 2 ^ 32
  let s := s.setPart p { x with
    intakePos := pos
    intakePhase := if pos = 0 then !x.intakePhase else x.intakePhase
    intakeCount := n }
  if n % 16 = 0 then s.reportIntake p else s

/-- The header of a capsule in memory as far as it can be read, for a rejection (R582): none of it, or all. DEDUCED (log entry 47). -/
def State.headerAt (s : State) (p a : Nat) : List Byte := match s.readBytes p a 64 with | .ok b => b | .error _ => []

/-- A capsule named by an intake entry, checked before the checks of R147 (R582). DEDUCED (log entry 47). -/
def State.takeEntry (s : State) (p : Nat) (e : List Byte) : State :=
  let a := fld e 0 8
  let n := fld e 8 2
  if fld e 0xA 5 ≠ 0 || fld e 0xF 1 % 128 ≠ 0 then (s.consumeEntry p).rejectEntry p [] stBAD_HEADER 0xF0
  else if n < 64 || 4096 < n then (s.consumeEntry p).rejectEntry p [] stBAD_HEADER 0xF1
  else if a % 64 ≠ 0 then (s.consumeEntry p).rejectEntry p [] stBAD_HEADER 0xF2
  else if !(s.inWindow p false a n) then (s.consumeEntry p).rejectEntry p [] stBAD_HEADER 0xF3
  else match s.readBytes p a n with
    | .error _ => (s.consumeEntry p).rejectEntry p (s.headerAt p a) stDATA_ERROR 0xF4
    | .ok b =>
      if fld b 2 2 ≠ n then (s.consumeEntry p).rejectEntry p (b.take 64) stBAD_HEADER 0x02
      else if hIsList (hdrOf b) && 64 ≤ (s.listsOf p).length then s
      else (s.consumeEntry p).acceptBytes p b false

/-- INTAKE_ENTRY (R136, R137, R578): the next entry of partition p's ring, while the intake accepts, there is in-flight room, and no
list has a record waiting. Where the entry is not new, the count is reported. With the quota full every entry waits, one that names a list
capsule too, since its kind is not known before the entry is taken. DEDUCED (log entry 47). DESIGN CHOICE (log entry 105). -/
def execIntakeEntry (p : Fin 16) (s : State) : Host.Outcome State Fault Refusal :=
  let x := s.part p
  if !(s.takes p) || s.listWaits p || !(s.room p) then done s
  else match s.readBytes p (x.intakeBase + 16 * x.intakePos) 16 with
    | .error _ => done (s.reportIntake p)
    | .ok e => if bit (fld e 0xF 1) 7 = x.intakePhase then done (s.takeEntry p e) else done (s.reportIntake p)

/-! ### List capsules (R141, R578) -/

/-- A list capsule ends: it takes no further record, and its completion, but for an OK one with QUIET, carries the records accepted.
It stays in flight until that completion is written (R137, R577, R578). -/
def State.endList (s : State) (l : ListCap) (status : Nat) : State :=
  if l.quiet && status = stOK then { s with lists := s.lists.filter (fun k => k.seq ≠ l.seq) }
  else
    let s := { s with lists := s.lists.map (fun (k : ListCap) => if k.seq = l.seq then { k with total := k.accepted } else k) }
    s.postRecs l.part [⟨[completionSlot l.tag 0 status 0 0xFF 0 0 l.accepted s.time], some ⟨l.seq, 0⟩⟩]

/-- A record of a list cannot be taken: the condition and event LIST_FETCH, then the list's end. -/
def State.failList (s : State) (l : ListCap) (len : Nat) : State :=
  (s.flagEvent (pgCMD l.part) 2 4 (l.accepted + len * 2 ^ 32) (some (l.tag, l.part))).endList l stLIST_FETCH

/-- The next record of a list accepted. DEDUCED (log entry 45). -/
def State.takeRecord (s : State) (l : ListCap) : State :=
  let get := fun (n : Nat) => if s.inWindow l.part false l.next n then s.readBytes l.part l.next n else .error (.access l.next)
  match get 64 with
  | .error _ => s.failList l 0
  | .ok h =>
    let n := fld h 2 2
    if n < 64 || 4096 < n then s.failList l n
    else match get n with
      | .error _ => s.failList l n
      | .ok b =>
        let l2 : ListCap := { l with next := l.next + roundUp n 64, accepted := l.accepted + 1 }
        let s : State := { s with lists := s.lists.map (fun k => if k.seq = l.seq then l2 else k) }
        let s := s.acceptBytes l.part b true
        if l2.accepted = l2.total then s.endList l2 stOK else s

/-- LIST_RECORD_ACCEPT (R578): the next record of the earliest list of partition p that has one. -/
def execListRecordAccept (p : Fin 16) (s : State) : Host.Outcome State Fault Refusal :=
  if !(s.takes p) || !(s.room p) then done s
  else match (s.listsOf p).find? (fun l => l.accepted < l.total) with
    | some l => done (s.takeRecord l)
    | none => done s

/-! ### One row for each opcode -/

/-- NOP (R142). -/
def execNop (p : Fin 16) (h : CapHdr) (body : List Byte) (s : State) : Host.Outcome State Fault Refusal :=
  done (s.offer p opNOP h body)

/-- PRODUCT (R143). -/
def execProduct (p : Fin 16) (h : CapHdr) (body : List Byte) (s : State) : Host.Outcome State Fault Refusal :=
  done (s.offer p opPRODUCT h body)

/-- ATTEND (R145). -/
def execAttend (p : Fin 16) (h : CapHdr) (body : List Byte) (s : State) : Host.Outcome State Fault Refusal :=
  done (s.offer p opATTEND h body)

/-- GATHER (R190). -/
def execGather (p : Fin 16) (h : CapHdr) (body : List Byte) (s : State) : Host.Outcome State Fault Refusal :=
  done (s.offer p opGATHER h body)

/-- SCATTER_ADD (R197). -/
def execScatterAdd (p : Fin 16) (h : CapHdr) (body : List Byte) (s : State) : Host.Outcome State Fault Refusal :=
  done (s.offer p opSCATTER h body)

/-- SEARCH (R222). -/
def execSearch (p : Fin 16) (h : CapHdr) (body : List Byte) (s : State) : Host.Outcome State Fault Refusal :=
  done (s.offer p opSEARCH h body)

/-- SELECT (R250). -/
def execSelect (p : Fin 16) (h : CapHdr) (body : List Byte) (s : State) : Host.Outcome State Fault Refusal :=
  done (s.offer p opSELECT h body)

/-- TOKENIZE (R271). -/
def execTokenize (p : Fin 16) (h : CapHdr) (body : List Byte) (s : State) : Host.Outcome State Fault Refusal :=
  done (s.offer p opTOKENIZE h body)

/-- DETOKENIZE (R276). -/
def execDetokenize (p : Fin 16) (h : CapHdr) (body : List Byte) (s : State) : Host.Outcome State Fault Refusal :=
  done (s.offer p opDETOKENIZE h body)

/-- PACK (R288). -/
def execPack (p : Fin 16) (h : CapHdr) (body : List Byte) (s : State) : Host.Outcome State Fault Refusal :=
  done (s.offer p opPACK h body)

/-- A STEP descriptor with its ACTION. -/
def withAction (a : Nat) (body : List Byte) : List Byte := patch body 0 (leBytes (min 1 body.length) a)

/-- STEP with ACTION 0 (R313). -/
def execStepGenerate (p : Fin 16) (h : CapHdr) (body : List Byte) (s : State) : Host.Outcome State Fault Refusal :=
  done (s.offer p opSTEP h (withAction 0 body))

/-- STEP with ACTION 1 (R311). -/
def execStepAdmit (p : Fin 16) (h : CapHdr) (body : List Byte) (s : State) : Host.Outcome State Fault Refusal :=
  done (s.offer p opSTEP h (withAction 1 body))

/-- STEP with ACTION 2 (R312). -/
def execStepCancel (p : Fin 16) (h : CapHdr) (body : List Byte) (s : State) : Host.Outcome State Fault Refusal :=
  done (s.offer p opSTEP h (withAction 2 body))

/-- COPY (R368). -/
def execCopy (p : Fin 16) (h : CapHdr) (body : List Byte) (s : State) : Host.Outcome State Fault Refusal :=
  done (s.offer p opCOPY h body)

/-- MIGRATE (R360). -/
def execMigrate (p : Fin 16) (h : CapHdr) (body : List Byte) (s : State) : Host.Outcome State Fault Refusal :=
  done (s.offer p opMIGRATE h body)

/-- COLLECT (R446). -/
def execCollect (p : Fin 16) (h : CapHdr) (body : List Byte) (s : State) : Host.Outcome State Fault Refusal :=
  done (s.offer p opCOLLECT h body)

/-- SEMOP (R169). -/
def execSemop (p : Fin 16) (h : CapHdr) (body : List Byte) (s : State) : Host.Outcome State Fault Refusal :=
  done (s.offer p opSEMOP h body)

/-- TABLE_SWITCH (R184). -/
def execTableSwitch (p : Fin 16) (h : CapHdr) (body : List Byte) (s : State) : Host.Outcome State Fault Refusal :=
  done (s.offer p opSWITCH h body)

/-- INDEX_MERGE (R233). -/
def execIndexMerge (p : Fin 16) (h : CapHdr) (body : List Byte) (s : State) : Host.Outcome State Fault Refusal :=
  done (s.offer p opMERGE h body)

/-- LIST_CAPSULE (R141). -/
def execListCapsule (p : Fin 16) (h : CapHdr) (body : List Byte) (s : State) : Host.Outcome State Fault Refusal :=
  done (s.offer p opNOP { h with flags := h.flags ||| 1#16 } body)

end Sys2Proof.Machine
end

