-- ==== Sys2Proof/Machine/Run.lean ====
section
/-! DEFINITION. The rows of a command's life after acceptance (06): issue, commit, a switch's drain, and cancels. -/

namespace Sys2Proof.Machine

/-! ### Issue (R148) -/

/-- A STEP issues: its takes are reserved, then its action begins (R311 to R313). A STEP that finds serving off ends. -/
def State.issueStep (s : State) (c : Cmd) (borrowed : Bool) : State :=
  let c := s.issued c borrowed
  let c : Cmd := { c with takes := c.takeEntries }
  let s := c.takes.foldl (fun s t => s.semReserve t.1 t.2) (s.setCmd c)
  if !((s.srv c.part).enabled) then s.failCmd c stBAD_DESCRIPTOR 0
  else match (stepOf c.body).action with
    | 0 => s.startStep c
    | 1 => s.startAdmit c
    | _ => s.startCancel c

/-- COMMAND_ISSUE: the command issues where R148 lets it; one that staging or energy holds up is counted so. One that waits for a
poisoned semaphore ends (R179). -/
def State.tryIssue (s : State) (r : CmdRef) : State :=
  match s.cmd? r with
  | none => s
  | some c =>
    if c.unissued && s.waitsOnPoison c then s.endCmd c stDATA_ERROR 0
    else if !(s.canIssue c) || s.earlierReady c then s
    else if (s.stagingFor c).isNone then s.holdStaging c
    else match s.energyCheck c with
      | none => s.holdEnergy c
      | some b =>
        let s := if b then s.count pgTRV oTRV_BORROWS 1 else s
        if c.opcode = opSTEP then s.issueStep c b else s.issueCmd c b

def execCommandIssue (r : CmdRef) (s : State) : Host.Outcome State Fault Refusal := done (s.tryIssue r)

/-! ### Commit (R151) -/

/-- COMMAND_COMMIT: a command whose work is complete commits; an interrupted application of updates goes on (R152), and a MIGRATE tries
again for the frames it has not had. DESIGN CHOICE (log entry 91). -/
def State.tryCommit (s : State) (r : CmdRef) : State :=
  match s.cmd? r with
  | none => s
  | some c =>
    if s.workDone c then s.commitCmd c
    else if c.phase = .applying && (s.energyDies c).all (fun q => !((s.die q).inReset)) then s.scatterApply c
    else if c.phase = .issued && c.opcode = opMIGRATE then (s.copiesLeft c).foldl (fun s g => s.startCopy c g) s
    else s

def execCommandCommit (r : CmdRef) (s : State) : Host.Outcome State Fault Refusal := done (s.tryCommit r)

/-- TABLE_SWITCH_DRAIN (R184, R213): no command holds the old version any longer. -/
def execTableSwitchDrain (r : CmdRef) (s : State) : Host.Outcome State Fault Refusal :=
  match s.cmd? r with
  | none => done s
  | some c => if c.phase = .draining && !(s.draining c) then done (s.lastOrders c []) else done s

/-! ### Cancels (R159) -/

/-- A cancel of the tag in CANCEL_TAG: the command or list accepted earliest that carries it. -/
def State.cancelTag (s : State) (p : Nat) : State :=
  let tag := s.field (pgCMD p) oCMD_CANCEL_TAG_LO 31 0 + 2 ^ 32 * s.field (pgCMD p) oCMD_CANCEL_TAG_HI 31 0
  let put := fun (s : State) (code : Nat) => s.setField (pgCMD p) oCMD_CANCEL_CTRL 3 2 code
  let cs := (s.cmds.filter (fun c => c.part = p && c.ref.sub = 0 && c.hdr.tag.toNat = tag)).map (fun c => c.ref.seq)
  let ls := (s.lists.filter (fun l => l.part = p && l.tag = tag)).map (·.seq)
  match (cs ++ ls).min? with
  | none => put s 3
  | some n =>
    match s.lists.find? (fun l => l.part = p && l.tag = tag && l.seq = n) with
    | some l => if l.accepted < l.total then put (s.endList l stCANCELLED) 1 else put s 2
    | none => match s.cmd? ⟨n, 0⟩ with
      | none => put s 3
      | some c =>
        if c.phase = .waiting || c.phase = .issued then put (s.endCmd c stCANCELLED 0) 1 else put s 2

def execCancel (p : Fin 16) (s : State) : Host.Outcome State Fault Refusal := onPage s (pgCMD p.val) (done (s.cancelTag p.val))

end Sys2Proof.Machine
end

