-- ==== Sys2Proof/Machine/Partition.lean ====
section
/-! DEFINITION. Partitions (13): state changes (R334), the setup block's checks (R336), suspension (R340 to R343), resumption (R344),
release (R346), oversubscription (R339); and the rows that write waiting records and finish a page's copy, on which they wait. -/

namespace Sys2Proof.Machine

/-! ### The setup block (R335, R336) -/

/-- RESULT codes of PRT_CTRL (R347). -/
def runOK : Nat := 1
def runBAD_STATE : Nat := 2
def runBAD_SETUP : Nat := 3
def runCORES : Nat := 4
def runQUOTA : Nat := 5
def runOVERLAP : Nat := 6
def runHBM : Nat := 7
def runCHUNK : Nat := 8

/-- The other partitions in states 1 to 4, and those of them that are active. -/
def State.othersHeld (s : State) (p : Nat) : List Nat := partIds.filter (fun q => q ≠ p && (s.part q).nonFree)
def State.othersActive (s : State) (p : Nat) : List Nat :=
  (s.othersHeld p).filter (fun q => (s.part q).st = .active || (s.part q).st = .suspending || (s.part q).st = .resuming)

/-- Check 1 of R336, in offset order: an offset and whether its field breaks the layout. DEDUCED (log entry 73). -/
def State.setupFields (s : State) (x : Part) : List (Nat × Bool) :=
  let inRes := fun (a n : Nat) => within a n x.resBase x.resBytes
  let dev := fun (a : Nat) => a % 64 ≠ 0
  let share := fun (off : Nat) (base bytes cap zone : Nat) =>
    [((off, base % pageBytes ≠ 0 || (bytes ≠ 0 && !(within base bytes zone cap))) : Nat × Bool), (off + 8, decide (bytes % pageBytes ≠ 0))]
  [((0x00, decide (x.f 0 2 ≠ 1)) : Nat × Bool),
   (0x02, decide (4 ≤ x.f 2 1)), (0x03, decide (x.f 3 1 ≠ 0)),
   (0x04, x.quota = 0 || decide (512 < x.quota)),
   (0x06, decide (4096 ≤ x.qpFirst)), (0x08, x.qpCount = 0 || decide (4096 < x.qpFirst + x.qpCount)),
   (0x0A, !(within x.complQp 1 x.qpFirst x.qpCount)),
   (0x0C, x.intakeLog2 < 4 || decide (16 < x.intakeLog2)), (0x0D, x.hostLog2 < 6 || decide (16 < x.hostLog2)),
   (0x10, dev x.intakeBase || !(inRes x.intakeBase (16 * 2 ^ min 16 x.intakeLog2))),
   (0x28, dev x.hostCountAddr || !(inRes x.hostCountAddr 4)),
   (0x30, x.servingBase ≠ 0 && (dev x.servingBase || !(inRes x.servingBase 0x10000))),
   (0x38, x.streamArea ≠ 0 && (dev x.streamArea || !(inRes x.streamArea (0x10000 + 128 * 4096))))]
  ++ share 0x40 x.resBase x.resBytes s.hbmUsable hbmBase
  ++ [((0x54, decide (4096 < x.preCount)) : Nat × Bool), (0x58, dev x.preBase)]
  ++ share 0x60 x.ddrShare.1 x.ddrShare.2 s.ddrCapacity ddrBase
  ++ share 0x70 x.flsShare.1 x.flsShare.2 s.flsCapacity flsBase
  ++ [((0x80, decide (x.f (0x80 + 26) 6 ≠ 0)) : Nat × Bool)]
  ++ (List.range 4).map (fun q => ((0xA0 + 4 * q, decide (potSize < (x.stk q).1 + (x.stk q).2)) : Nat × Bool))
  ++ (List.range 4).map (fun q => ((0xB0 + 4 * q, decide (16384 < (x.semWin q).1 + (x.semWin q).2)) : Nat × Bool))
  ++ [((0xC0, decide (4096 < x.tslots.1 + x.tslots.2)) : Nat × Bool), (0xC4, decide (256 < x.islots.1 + x.islots.2)),
      (0xC8, decide (1024 < x.xslots.1 + x.xslots.2)), (0xCC, decide (1024 < x.commsRange.1 + x.commsRange.2)),
      (0xD0, x.shared.1 ≠ 0 && dev x.shared.1), (0xE0, decide (x.f 0xE0 32 ≠ 0))]

/-- The ranges of a setup block with the offset of each, in offset order. -/
def Part.ranges (x : Part) : List (Nat × Nat × Nat) :=
  [(0x06, x.qpFirst, x.qpCount), (0x40, x.resBase, x.resBytes), (0x60, x.ddrShare.1, x.ddrShare.2), (0x70, x.flsShare.1, x.flsShare.2)]
  ++ (List.range 4).map (fun q => (0xA0 + 4 * q, x.stk q))
  ++ (List.range 4).map (fun q => (0xB0 + 4 * q, x.semWin q))
  ++ [(0xC0, x.tslots), (0xC4, x.islots), (0xC8, x.xslots), (0xCC, x.commsRange)]

/-- Ranges that share a number. -/
def rangesMeet (a b : Nat × Nat) : Bool := a.2 ≠ 0 && b.2 ≠ 0 && overlaps (a.1, a.1 + a.2) (b.1, b.1 + b.2)

/-- The first range of a block that overlaps one of another partition. -/
def State.overlapAt (s : State) (p : Nat) (x : Part) : Option Nat :=
  (x.ranges.find? (fun r => (s.othersHeld p).any (fun q => (s.part q).ranges.any (fun t => t.1 = r.1 && rangesMeet r.2 t.2)))).map (·.1)

/-- The core that stands in for core c: a retired core's recorded substitute, and so on (R484). -/
def State.standIn (s : State) : Nat → Nat → Nat
  | 0, c => c
  | n + 1, c =>
    match (s.core c).substitute with
    | some d => if (s.core c).st = .retired && d < 208 then s.standIn n d else c
    | none => c

/-- The cores that a setup block names, a substitute in the place of a retired core (R484). DEDUCED (log entry 37). -/
def State.coresNamed (s : State) (x : Part) : List Nat := ((List.range 208).filter x.coreBit).map (s.standIn 52)

/-- Check 2: a core that is not enabled or that another partition owns. One that a test quiesces is waited for (R482). -/
def State.coresBusy (s : State) (p : Nat) (x : Part) : Bool :=
  (s.coresNamed x).any (fun c => !((s.core c).st = .enabled || (s.core c).st = .quiesced) || ((s.core c).owner ≠ 31 && (s.core c).owner ≠ p))

/-- Check 5: resident and window shares exceed the usable HBM. -/
def State.hbmOver (s : State) (p : Nat) (x : Part) : Bool :=
  s.hbmUsable < ((s.othersHeld p).map (fun q => (s.part q).resBytes)).sum + x.resBytes
    + (((s.othersActive p).map (fun q => (s.part q).winFrames)).sum + x.winFrames) * pageBytes

/-- The preload list: base and bytes of each entry. -/
def State.preload (s : State) (x : Part) : Option (List (Nat × Nat)) :=
  match s.readBytes 16 x.preBase (16 * x.preCount) with
  | .error _ => none
  | .ok b => some ((List.range x.preCount).map (fun i => (fld b (16 * i) 8, fld b (16 * i + 8) 8)))

/-- Check 7. -/
def State.preloadBad (s : State) (x : Part) : Bool :=
  match s.preload x with
  | none => true
  | some l => l.any (fun e => e.1 % pageBytes ≠ 0 || e.2 % pageBytes ≠ 0) || x.winFrames * pageBytes < (l.map (·.2)).sum

def State.sharedBad (s : State) (p : Nat) (x : Part) : Bool :=
  x.shared.1 ≠ 0 && !((s.othersHeld p).any (fun q => let y := s.part q
    within x.shared.1 x.shared.2 y.ddrShare.1 y.ddrShare.2 || within x.shared.1 x.shared.2 y.flsShare.1 y.flsShare.2))

/-- What R336 finds wrong: RESULT and OFFSET. DEDUCED (log entries 45, 73). -/
def State.setupBad (s : State) (p : Nat) (x : Part) (free : Bool) : Option (Nat × Nat) :=
  let bad := (s.setupFields x).find? (·.2)
  if free && bad.isSome then some (runBAD_SETUP, (bad.map (·.1)).getD 0)
  else if s.coresBusy p x then some (runCORES, 0x80)
  else if free && 512 < ((s.othersHeld p).map (fun q => (s.part q).quota)).sum + x.quota then some (runQUOTA, 0x04)
  else match if free then s.overlapAt p x else none with
    | some off => some (runOVERLAP, off)
    | none =>
      if s.hbmOver p x then some (runHBM, 0x48)
      else if free && x.chunkPriv && 2 ≤ ((s.othersHeld p).filter (fun q => (s.part q).chunkPriv)).length then some (runCHUNK, 0x02)
      else if free && x.preCount ≠ 0 && s.preloadBad x then some (runBAD_SETUP, 0x54)
      else if free && s.sharedBad p x then some (runBAD_SETUP, 0xD0)
      else none

/-! ### Oversubscription (R339) -/

/-- The regulator registers of a PRT page, by kind. -/
def regOfKind (k : Nat) : Nat := oPRT_REG_HBM + 4 * k

/-- The sum of a kind's SHAREs over active partitions. -/
def State.shareSum (s : State) (k : Nat) : Nat :=
  ((partIds.filter (fun q => (s.part q).st = .active || (s.part q).st = .suspending || (s.part q).st = .resuming)).map
    (fun q => min 4096 (s.field (pgPRT q) (regOfKind k) 12 0))).sum

/-- PRT_STATE.OVERSUB of a partition. -/
def State.oversub (s : State) (p : Nat) : Bool :=
  ((s.part p).st = .active || (s.part p).st = .suspending || (s.part p).st = .resuming) && (List.range 5).any (fun k => 4096 < s.shareSum k)

/-- The condition and event on the page of each active partition, for each kind whose sum exceeds 4,096 where it did not before for
that partition. DEDUCED (log entry 73). -/
def State.noteOversub (s before : State) : State :=
  (partIds.filter (fun p => (s.part p).st = .active || (s.part p).st = .suspending || (s.part p).st = .resuming)).foldl (fun s p =>
    (List.range 5).foldl (fun s k =>
      if 4096 < s.shareSum k && !(before.oversub p && 4096 < before.shareSum k) then
        s.flagEvent (pgPRT p) 2 3 (k + s.shareSum k % 2 ^ 32 * 2 ^ 32) none
      else s) s) s

/-! ### Suspension (R343) -/

/-- Orders 1 and 2: no further command issues, and every issued command short of order 2 is killed and carried. -/
def State.suspendStart (s : State) (p : Nat) : State :=
  let s := s.setPart p { s.part p with st := .suspending, stage := 0 }
  let s := (s.srv p).passes.foldl (fun s t => s.dropPass p t.cmd.seq false) s
  (s.cmds.filter (fun c => c.part = p && c.ref.sub = 0 && c.phase = .issued)).foldl (fun s c => match s.cmd? c.ref with
    | none => s
    | some d =>
      let s := s.killCmd d causePreempt
      match s.cmd? c.ref with
      | some d => if d.phase = .waiting then s.setCmd { d with carried := true } else s
      | none => s) s

/-- Order 4: arrival semaphores saved (R341) and the commands that are carried counted, semaphores cleared (R176), commands that have not issued ended (R157). DEDUCED (log entry 74). -/
def State.suspendClear (s : State) (p : Nat) : State :=
  let carried := s.cmds.filter (fun c => c.part = p && c.ref.sub = 0 && c.carried)
  let s := carried.foldl (fun s c =>
    let ks := s.arrivalsOf c
    let x := s.part p
    if ks = [] then s.count (pgPRT p) oPRT_CARRIED 1
    else if 4096 < x.store.length + ks.length then (s.endCmd c stWAIT_CLEARED 0).count (pgPRT p) oPRT_WAIT_CLEARED 1
    else (s.setPart p { x with store := x.store ++ ks.map (fun k => (⟨k, (s.sem k).value, c.ref, false⟩ : Saved)) }).count (pgPRT p) oPRT_CARRIED 1) s
  let s := s.semClearIf (fun k => s.semInWindow p k)
  let left := s.cmds.filter (fun c => c.part = p && c.ref.sub = 0 && c.phase = .waiting && !c.carried)
  let s := left.foldl (fun s c => (s.endCmd c stWAIT_CLEARED 0).count (pgPRT p) oPRT_WAIT_CLEARED 1) s
  s.setPart p { s.part p with stage := 1 }

/-- A core passes to another owner: its tray and whisk registers are zero, and its griddles hold nothing (R70). -/
def Core.passTo (x : Core) (owner : Nat) : Core :=
  { x with owner := owner, hand := [], next := [], trayOf := none, trayUsed := 0, trayChain := 0 }

/-- Orders 5 and 6: the window is written back and released, the trays and whisk registers are zeroed, the cores are free. -/
def State.suspendEnd (s : State) (p : Nat) : State :=
  let s := (s.pages.map (·.1)).foldl (fun s g =>
    let s := (s.abandonMove g (fun m => m.part = p && m.kind ≠ 1))
    s.dropCopy p g true) s
  let s := (s.coresOf p).foldl (fun s c => s.setCore c ((s.core c).passTo 31)) s
  s.setPart p { s.part p with st := .suspended, stage := 0, current := none, fillQueue := [], behind := [] }

/-! ### State changes (R334) -/

/-- RESULT and OFFSET of PRT_CTRL. -/
def State.prtResult (s : State) (p result off : Nat) : State :=
  (s.setField (pgPRT p) oPRT_PRT_CTRL 19 16 result).setField (pgPRT p) oPRT_PRT_CTRL 31 24 off

/-- A RUN that fails (R348, R349). DEDUCED (log entry 73). -/
def State.runFail (s : State) (p result off : Nat) : State :=
  (s.prtResult p result off).flagEvent (pgPRT p) 1 2 (result + off * 2 ^ 8) none

/-- Pages that a partition's preload list names and that get copies. -/
def State.preloadPages (s : State) (p : Nat) : List Nat :=
  (((s.preload (s.part p)).getD []).flatMap (fun e => rangePages e.1 e.2)).filter (fun g =>
    (match pageZone g with | .ddr | .fls => true | _ => false) && s.inWindow p false (g * pageBytes) pageBytes)

/-- The preload fills that have not begun; their copies are pinned whatever hint is stored (R344). -/
def State.startPreload (s : State) (p : Nat) : State :=
  (s.preloadPages p).foldl (fun s g =>
    let x := s.page g
    if (x.own p).isSome || x.moves.any (fun m => m.kind = 0 && m.part = p) then s
    else
      let r := s.startFill p g none []
      let y := r.1.page g
      if r.2 then r.1.setPage g { y with moves := y.moves.map (fun (m : Move) => if m.kind = 0 && m.part = p then { m with pin := true } else m) }
      else r.1) s

/-- Orders 2 to 4 of R344, once no test of the partition's cores runs. Only the values of commands that go on are written back. DEDUCED (log entry 73). -/
def State.runTake (s : State) (p : Nat) : State :=
  let before := s
  let x := s.part p
  let s := s.setPart p { x with st := .resuming, stage := 2, windows := true }
  let s := ((s.coresNamed x).filter (fun c => (s.core c).st = .enabled)).foldl (fun s c => s.setCore c ((s.core c).passTo p)) s
  let s := s.noteOversub before
  let saved := (s.part p).store
  let broken := (saved.filter (·.bad)).map (·.cmd)
  let s := (saved.filter (fun e => (s.cmd? e.cmd).any (·.carried) && !(broken.contains e.cmd))).foldl (fun s e =>
    s.setSem e.sem { s.sem e.sem with value := e.value }) s
  let s := s.setPart p { s.part p with store := [] }
  let s := s.endWhere (fun c => c.carried && broken.contains c.ref) stDATA_ERROR 0
  s.startPreload p

/-- A RUN past order 1 goes on, or waits at order 2 while a test of its cores runs (R482). DEDUCED (log entry 37). -/
def State.runGoOn (s : State) (p : Nat) : State :=
  let x := s.part p
  if s.coresUnderTest (s.coresNamed x) then s.setPart p { x with stage := 1 } else s.runTake p

/-- The partition whose RUN waits at order 2. DEDUCED (log entry 37). -/
def State.runWaiting (s : State) : Option Nat :=
  partIds.find? (fun q => let x := s.part q
    x.stage = 1 && (x.st = .free || x.st = .suspended) && (match x.changing with | some (_, 1) => true | _ => false))

/-- A RUN that waits for the tests of its cores goes on once they have ended. DEDUCED (log entry 37). -/
def State.runsGoOn (s : State) : State :=
  match s.runWaiting with
  | some q => s.runGoOn q
  | none => s

/-- Order 1 of R344 and what follows it, once FROM is suspended; a failure leaves the partition as it was and answers false. -/
def State.runStart (s : State) (p : Nat) : State × Bool :=
  let free := (s.part p).st = .free
  let a := s.field (pgPRT p) oPRT_SETUP_LO 31 0 + 2 ^ 32 * s.field (pgPRT p) oPRT_SETUP_HI 31 0
  let block : Option (List Byte) :=
    if !free then some (s.part p).setup
    else if a % 64 ≠ 0 then none
    else match s.readBytes 16 a 256 with
      | .ok b => some b
      | .error _ => none
  match block with
  | none => (s.runFail p runBAD_SETUP 0, false)
  | some b =>
    let x : Part := { s.part p with setup := b }
    match s.setupBad p x free with
    | some e => (s.runFail p e.1 e.2, false)
    | none => ((s.setPart p x).runGoOn p, true)

/-- A partition's change ends. -/
def State.changeOver (s : State) (p : Nat) : State := s.setPart p { s.part p with changing := none, stage := 0 }

/-- Whether some partition's change is in progress. -/
def State.changingNow (s : State) : Bool := partIds.any (fun p => (s.part p).changing.isSome)

/-- The intake's last count and the records left; true once none waits. -/
def State.releaseRecords (s : State) (p : Nat) : State × Bool :=
  let s := s.drainRing p
  (s, (s.part p).ring.waiting = [])

/-- Orders 4 to 6 of R346. -/
def State.releaseEnd (s : State) (p : Nat) : State :=
  let x := s.part p
  let s := { s with
    tables := s.tables.filter (fun e => !(within e.1 1 x.tslots.1 x.tslots.2))
    indexes := s.indexes.filter (fun e => !(within e.1 1 x.islots.1 x.islots.2))
    texts := s.texts.filter (fun e => !(within e.1 1 x.xslots.1 x.xslots.2)) }
  let s := s.semClearIf (fun k => s.semInWindow p k)
  let mine := fun (g : Nat) => within (g * pageBytes) pageBytes x.ddrShare.1 x.ddrShare.2 || within (g * pageBytes) pageBytes x.flsShare.1 x.flsShare.2
  let s := ((s.pages.map (·.1)).filter mine).foldl (fun s g => (s.page g).copies.foldl (fun s c => s.dropCopy c.part g false) s) s
  let s := s.zeroRange 16 x.resBase x.resBytes
  let s := [0, 1, 2, 3].foldl (fun s q => s.zeroRange 16 (potBase + q * potStep + (x.stk q).1) (x.stk q).2) s
  let s := s.zeroRange 16 x.ddrShare.1 x.ddrShare.2
  let s := (rangePages x.flsShare.1 x.flsShare.2).foldl (fun s g =>
    (List.range 32).foldl (fun s i => s.bufferUnit ((g * pageBytes - flsBase) / 4096 + 4 * i) 1 []) s) s
  (s.setPart p partFree).prtResult p runOK 0

/-- RELEASE (R346) from its order 1. DEDUCED (log entry 73). -/
def State.releaseStart (s : State) (p : Nat) : State × Bool :=
  let s := s.endWhere (fun c => c.part = p && c.ref.sub = 0 && c.phase = .waiting) stCANCELLED 0
  let s := ((s.listsOf p).filter (fun l => l.accepted < l.total)).foldl (fun s l => s.endList l stCANCELLED) s
  let s := if (s.srv p).enabled then s.serveOff p else s
  (s.reportIntake p).releaseRecords p

/-- A state change begins; false where it ended at once. -/
def State.changeStart (s : State) (p op from' : Nat) : State × Bool :=
  let x := s.part p
  if op = 1 then
    if !(x.st = .free || x.st = .suspended) || !(from' = 31 || (from' < 16 && from' ≠ p && (s.part from').st = .active)) then
      (s.runFail p runBAD_STATE 0, false)
    else
      let s := (s.setPart p { x with changing := some (from', 1) }).prtResult p 15 0
      if from' = 31 then
        let r := s.runStart p
        if r.2 then r else (r.1.changeOver p, false)
      else (s.suspendStart from', true)
  else if op = 2 then
    if x.st ≠ .active then (s.prtResult p runBAD_STATE 0, false)
    else
      let s := (s.setPart p { x with changing := some (31, 2) }).prtResult p 15 0
      (s.suspendStart p, true)
  else
    if x.st ≠ .suspended then (s.prtResult p runBAD_STATE 0, false)
    else
      let r := s.releaseStart p
      if r.2 then (r.1.releaseEnd p, false)
      else ((r.1.setPart p { r.1.part p with changing := some (31, 3) }).prtResult p 15 0, true)

/-- Waiting changes begin, in the order written, until one is in progress; a RUN waits for READY (R550). -/
def State.nextChange : Nat → State → State
  | 0, s => s
  | fuel + 1, s =>
    if s.changingNow then s
    else match s.changeQueue.find? (fun e => e.2.1 ≠ 1 || s.start.ready) with
      | none => s
      | some e =>
        let s := { s with changeQueue := s.changeQueue.filter (· ≠ e) }
        State.nextChange fuel (s.changeStart e.1 e.2.1 e.2.2).1

def State.moreChanges (s : State) : State := State.nextChange (s.changeQueue.length + 1) s

/-- GO of partition p (R334): OP 0 has no effect; a change waits while another partition's is in progress. -/
def State.prtGo (s : State) (p op from' : Nat) : State :=
  if op = 0 then s
  else if (s.part p).changing.isSome then (if op = 1 then s.runFail p runBAD_STATE 0 else s.prtResult p runBAD_STATE 0)
  else if s.changingNow || (op = 1 && !s.start.ready) then
    { (s.prtResult p 15 0) with changeQueue := s.changeQueue.filter (fun e => e.1 ≠ p) ++ [(p, op, from')] }
  else (s.changeStart p op from').1.moreChanges

/-- GO with the operation that a row names, written to OP. -/
def State.prtOp (s : State) (p op : Nat) : State :=
  let s := s.setField (pgPRT p) oPRT_PRT_CTRL 2 1 op
  s.prtGo p op (s.field (pgPRT p) oPRT_PRT_CTRL 8 4)

/-- A partition that is suspended passes on: to the RUN that named it, or to its own change's end. -/
def State.suspended (s : State) (p : Nat) : State :=
  match partIds.find? (fun q => (s.part q).changing = some (p, 1)) with
  | some q =>
    let r := s.runStart q
    if r.2 then r.1 else (r.1.changeOver q).moreChanges
  | none => ((s.changeOver p).prtResult p runOK 0).moreChanges

/-- A RELEASE that waits for its records goes on once none waits. -/
def State.releaseGoOn (s : State) (p : Nat) : State :=
  if (s.part p).changing = some (31, 3) && (s.part p).ring.waiting = [] then (s.releaseEnd p).moreChanges else s

/-! ### Rows -/

/-- PRT_RUN (R344). -/
def execPrtRun (p : Fin 16) (s : State) : Host.Outcome State Fault Refusal := onPage s (pgPRT p.val) (done (s.prtOp p.val 1))

/-- PRT_SUSPEND (R343). -/
def execPrtSuspend (p : Fin 16) (s : State) : Host.Outcome State Fault Refusal := onPage s (pgPRT p.val) (done (s.prtOp p.val 2))

/-- PRT_RELEASE (R346). -/
def execPrtRelease (p : Fin 16) (s : State) : Host.Outcome State Fault Refusal := onPage s (pgPRT p.val) (done (s.prtOp p.val 3))

/-- SUSPEND_COMMITS_DONE (R343, orders 3 and 4): no command of the partition is past order 2 of its commit. -/
def execSuspendCommitsDone (p : Fin 16) (s : State) : Host.Outcome State Fault Refusal :=
  let x := s.part p.val
  if x.st = .suspending && x.stage = 0 &&
      !(s.cmds.any (fun c => c.part = p.val && (c.phase = .applying || c.phase = .answering || c.phase = .draining))) then
    done (s.suspendClear p.val)
  else done s

/-- WRITEBACK_DONE (R343, orders 5 and 6): order 6 waits until the tests of the cores have ended (R482). -/
def execWritebackDone (p : Fin 16) (s : State) : Host.Outcome State Fault Refusal :=
  let x := s.part p.val
  if x.st = .suspending && x.stage = 1 && !(s.coresUnderTest (s.coresOf p.val)) then done ((s.suspendEnd p.val).suspended p.val) else done s

/-- PRELOAD_DONE (R344, order 5): every preloaded page has its copy, and the flash map is ready where the partition needs it (R398). DEDUCED (log entry 73). -/
def execPreloadDone (p : Fin 16) (s : State) : Host.Outcome State Fault Refusal :=
  let q := p.val
  let x := s.part q
  let flash := x.flsShare.2 ≠ 0 || (x.shared.1 ≠ 0 && zoneOf x.shared.1 = .fls)
  if s.runWaiting = some q then done s.runsGoOn
  else if x.st ≠ .resuming then done s
  else if (s.preloadPages q).any (fun g => ((s.page g).own q).isNone) then done (s.startPreload q)
  else if flash && s.flash.mapState ≠ 3 then done s
  else
    let us := s.choose 0xE8 (2 ^ 32)
    let from' := match x.changing with | some c => c.1 | none => 31
    let s := (s.setPart q { x with st := .active }).changeOver q
    let s := s.setStored (pgPRT q) oPRT_SWITCH_US 0 (BitVec.ofNat 32 us)
    let s := (s.count (pgPRT q) oPRT_SWITCHES 1).prtResult q runOK 0
    done ((s.flagEvent (pgPRT q) 0 1 (from' + us * 2 ^ 32) none).moreChanges)

/-- SELF_TEST_DONE (R480 orders 4 and 5, R481 to R485); a RUN that waits for it goes on (R482). No effect where no such test runs. -/
def execSelfTestDone (site : ErrSite) (r : TestResult) (s : State) : Host.Outcome State Fault Refusal :=
  match s.errors.tests.find? (fun t => t.started && t.site = site) with
  | none => done s
  | some t => done (s.testDone t site r).runsGoOn

/-- RECORD_WRITE (R577). -/
def execRecordWrite (p : Fin 16) (s : State) : Host.Outcome State Fault Refusal := done ((s.drainRing p.val).releaseGoOn p.val)

/-- PAGE_COPY_DONE (R200, R361): the page's copy is complete; stalled updates are applied where the page now stands. DEDUCED (log entry 74). -/
def execPageCopyDone (g : Nat) (s : State) : Host.Outcome State Fault Refusal :=
  if pageZone g = .fls && s.flash.mapState ≠ 3 then done s
  else done (((s.copyDone g).applyStalls g).resumeScatters)

end Sys2Proof.Machine
end

