-- ==== Sys2Proof/Machine/Arbiter.lean ====
section
/-! DEFINITION. The arbiters (15) and the token buckets of the partition regulators (R338). -/

namespace Sys2Proof.Machine

/-- The ports an arbiter has (R375). -/
def arbPortValid (a p : Nat) : Bool := if a < 32 then p ≤ 27 else p ≤ 6

def Arb.port (b : Arb) (p : Nat) : ArbPort := tabGet arbPortIdle b.ports p
def Arb.setPort (b : Arb) (p : Nat) (x : ArbPort) : Arb := { b with ports := tabPut arbPortIdle b.ports p x }

/-- The weight of a class (R376, R385). -/
def State.classWeight (s : State) (a c : Nat) : Nat := max 1 (s.field (pgARB a) oARB_CLASS_WEIGHT (4 * c + 3) (4 * c))

/-- The regulator register of an arbiter's kind (R347). -/
def arbReg (a : Nat) : Nat := if a < 8 then oPRT_REG_HBM else if a < 32 then oPRT_REG_DDR else oPRT_REG_BACK

/-- Credits grow over `cycles` cycles of the controller's clock (R338); kept in 1/4096 byte. DEDUCED (log entry 32). DESIGN CHOICE (log entry 98). -/
def State.refill (s : State) (a cycles : Nat) (b : Arb) : Arb :=
  let kind := if a < 8 then 0 else if a < 32 then 1 else 2
  { b with credits := partIds.foldl (fun t p =>
      tabPut 0 t p (min (tabGet 0 t p + (s.share p (arbReg a) * Config.peakBytesPerCycle kind * cycles : Nat))
        (s.burst p (arbReg a) * 4096 : Nat))) b.credits }

/-- A request is eligible under its partition's regulator (R338); work of no partition is not regulated. -/
def Arb.eligible (b : Arb) (r : ArbReq) : Bool := 16 ≤ r.part.val || 0 < tabGet 0 b.credits r.part.val

/-- Ports with a head, in number order. -/
def Arb.heads (b : Arb) : List (Nat × Queued) :=
  b.ports.filterMap (fun e => e.2.queue.head?.map (fun q => (e.1, q)))

/-- The candidates of a pick (R377), and whether they compete for spare bandwidth. -/
def State.candidates (s : State) (a : Nat) (b : Arb) : List (Nat × Queued) × Bool :=
  let el := b.heads.filter (fun e => b.eligible e.2.req)
  if el ≠ [] then (el, false)
  else (b.heads.filter (fun e => s.spareOk e.2.req.part.val (arbReg a)), true)

/-- Whether x ranks before y: greater weighted age, then earlier arrival (R377). -/
def State.outranks (s : State) (a : Nat) (x y : Queued) : Bool :=
  let wx := x.age * s.classWeight a x.req.cls.val
  let wy := y.age * s.classWeight a y.req.cls.val
  wy < wx || (wx = wy && x.order < y.order)

/-- The best of the candidates. -/
def State.best (s : State) (a : Nat) (l : List (Nat × Queued)) : Option (Nat × Queued) :=
  l.foldl (fun r e => match r with
    | none => some e
    | some w => if s.outranks a e.2 w.2 then some e else r) none

/-- A pick (R379, R381): the best candidate is held; each losing candidate's port counts a loss and backs off. DEDUCED (log entry 77). -/
def State.makePick (s : State) (a : Nat) : State :=
  let b := s.arb a
  let (cs, spare) := s.candidates a b
  match s.best a cs with
  | none => s.setArb a { b with pick := none }
  | some w =>
    let losers := cs.filter (fun e => e.1 ≠ w.1)
    let b := losers.foldl (fun b e =>
      let x := b.port e.1
      let n := min 10 (x.losses + 1)
      b.setPort e.1 { x with losses := n, backoff := 2 ^ n }) b
    (s.setArb a { b with pick := some w.1, pickSpare := spare, stale := false }).count (pgARB a) oARB_BACKOFFS losers.length

/-- Bytes moved at a memory's arbiter (R371, R372). -/
def State.countMoved (s : State) (a : Nat) (r : ArbReq) : State :=
  if a < 8 then s.countBytes (pgHBM a) (if r.write then oHBM_HBM_WR else oHBM_HBM_RD) r.bytes
  else if a < 32 then s.countBytes (pgDDR (a - 8)) (if r.write then oDDR_DDR_WR else oDDR_DDR_RD) r.bytes
  else s

/-- A grant starts at a port (R379, R381): its head enters the resource, its partition pays, every waiting request ages,
other ports' back-off runs down, and the next winner is picked. -/
def State.startGrant (s : State) (a p : Nat) : State :=
  let b := s.arb a
  let x := b.port p
  match x.queue with
  | [] => s.setArb a { b with pick := none }
  | q :: rest =>
    let b := b.setPort p { x with queue := rest, losses := 0, backoff := 0 }
    let b : Arb := { b with
      ports := b.ports.map (fun e => (e.1, { e.2 with
        backoff := if e.1 = p then 0 else e.2.backoff - 1
        queue := e.2.queue.map (fun r => { r with age := min 255 (r.age + 1) }) }))
      grant := some (p, q)
      limit := max 0x1000 (s.field (pgARB a) oARB_WDOG_LIMIT 23 0)
      credits := if q.req.part.val < 16 then
          tabPut 0 b.credits q.req.part.val (afterGrant (tabGet 0 b.credits q.req.part.val) q.req.bytes)
        else b.credits }
    let b : Arb := { b with ports := b.ports.filter (fun e => e.2 ≠ arbPortIdle) }
    ((((s.setArb a b).count (pgARB a) oARB_GRANTS 1).countMoved a q.req).makePick a)

/-- Heads that wait for credit are counted once (R347). -/
def State.countThrottled (s : State) (a : Nat) : State :=
  let b := s.arb a
  let slow := fun (q : Queued) => !q.throttled && !(b.eligible q.req)
  let s := b.heads.foldl (fun s e => if slow e.2 then s.count (pgPRT e.2.req.part.val) oPRT_THROTTLED 1 else s) s
  s.setArb a { b with ports := b.ports.map (fun e => (e.1, { e.2 with queue := match e.2.queue with
    | [] => []
    | q :: r => (if slow q then { q with throttled := true } else q) :: r })) }

/-- With no grant in service, the held pick's grant starts, or else that of the best candidate there is. -/
def State.arbNext (s : State) (a : Nat) : State :=
  let b := s.arb a
  if b.grant.isSome then s
  else match b.pick with
    | some p => s.startGrant a p
    | none =>
      let t := s.makePick a
      match (t.arb a).pick with
      | some p => t.startGrant a p
      | none => t

/-- Requesters that receive an internal error (R382, R383): commands are killed, moves abandoned. -/
def State.arbKill (s : State) (rs : List ArbReq) : State :=
  let refs := rs.filterMap (·.cmd)
  let s := s.killWhere (fun c => refs.contains c.ref) causeArb
  (rs.filterMap (·.move)).foldl (fun s g => s.abandonMove g (fun m => !m.done)) s

/-- ARB_REQUEST (R375 to R381): a request arrives at a port. A port out of service refuses it; a full port or one that
backs off keeps it waiting at the handshake. With nothing in service and nothing held, a lone request is granted at once.
`cycles` counts the controller's cycles since its last event. DESIGN CHOICE (log entry 8). DEDUCED (log entry 77). -/
def execArbRequest (arb : Fin 36) (port : Fin 32) (req : ArbReq) (cycles : Nat) (s : State) : Host.Outcome State Fault Refusal :=
  awake s <|
  let a := arb.val
  let b := s.refill a cycles (s.arb a)
  let s := s.setArb a b
  let x := b.port port.val
  if !(arbPortValid a port.val) then done s
  else if x.out then done (s.arbKill [req])
  else if 32 ≤ x.queue.length || 0 < x.backoff then done s
  else
    let q : Queued := ⟨req, 0, b.arrivals, false⟩
    let b := { b.setPort port.val { x with queue := x.queue ++ [q] } with arrivals := b.arrivals + 1 }
    let alone := b.heads.length = 1 && x.queue = []
    let s := s.setArb a b
    if b.grant = none && b.pick = none && (s.candidates a b).1 ≠ [] then
      let s := if alone then (s.startGrant a port.val).count (pgARB a) oARB_BYPASS 1 else s.arbNext a
      done (s.countThrottled a)
    else
      let late := b.pick.isSome && b.pickSpare && !b.stale && x.queue = [] && b.eligible req
      let s := if late then (s.setArb a { b with stale := true }).count (pgARB a) oARB_STALE 1 else s
      done (s.countThrottled a)

/-- ARB_GRANT_DONE (R379): the grant in service completes and the held pick's grant starts. -/
def execArbGrantDone (arb : Fin 36) (cycles : Nat) (s : State) : Host.Outcome State Fault Refusal :=
  awake s <|
  let b := s.refill arb.val cycles (s.arb arb.val)
  let s := s.setArb arb.val { b with grant := none }
  done ((s.arbNext arb.val).countThrottled arb.val)

/-- ARB_WATCHDOG (R382, R383): a grant not completed within the limit is bitten. No effect within the limit. DEDUCED (log entry 77). -/
def execArbWatchdog (arb : Fin 36) (ticks : Nat) (s : State) : Host.Outcome State Fault Refusal :=
  let a := arb.val
  let b := s.arb a
  match b.grant with
  | none => done s
  | some (p, q) =>
    if ticks < b.limit then done s
    else
      let x := b.port p
      let again := match x.lastBite with | some t => s.strobes ≤ t + 1024 | none => false
      let held := b.pick = some p
      let b := { b.setPort p { arbPortIdle with out := x.out || again, lastBite := some s.strobes } with
        grant := none
        pick := if held then none else b.pick }
      let tag := (q.req.cmd.bind s.cmd?).bind Cmd.evTag
      let s := (s.setArb a b).arbKill (q.req :: x.queue.map (·.req))
      let s := (s.count (pgARB a) oARB_BITES 1).flagEvent (pgARB a) 1 1
        (p + q.req.cls.val * 2 ^ 5 + q.req.master.toNat * 2 ^ 16 + ticks % 2 ^ 32 * 2 ^ 32) tag
      let s := if again then
          (s.flagEvent (pgARB a) 2 2 (p + q.req.master.toNat * 2 ^ 16) tag).beginTest (.arbQueue arb (Fin.ofNat 32 p)) 2
        else s
      done (s.arbNext a)

/-- PORT_CTRL.RESTORE: the selected port returns to service (R383, R385). -/
def State.portRestore (s : State) (a : Nat) : State :=
  let b := s.arb a
  let p := s.field (pgARB a) oARB_PORT_SEL 4 0
  s.setArb a (b.setPort p { b.port p with out := false })

def execPortRestore (arb : Fin 36) (s : State) : Host.Outcome State Fault Refusal := 
  onPage s (pgARB arb.val) (done (s.portRestore arb.val))

end Sys2Proof.Machine
end

