-- ==== Sys2Proof/Machine/Crypto.lean ====
section
/-! DEFINITION. The functions of the standards the security rules name: SHA-256 and HMAC (FIPS 180-4, RFC 2104), CRC-32C, AES-256
key unwrap (RFC 3394), and HSS/LMS signature verification (RFC 8554), over lists of bytes. -/

namespace Sys2Proof.Machine

/-! ### SHA-256 -/

def shaK : List Nat :=
  [0x428a2f98, 0x71374491, 0xb5c0fbcf, 0xe9b5dba5, 0x3956c25b, 0x59f111f1, 0x923f82a4, 0xab1c5ed5] ++
  [0xd807aa98, 0x12835b01, 0x243185be, 0x550c7dc3, 0x72be5d74, 0x80deb1fe, 0x9bdc06a7, 0xc19bf174] ++
  [0xe49b69c1, 0xefbe4786, 0x0fc19dc6, 0x240ca1cc, 0x2de92c6f, 0x4a7484aa, 0x5cb0a9dc, 0x76f988da] ++
  [0x983e5152, 0xa831c66d, 0xb00327c8, 0xbf597fc7, 0xc6e00bf3, 0xd5a79147, 0x06ca6351, 0x14292967] ++
  [0x27b70a85, 0x2e1b2138, 0x4d2c6dfc, 0x53380d13, 0x650a7354, 0x766a0abb, 0x81c2c92e, 0x92722c85] ++
  [0xa2bfe8a1, 0xa81a664b, 0xc24b8b70, 0xc76c51a3, 0xd192e819, 0xd6990624, 0xf40e3585, 0x106aa070] ++
  [0x19a4c116, 0x1e376c08, 0x2748774c, 0x34b0bcb5, 0x391c0cb3, 0x4ed8aa4a, 0x5b9cca4f, 0x682e6ff3] ++
  [0x748f82ee, 0x78a5636f, 0x84c87814, 0x8cc70208, 0x90befffa, 0xa4506ceb, 0xbef9a3f7, 0xc67178f2]

def shaInit : List Word := [0x6a09e667#32, 0xbb67ae85#32, 0x3c6ef372#32, 0xa54ff53a#32, 0x510e527f#32, 0x9b05688c#32, 0x1f83d9ab#32, 0x5be0cd19#32]

/-- The message schedule: the next word from the sixteen before it, newest first. -/
def shaSchedule : Nat → List Word → List Word
  | 0, w => w
  | n + 1, w =>
    let a := nth 0#32 w 14
    let b := nth 0#32 w 1
    let s0 := a.rotateRight 7 ^^^ a.rotateRight 18 ^^^ (a >>> 3)
    let s1 := b.rotateRight 17 ^^^ b.rotateRight 19 ^^^ (b >>> 10)
    shaSchedule n ((nth 0#32 w 15 + s0 + nth 0#32 w 6 + s1) :: w)

/-- One round on the eight working words. -/
def shaRound (v : List Word) (k : Nat) (w : Word) : List Word :=
  match v with
  | [a, b, c, d, e, f, g, h] =>
    let t1 := h + (e.rotateRight 6 ^^^ e.rotateRight 11 ^^^ e.rotateRight 25) + ((e &&& f) ^^^ (~~~e &&& g)) + BitVec.ofNat 32 k + w
    let t2 := (a.rotateRight 2 ^^^ a.rotateRight 13 ^^^ a.rotateRight 22) + ((a &&& b) ^^^ (a &&& c) ^^^ (b &&& c))
    [t1 + t2, a, b, c, d + t1, e, f, g]
  | _ => v

/-- One block of 64 bytes. -/
def shaBlock (h : List Word) (b : List Byte) : List Word :=
  let w := ((List.range 16).map (fun i => BitVec.ofNat 32 (fldBe b (4 * i) 4))).reverse
  let w := (shaSchedule 48 w).reverse
  let v := (shaK.zip w).foldl (fun v e => shaRound v e.1 e.2) h
  List.zipWith (· + ·) h v

def shaBlocks : Nat → List Word → List Byte → List Word
  | 0, h, _ => h
  | n + 1, h, bs => shaBlocks n (shaBlock h (bs.take 64)) (bs.drop 64)

def sha256 (m : List Byte) : List Byte :=
  let z := (119 - m.length % 64) % 64
  let p := m ++ [0x80#8] ++ List.replicate z 0#8 ++ beBytes 8 (8 * m.length)
  (shaBlocks (p.length / 64) shaInit p).flatMap (fun w => beBytes 4 w.toNat)

/-- HMAC-SHA-256. -/
def hmacSha256 (key m : List Byte) : List Byte :=
  let k := padTo 64 (if 64 < key.length then sha256 key else key)
  sha256 (k.map (· ^^^ 0x5C#8) ++ sha256 (k.map (· ^^^ 0x36#8) ++ m))

/-! ### CRC-32C -/

def crcBit (c : Word) : Word := if c.toNat % 2 = 1 then (c >>> 1) ^^^ 0x82F63B78#32 else c >>> 1

def crc32c (m : List Byte) : Word :=
  ~~~ (m.foldl (fun c b => (List.range 8).foldl (fun c _ => crcBit c) (c ^^^ b.setWidth 32)) 0xFFFFFFFF#32)

/-! ### AES-256 -/

def xtime (b : Byte) : Byte := (b <<< 1) ^^^ (if 0x80 ≤ b.toNat then 0x1B#8 else 0#8)

/-- Product in GF(2^8). -/
def gmul (a b : Byte) : Byte :=
  ((List.range 8).foldl (fun (r : Byte × Byte) i => (if bit b.toNat i then r.1 ^^^ r.2 else r.1, xtime r.2)) (0#8, a)).1

/-- The inverse in GF(2^8): the 254th power, as the square of the 127th. -/
def ginv (a : Byte) : Byte :=
  let x := (List.range 6).foldl (fun r _ => gmul (gmul r r) a) a
  gmul x x

def aesSbox (a : Byte) : Byte :=
  let b := ginv a
  b ^^^ b.rotateLeft 1 ^^^ b.rotateLeft 2 ^^^ b.rotateLeft 3 ^^^ b.rotateLeft 4 ^^^ 0x63#8

def aesInvSbox (a : Byte) : Byte :=
  ginv (a.rotateLeft 1 ^^^ a.rotateLeft 3 ^^^ a.rotateLeft 6 ^^^ 0x05#8)

/-- Key expansion: words newest first. -/
def aesExpand : Nat → Nat → Byte → List (List Byte) → List (List Byte)
  | 0, _, _, ws => ws
  | n + 1, i, rc, ws =>
    let t := nth [] ws 0
    let t' := if i % 8 = 0 then
        match t with
        | [a, b, c, d] => [aesSbox b ^^^ rc, aesSbox c, aesSbox d, aesSbox a]
        | _ => t
      else if i % 8 = 4 then t.map aesSbox else t
    aesExpand n (i + 1) (if i % 8 = 0 then xtime rc else rc) (List.zipWith (· ^^^ ·) (nth [] ws 7) t' :: ws)

/-- The fifteen round keys of 16 bytes. -/
def aesKeys (key : List Byte) : List (List Byte) :=
  let w0 := ((List.range 8).map (fun i => (key.drop (4 * i)).take 4)).reverse
  let ws := (aesExpand 52 8 0x01#8 w0).reverse
  (List.range 15).map (fun r => ((ws.drop (4 * r)).take 4).flatten)

def invShiftRows (s : List Byte) : List Byte :=
  (List.range 16).map (fun i => nth 0#8 s ((i + 16 - 4 * (i % 4)) % 16))

def invMixColumns (s : List Byte) : List Byte :=
  (List.range 16).map (fun i =>
    let c := i / 4 * 4
    let r := i % 4
    gmul (nth 0#8 s (c + r)) 0x0E#8 ^^^ gmul (nth 0#8 s (c + (r + 1) % 4)) 0x0B#8 ^^^
      gmul (nth 0#8 s (c + (r + 2) % 4)) 0x0D#8 ^^^ gmul (nth 0#8 s (c + (r + 3) % 4)) 0x09#8)

def xorBytes (a b : List Byte) : List Byte := List.zipWith (· ^^^ ·) a b

/-- One block deciphered under AES-256. -/
def aesDecrypt (keys : List (List Byte)) (c : List Byte) : List Byte :=
  let s := xorBytes c (nth [] keys 14)
  let s := (List.range 13).foldl (fun s i =>
    invMixColumns (xorBytes ((invShiftRows s).map aesInvSbox) (nth [] keys (13 - i)))) s
  xorBytes ((invShiftRows s).map aesInvSbox) (nth [] keys 0)

/-- RFC 3394 unwrap of n 8-byte blocks: the plain key, none where the check value is wrong. -/
def keyUnwrap (key wrapped : List Byte) : Option (List Byte) :=
  let n := wrapped.length / 8 - 1
  let ks := aesKeys key
  let r0 := (List.range n).map (fun i => (wrapped.drop (8 * i + 8)).take 8)
  let (a, r) := (List.range (6 * n)).foldl (fun (x : List Byte × List (List Byte)) j =>
    let t := 6 * n - j
    let i := (t - 1) % n
    let b := aesDecrypt ks (xorBytes x.1 (beBytes 8 t) ++ nth [] x.2 i)
    (b.take 8, x.2.set i (b.drop 8))) (wrapped.take 8, r0)
  if a = List.replicate 8 0xA6#8 then some r.flatten else none

/-! ### HSS and LMS (RFC 8554) -/

/-- Digit i of width w of a string. -/
def lmsCoef (s : List Byte) (i w : Nat) : Nat :=
  let k := 8 / w
  (nth 0#8 s (i / k)).toNat / 2 ^ (8 - w * (i % k + 1)) % 2 ^ w

/-- Width, number of chains and checksum shift of an LM-OTS type of R501. -/
def lmotsParams : Nat → Option (Nat × Nat × Nat)
  | 3 => some (4, 67, 4)
  | 4 => some (8, 34, 0)
  | _ => none

/-- The height of an LMS type of R501. -/
def lmsHeight : Nat → Option Nat
  | 6 => some 10
  | 7 => some 15
  | 8 => some 20
  | _ => none

/-- The rest of a hash chain from step j on. -/
def lmotsChain (pre : List Byte) : Nat → Nat → List Byte → List Byte
  | 0, _, t => t
  | n + 1, j, t => lmotsChain pre n (j + 1) (sha256 (pre ++ [BitVec.ofNat 8 j] ++ t))

/-- The public key candidate of an LM-OTS signature. -/
def lmotsCandidate (id : List Byte) (q : Nat) (sig msg : List Byte) : Option (List Byte) :=
  match lmotsParams (fldBe sig 0 4) with
  | none => none
  | some (w, p, ls) =>
    let pre := id ++ beBytes 4 q
    let h := sha256 (pre ++ beBytes 2 0x8181 ++ (sig.drop 4).take 32 ++ msg)
    let sum := ((List.range (256 / w)).map (fun i => 2 ^ w - 1 - lmsCoef h i w)).sum
    let d := h ++ beBytes 2 (sum * 2 ^ ls)
    let z := (List.range p).map (fun i =>
      let a := lmsCoef d i w
      lmotsChain (pre ++ beBytes 2 i) (2 ^ w - 1 - a) a ((sig.drop (36 + 32 * i)).take 32))
    some (sha256 (pre ++ beBytes 2 0x8080 ++ z.flatten))

/-- Bytes of an LMS signature, by its LM-OTS and LMS types. -/
def lmsSigLen (sig : List Byte) : Option Nat :=
  match lmotsParams (fldBe sig 4 4) with
  | none => none
  | some (_, p, _) => (lmsHeight (fldBe sig (40 + 32 * p) 4)).map (fun h => 44 + 32 * p + 32 * h)

/-- The root an LMS signature leads to. -/
def lmsRoot (id : List Byte) (path : List Byte) : Nat → Nat → Nat → List Byte → List Byte
  | 0, _, _, t => t
  | n + 1, i, node, t =>
    let s := (path.drop (32 * i)).take 32
    let pre := id ++ beBytes 4 (node / 2) ++ beBytes 2 0x8383
    lmsRoot id path n (i + 1) (node / 2) (sha256 (if node % 2 = 1 then pre ++ s ++ t else pre ++ t ++ s))

/-- Verification of an LMS signature under a public key of 56 bytes. PRESUMED (log entry 17). -/
def lmsVerify (pub sig msg : List Byte) : Bool :=
  match lmsHeight (fldBe pub 0 4), lmsSigLen sig, lmotsParams (fldBe sig 4 4) with
  | some h, some n, some (_, p, _) =>
    let id := (pub.drop 8).take 16
    let q := fldBe sig 0 4
    let ots := (sig.drop 4).take (36 + 32 * p)
    n ≤ sig.length && fldBe sig 4 4 = fldBe pub 4 4 && fldBe sig (40 + 32 * p) 4 = fldBe pub 0 4 && q < 2 ^ h &&
      (match lmotsCandidate id q ots msg with
       | none => false
       | some k =>
         let leaf := sha256 (id ++ beBytes 4 (2 ^ h + q) ++ beBytes 2 0x8282 ++ k)
         lmsRoot id (sig.drop (44 + 32 * p)) h 0 (2 ^ h + q) leaf = (pub.drop 24).take 32)
  | _, _, _ => false

/-- Verification of an HSS signature of `levels` signed public keys, then the message. PRESUMED (log entry 17). -/
def hssVerify : Nat → List Byte → List Byte → List Byte → Bool
  | 0, pub, sig, msg => lmsVerify pub sig msg
  | k + 1, pub, sig, msg =>
    match lmsSigLen sig with
    | none => false
    | some n =>
      let next := (sig.drop n).take 56
      lmsVerify pub sig next && hssVerify k next (sig.drop (n + 56)) msg

end Sys2Proof.Machine
end

