-- ==== Sys2Proof/Machine/Security.lean ====
section
/-! DEFINITION. The security block and the calendar (20): management keys, measurements, leaf state, SVN floor, debug port,
attestation requests, and the calendar's ticks, SET and loss. -/

namespace Sys2Proof.Machine

/-! ### Management keys (R498) -/

def State.keySel (s : State) : Nat := s.field pgSEC oSEC_KEY_SEL 1 0

/-- KEY_W0 to KEY_W7 as bytes, W0 least significant. -/
def State.keyBytes (s : State) : List Byte := s.sec.keyWords.flatMap (fun w => leBytes 4 w.toNat)

/-- KEY_CTRL.LOAD: the key is replaced and its replay state reset, unless the slot is locked. -/
def State.keyLoad (s : State) : State :=
  let k := s.keySlot s.keySel
  if k.locked then s else s.setKeySlot s.keySel ⟨some s.keyBytes, false, 0, [], []⟩

/-- KEY_CTRL.LOCK: no load or clear of the slot until POR_N. -/
def State.keyLock (s : State) : State := s.setKeySlot s.keySel { s.keySlot s.keySel with locked := true }

/-- KEY_CTRL.CLEAR: the slot is emptied unless locked. -/
def State.keyClear (s : State) : State :=
  if (s.keySlot s.keySel).locked then s else s.setKeySlot s.keySel keyEmpty

def execKeyLoad (s : State) : Host.Outcome State Fault Refusal := onPage s pgSEC (done s.keyLoad)
def execKeyLock (s : State) : Host.Outcome State Fault Refusal := onPage s pgSEC (done s.keyLock)
def execKeyClear (s : State) : Host.Outcome State Fault Refusal := onPage s pgSEC (done s.keyClear)

/-! ### Measurements (R504) -/

def measZero : List Byte := List.replicate 32 0#8

/-- Measurement register i. -/
def State.meas (s : State) (i : Nat) : List Byte := tabGet measZero s.sec.meas i

/-- M := SHA-256(M ‖ d). -/
def State.extend (s : State) (i : Nat) (d : List Byte) : State :=
  { s with sec := { s.sec with meas := tabPut measZero s.sec.meas i (sha256 (s.meas i ++ d)) } }

/-- EXTEND_CTRL.GO: M7 is extended with EXTEND_W0 to W7. -/
def State.extendM7 (s : State) : State :=
  s.extend 7 ((List.range 8).flatMap (fun i => leBytes 4 (s.stored pgSEC (oSEC_EXTEND_W0 + 4 * i) 0).toNat))

def execMeasurementExtend (s : State) : Host.Outcome State Fault Refusal := onPage s pgSEC (done s.extendM7)

/-- SVN_CTRL.COMMIT (R503): the running SVN becomes the floor, which never falls; increments that do not fit in OTP set SVN_FULL. -/
def State.svnCommit (s : State) : State :=
  if s.sec.runningSvn ≤ s.sec.svnFloor then s
  else
    let n := s.sec.burned + (s.sec.runningSvn - s.sec.svnFloor)
    if 32 < n then s.setErr pgMGT 3
    else { s with sec := { s.sec with burned := n, svnFloor := s.sec.runningSvn } }

def execSvnCommit (s : State) : Host.Outcome State Fault Refusal := onPage s pgMGT (done s.svnCommit)

/-- "debug-open" in ASCII. -/
def debugText : List Byte := [0x64#8, 0x65#8, 0x62#8, 0x75#8, 0x67#8, 0x2D#8, 0x6F#8, 0x70#8, 0x65#8, 0x6E#8]

/-- DEBUG_CTRL.OPEN (R504, R516): M6 is extended, the opening logged, and DEBUG_OPEN raised. DEDUCED (log entry 30). -/
def State.debugOpen (s : State) : State :=
  let s := s.extend 6 (sha256 debugText)
  let s := ({ s with sec := { s.sec with debugOpen := true } }).logMgmt 0x0202 pgMGT 0xF02
  s.flagEvent pgMGT 2 2 0xF02 none

def execDebugOpen (s : State) : Host.Outcome State Fault Refusal := onPage s pgMGT (done s.debugOpen)

/-- TAP_INSTRUCTION (R516): boundary scan is always there; every other instruction acts as BYPASS until the port is open. -/
def execTapInstruction (ins : TapIns) (s : State) : Host.Outcome State Fault Refusal :=
  match ins with
  | .boundaryScan => done (s.send (.tap false))
  | .other _ => done (s.send (.tap (!s.sec.debugOpen)))

/-! ### Leaves (R506, R507) -/

/-- Leaves remaining of an identity whose next leaf is q. -/
def leavesLeft (q : Nat) : Nat := 2 ^ 30 - q

/-- ID_LOW when the leaves remaining fall below 2^20. -/
def State.leafMoved (s : State) (old : Nat) : State :=
  if 2 ^ 20 ≤ leavesLeft old && leavesLeft s.sec.leafNext < 2 ^ 20 then
    s.flagEvent pgSEC 2 2 (leavesLeft s.sec.leafNext) none
  else s

/-- NEXT at 2^30 exhausts the identity. -/
def State.leafExhaust (s : State) : State :=
  if 2 ^ 30 ≤ s.sec.leafNext && !s.sec.exhausted then
    ({ s with sec := { s.sec with exhausted := true } }).logMgmt 0x0302 pgSEC 0
  else s

/-- A reservation of 64 leaves is written and verified. -/
def State.reserveLeaves (s : State) : State :=
  { s with sec := { s.sec with leafReserved := s.sec.leafReserved + 64, leafSeq := s.sec.leafSeq + 1, leafReady := true } }

/-- Start-up of the leaf state: leaves reserved before are skipped, and 64 more reserved. -/
def State.leafStart (s : State) : State :=
  let old := s.sec.leafNext
  let s : State := { s with sec := { s.sec with leafNext := s.sec.leafReserved } }
  (s.reserveLeaves.leafMoved old).leafExhaust

/-- One leaf used; the next reservation when none is left. -/
def State.useLeaf (s : State) : State :=
  let old := s.sec.leafNext
  let s : State := { s with sec := { s.sec with leafNext := old + 1 } }
  let s := if s.sec.leafReserved ≤ s.sec.leafNext then s.reserveLeaves else s
  (s.leafMoved old).leafExhaust

/-- ATT_CTRL.GO (R508): the nonce and the address are captured; no effect while a report is in progress. -/
def State.attGo (s : State) : State :=
  if s.sec.attResult = 0xF then s
  else
    let nonce := (List.range 8).flatMap (fun i => leBytes 4 (s.stored pgSEC (oSEC_NONCE_W0 + 4 * i) 0).toNat)
    let addr := (s.stored pgSEC oSEC_ATT_ADDR_LO 0).toNat + (s.stored pgSEC oSEC_ATT_ADDR_HI 0).toNat * 2 ^ 32
    { s with sec := { s.sec with att := some ⟨nonce, addr⟩, attResult := 0xF } }

def execAttestationGo (s : State) : Host.Outcome State Fault Refusal := onPage s pgSEC (done s.attGo)

/-! ### The calendar (R510 to R512) -/

/-- TRIM in quarters of 1 ppm, within its limits. -/
def State.trim (s : State) : Int :=
  let v := s.field pgRTC oRTC_TRIM 15 0
  let i : Int := if v < 0x8000 then (v : Int) else (v : Int) - 0x10000
  max (-256) (min 256 i)

/-- The calendar set to a count of 1/32,768 s. -/
def Calendar.setTicks (c : Calendar) (n : Nat) : Calendar :=
  { c with seconds := n / 32768 % 2 ^ 64, fraction := n % 32768 }

/-- The 32 crystal ticks of one strobe period; at a fraction rollover the correction accumulates, and a tick is repeated
or omitted when it reaches one (R512). A positive TRIM adds ticks. DEDUCED (log entry 30). -/
def State.calendarTicks (s : State) : State :=
  let c := s.cal
  let n := c.seconds * 32768 + c.fraction + 32
  if c.fraction + 32 < 32768 then { s with cal := c.setTicks n }
  else
    let a := c.trimAcc + s.trim * 8192
    if 1000000 ≤ a then { s with cal := { c.setTicks (n + 1) with trimAcc := a - 1000000 } }
    else if a ≤ -1000000 then { s with cal := { c.setTicks (n - 1) with trimAcc := a + 1000000 } }
    else { s with cal := { c.setTicks n with trimAcc := a } }

/-- RTC_CTRL.SET (R511): the SET registers become the count; VALID is 1. -/
def State.calendarSet (s : State) : State :=
  let old := s.cal.seconds
  let v := (s.stored pgRTC oRTC_SET_LO 0).toNat + (s.stored pgRTC oRTC_SET_HI 0).toNat * 2 ^ 32
  let s : State := { s with cal := { s.cal with
    seconds := v
    fraction := s.field pgRTC oRTC_SET_FRAC 14 0
    valid := true
    vbatLow := false
    oscStop := false } }
  (s.count pgRTC oRTC_SETS 1).flagEvent pgRTC 2 2 old none

/-- A read of SEC_LO latches SEC_HI and FRAC. -/
def State.secLatch (s : State) : State :=
  { s with cal := { s.cal with latchHi := s.cal.seconds / 2 ^ 32, latchFrac := s.cal.fraction } }

def execCalendarSet (s : State) : Host.Outcome State Fault Refusal := onPage s pgRTC (done s.calendarSet)
def execSecLoLatch (s : State) : Host.Outcome State Fault Refusal := onPage s pgRTC (done s.secLatch)

/-- VBAT_LOW (R510): VBAT is below 1.8 V; VALID falls, and the loss is logged at the next start-up. -/
def execVbatLow (s : State) : Host.Outcome State Fault Refusal :=
  let t : State := { s with cal := { s.cal with valid := false, vbatLow := true, lossLogged := false } }
  done (if t.alive then t.setErr pgRTC 0 else t)

/-- OSC_STOP (R510): no crystal edge for 4 ms. -/
def execOscStop (s : State) : Host.Outcome State Fault Refusal :=
  let t : State := { s with cal := { s.cal with valid := false, oscStop := true, lossLogged := false } }
  done (if t.alive then t.setErr pgRTC 1 else t)

/-- A read of ENERGY_LO latches ENERGY_HI of the selected rail (R472). -/
def State.energyLatchNow (s : State) : State :=
  { s with energyLatch := (s.rail (s.field pgTRV oTRV_RAIL_SEL 3 0)).energy / 2 ^ 32 % 2 ^ 32 }

def execEnergyLoLatch (s : State) : Host.Outcome State Fault Refusal := onPage s pgTRV (done s.energyLatchNow)

end Sys2Proof.Machine
end

