-- ==== Sys2Proof/Machine/Power.lean ====
section
/-! DEFINITION. The trivet and the supervisor (18): the strobe period with its measurements, budgets, gates and loans, the laggard
rule (R131, R132), setpoints (R457), supply dips (R468 to R471), and lost clocks (R569). -/

namespace Sys2Proof.Machine

/-! ### Setpoints (R456, R457) -/

/-- The setpoint in effect on die q, in mV. -/
def State.setpoint (s : State) (q : Nat) : Nat := s.bankField pgTRV oTRV_DIE_VSET q 31 16

/-- The warning level that goes with a core-rail setpoint (R468). -/
def coreWarnMv (mv : Nat) : Nat := max 520 (mv - 60)

/-- One voltage step: VOUT_COMMAND sent, the warning level moved, the step counted. The level moves before a lowering and
after a raise; both are done when the step is. DEDUCED (log entry 31). -/
def State.voltageStep (s : State) (q mv : Nat) : State :=
  let s := s.send (.pmbus q mv)
  let s := s.setRail q { s.rail q with warnMv := coreWarnMv mv }
  (s.setBankField pgTRV oTRV_DIE_VSET q 31 16 mv).count pgTRV oTRV_V_CHANGES 1

/-- Steps of at most 10 mV to a target. DEDUCED (log entry 31). -/
def State.voltageTo (q target : Nat) : Nat → State → State
  | 0, s => s
  | n + 1, s =>
    let v := s.setpoint q
    if v = target then s
    else if v < target then State.voltageTo q target n (s.voltageStep q (min target (v + 10)))
    else State.voltageTo q target n (s.voltageStep q (max target (v - 10)))

/-- BASE of die q within its limits. -/
def State.baseMv (s : State) (q : Nat) : Nat := min 850 (max 550 (s.bankField pgTRV oTRV_DIE_VSET q 15 0))

/-- The setpoint follows the larger of BASE and the laggard correction, unless the rail's regulator has failed (R456, R457). -/
def State.applySetpoint (s : State) (q : Nat) : State :=
  if (s.rail q).pmbFail then s
  else State.voltageTo q (min 850 (max 550 (max (s.baseMv q) (s.die q).lagMv))) 100 s

/-! ### Laggards (R131, R132) -/

/-- The median of a list of rates. -/
def median (l : List Rat) : Rat :=
  let ins := fun (l : List Rat) (x : Rat) => l.takeWhile (· ≤ x) ++ [x] ++ l.dropWhile (· ≤ x)
  let t := l.foldl ins []
  let n := t.length
  if n = 0 then 0 else if n % 2 = 1 then nth 0 t (n / 2) else (nth 0 t (n / 2 - 1) + nth 0 t (n / 2)) / 2

def mean (l : List Rat) : Rat := if l.length = 0 then 0 else l.sum / l.length

/-- dv of R132 in mV, rounded up to the regulator's resolution of 2^-n V. -/
def lagDv (n : Nat) (short f : Rat) : Nat :=
  let v := short * f / 3400000000
  (((v * ((2 ^ n : Nat) : Rat)).ceil : Rat) * 1000 / ((2 ^ n : Nat) : Rat)).ceil.toNat

/-- A die's voltage raised for a rate short by `short` of the median; true where the budget allows the higher draw, which is
taken in proportion to the voltage, and the raise is not 0. At most 50 mV in one period, and 0.85 V. DEDUCED (log entry 34). -/
def State.raiseDie (s : State) (q : Nat) (short : Rat) : State × Bool :=
  let v := s.setpoint q
  let dv := min 50 (lagDv (s.rail q).resolution short s.medianRate)
  let t := min 850 (v + dv)
  if (s.rail q).pmbFail || t ≤ v || (s.die q).budget * (v : Rat) < s.estimate q * (t : Rat) then (s, false)
  else ((s.setDie q { s.die q with lagMv := t }).applySetpoint q, true)

/-- R132 for a die short by `short`: its voltage is raised, or else its share is lowered; at most once in a laggard period. DEDUCED (log entry 34). -/
def State.adjustLaggard (s : State) (q : Nat) (short : Rat) : State :=
  let period := s.strobes / 128 + 1
  if (s.die q).adjusted = period then s
  else
    let r := s.raiseDie q short
    let x := r.1.die q
    r.1.setDie q { x with adjusted := period, lowered := x.lowered || !r.2 }

/-- G_STEPS and G_TICKS of a core's four griddles. -/
def State.stepCounts (s : State) (c : Nat) : List Nat := (List.range 8).map (fun i => s.field (pgGRD c) (0x050 + 4 * i) 31 0)

/-- A griddle's rate over the interval between two readings of its steps and its busy ticks (R58): steps per second; none where it was not busy. -/
def rateBetween (calTicks : Nat) (old new : List Nat) (g : Nat) : Option Rat :=
  let d := fun (i : Nat) => (nth 0 new i + 2 ^ 32 - nth 0 old i) % 2 ^ 32
  if d (2 * g + 1) = 0 then none else some (((d (2 * g) * 1024 * calTicks : Nat) : Rat) / ((d (2 * g + 1) : Nat) : Rat))

/-- The rates of a core's griddles since the last check. -/
def State.griddleRates (s : State) (c : Nat) : List (Option Rat) :=
  let cal := s.field (pgGRD c) oGRD_PACE_CAL 23 0
  let new := s.stepCounts c
  (List.range 4).map (rateBetween cal (s.core c).snap new)

/-- A core's rate: the mean over its griddles that were busy; none where none was. DEDUCED (log entry 34). -/
def State.coreRate (s : State) (c : Nat) : Option Rat :=
  match (s.griddleRates c).filterMap id with
  | [] => none
  | l => some (mean l)

/-- A core's counters read for the next period; a griddle that was not busy keeps the rate found before. -/
def State.keepRates (s : State) (c : Nat) : State :=
  let x := s.core c
  let rs := (s.griddleRates c).zipIdx.map (fun r => r.1.getD (nth 0 x.rates r.2))
  let snap := s.stepCounts c
  if x.snap = snap && x.rates = rs then s else s.setCore c { x with snap := snap, rates := rs }

/-- LAGGARD_CHECK (R131, R132, R457): once every 128 strobe periods. DEDUCED (log entry 34). -/
def execLaggardCheck (_coreRates : Unit) (s : State) : Host.Outcome State Fault Refusal :=
  awake s <|
  if s.strobes / 128 ≤ s.lagChecked then done s
  else
    let on := fun (q : Nat) => ((dieCores q).filter (fun c => (s.core c).st = .enabled)).filterMap s.coreRate
    let dies := ([0, 1, 2, 3].map (fun q => (q, on q))).filter (fun e => e.2 ≠ [])
    let med := median (dies.map (fun e => mean e.2))
    let t : State := { s with medianRate := med, lagChecked := s.strobes / 128 }
    let t := (List.range 208).foldl (fun t c => if (s.core c).st = .enabled then t.keepRates c else t) t
    let t := dies.foldl (fun t e =>
      t.count pgTRV oTRV_LAGGARDS (e.2.filter (fun r => r < median e.2 * 95 / 100)).length) t
    done ((dies.filter (fun e => mean e.2 < med * 97 / 100)).foldl (fun t e =>
      let rho := mean e.2 / med
      ((t.count pgTRV oTRV_LAGGARDS 1).flagEvent pgTRV 0 1 (e.1 + (f32OfRat rho).toNat * 2 ^ 32) none).adjustLaggard e.1 (1 - rho)) t)

/-! ### The strobe period (R57, R458 to R467) -/

/-- A core latches its pace meter and its counters grow (R57, R76, R77, R81). -/
def State.latchCore (s : State) (c : Nat) (x : CoreSample) : State :=
  let g := pgGRD c
  let en := s.field g oGRD_GRD_CTRL 0 0 = 1
  let s := s.setStored g oGRD_PACE_CAL 0 (BitVec.ofNat 32 (2 ^ 31 + x.ticks % 2 ^ 24))
  let s := s.countWrap g oGRD_PACE_COUNT x.ticks
  let s := s.countWrap (pgWSK c) oWSK_WSK_TICKS x.wskTicks
  if en then
    let s := (List.range 4).foldl (fun s i =>
      (s.countWrap g (0x050 + 8 * i) (nth 0 x.steps i)).countWrap g (0x054 + 8 * i) (nth 0 x.busy i)) s
    s.countWrap (pgWSK c) oWSK_WSK_STEPS x.wskSteps
  else s

/-- Power in the unit of the registers: 1/16 W. -/
def watt16 (w : Rat) : Nat := (w * 16).floor.toNat

/-- A rail's meter and power fields after a period (R458, R472). -/
def State.meterRail (s : State) (r e : Nat) : State :=
  let x := s.rail r
  let x := { x with energy := (x.energy + e) % 2 ^ 64, recent := (e :: x.recent).take 8 }
  let s := s.setRail r x
  let s := s.setBankField pgTRV oTRV_RAIL_POWER r 15 0 (min 0xFFFF (watt16 x.mean))
  let p := min 0xFFFF (watt16 (railWatt e))
  if s.bankField pgTRV oTRV_RAIL_POWER r 31 16 < p then s.setBankField pgTRV oTRV_RAIL_POWER r 31 16 p else s

def int16 (v : Nat) : Int := if v < 0x8000 then (v : Int) else (v : Int) - 0x10000
def nat16 (i : Int) : Nat := (i % 0x10000).toNat

/-- T_SOFT and HBM_SOFT in °C. -/
def State.tSoft (s : State) : Nat := min 105 (s.field pgTRV oTRV_THERM_CFG 7 0)
def State.hbmSoft (s : State) : Nat := min 95 (s.field pgTRV oTRV_THERM_CFG 23 16)

/-- A die's temperature read (R458, R459, R474): derating begins or ends; the trip count runs (R467). -/
def State.readDie (s : State) (q : Nat) (t : Int) : State :=
  let s := s.setBankField pgTRV oTRV_DIE_TEMP q 15 0 (nat16 t)
  let s := if int16 (s.bankField pgTRV oTRV_DIE_TEMP q 31 16) < t then s.setBankField pgTRV oTRV_DIE_TEMP q 31 16 (nat16 t) else s
  let x := s.die q
  let hot := decide ((16 * s.tSoft : Nat) ≤ t)
  let s := s.setDie q { x with derated := hot, tripPeriods := if 115 * 16 ≤ t then x.tripPeriods + 1 else 0 }
  if hot && !x.derated then s.flagEvent pgTRV 2 2 (q + nat16 t * 2 ^ 16) none else s

/-- A stack's temperature read (R458, R466, R467). -/
def State.readStack (s : State) (i t : Nat) : State :=
  let old := s.field (pgHBM i) oHBM_HBM_TEMP 7 0
  let s := (s.setField (pgHBM i) oHBM_HBM_TEMP 7 0 (min 255 t)).peak (pgHBM i) oHBM_HBM_TEMP 15 8 (min 255 t)
  let n := if 105 ≤ t then nth 0 s.tiers.stackTrip i + 1 else 0
  let s : State := { s with tiers := { s.tiers with stackTrip := setNth 0 s.tiers.stackTrip i n } }
  if s.hbmSoft ≤ t && old < s.hbmSoft then s.flagEvent pgTRV 2 2 (i * 2 ^ 8 + 2 ^ 11 + 16 * t % 2 ^ 16 * 2 ^ 16) none else s

/-- THERM_N (R467): driven low at a limit, released when everything is 3 °C below its own. -/
def State.thermPin (s : State) (dies : List Int) (stackTemps : List Nat) : State :=
  let hotD := (List.range 4).find? (fun q => 105 * 16 ≤ nth 0 dies q)
  let hotS := (List.range 8).find? (fun i => 95 ≤ nth 0 stackTemps i)
  let cool := dies.all (fun t => t ≤ 102 * 16) && stackTemps.all (fun t => t ≤ 92)
  let low := hotD.isSome || hotS.isSome || (s.start.thermLow && !cool)
  let was := s.start.thermLow
  let s : State := { s with start := { s.start with thermLow := low } }
  if low && !was then
    match hotD, hotS with
    | some q, _ => s.flagEvent pgTRV 3 3 (q + nat16 (nth 0 dies q) * 2 ^ 16) none
    | none, some i => s.flagEvent pgTRV 3 3 (i * 2 ^ 8 + 2 ^ 11 + 16 * nth 0 stackTemps i % 2 ^ 16 * 2 ^ 16) none
    | none, none => s
  else s

/-- k, p_base and the gate of die q after a period (R460, R462, R467). -/
def State.adjustDie (s : State) (q : Nat) (p : Rat) (ran hot : Bool) : State :=
  let x := s.die q
  let e := s.estimate q
  let busy := ((dieCores q).map s.coreDraw).sum ≠ 0
  let k := if busy && 0 < e then max (1 / 2) (min 2 (x.k + (p / e - x.k) / 8)) else x.k
  let excess := x.budget * 105 / 100 < p
  let g := if excess then max 1 (x.gate - 1) else if p < x.budget * 95 / 100 then min 4 (x.gate + 1) else x.gate
  let g := if hot then 1 else g
  let s := s.setDie q { x with k := k, gate := g, pBase := if ran then x.pBase else some p }
  let s := if g < x.gate then s.count pgTRV oTRV_GATINGS 1 else s
  if excess then s.flagEvent pgTRV 1 4 (q + watt16 p % 2 ^ 32 * 2 ^ 32) none else s

/-- d of R459 at a temperature in °C. -/
def derating (soft : Nat) (t : Rat) : Rat :=
  if t < (soft : Rat) then 1
  else if soft = 105 then 1 / 4
  else max (1 / 4) (1 - 3 / 4 * (t - (soft : Rat)) / (105 - (soft : Rat)))

/-- The budgets of the next period (R459). DEDUCED (log entry 32). DESIGN CHOICE (log entry 98). -/
def State.setBudgets (s : State) : State :=
  let even := s.even
  let d := fun (q : Nat) => derating s.tSoft ((int16 (s.bankField pgTRV oTRV_DIE_TEMP q 15 0) : Rat) / 16)
  let full := [0, 1, 2, 3].filter (fun q => d q = 1)
  let freed := ([0, 1, 2, 3].map (fun q => even - even * d q)).sum
  [0, 1, 2, 3].foldl (fun s q =>
    let cap : Rat := 95 / 100 * ((s.setpoint q : Rat) / 1000) * 260
    let b := if d q = 1 && freed ≠ 0 then max even (min cap (even + freed / full.length)) else even * d q
    s.setDie q { s.die q with budget := b }) s

/-- Lenders whose wait ended take one more quarter back (R178). -/
def State.returnQuarters (s : State) : State :=
  ((s.cores.filter (fun e => 0 < e.2.lent && e.2.lent < 4)).map (·.1)).foldl (fun s c => s.returnQuarter c) s

/-- Gated borrower griddles are readmitted, one for each core and period, while the estimate and the pool fit (R464). -/
def State.readmit (s : State) : State :=
  ((s.cores.filter (fun e => 0 < e.2.borrowGate)).map (·.1)).foldl (fun s c =>
    let x := s.core c
    let t := s.setCore c { x with borrowGate := x.borrowGate - 1 }
    let q := c / 52
    if t.estimate q + (t.die q).k * t.pool q ≤ (t.die q).budget then t else s) s

/-- What the regulators answered (R456): a failing one is left at its setpoint until POR_N. -/
def State.readRegulator (s : State) (q : Nat) (r : RegulatorSample) : State :=
  let x := s.rail q
  if x.pmbFail then s
  else if r.answers && r.ulinear then s.setRail q { x with resolution := r.exponent }
  else (s.setRail q { x with pmbFail := true }).flagEvent pgTRV 4 5
    (q + (if r.answers then r.status.toNat else 0xFFFF) * 2 ^ 16) none

/-- STROBE_EDGE (R57): the strobe's edge with what the meters and sensors measured over the period. DESIGN CHOICE (log entry 90). -/
def execStrobeEdge (sample : StrobeSample) (s : State) : Host.Outcome State Fault Refusal :=
  let s : State := ({ s with strobes := s.strobes + 1, eventOnce := [] }).calendarTicks
  if !(s.alive) then done s
  else
    let s := (sample.cores.zipIdx).foldl (fun s e => if e.2 < 208 then s.latchCore e.2 e.1 else s) s
    let s := (List.range 12).foldl (fun s r => s.meterRail r (nth 0 sample.energy r)) s
    let s := (List.range 4).foldl (fun s q => s.readDie q (nth 0 sample.dieTemp q)) s
    let s := (List.range 8).foldl (fun s i => s.readStack i (nth 0 sample.stackTemp i)) s
    let s := s.thermPin sample.dieTemp sample.stackTemp
    let s := (sample.regulators.zipIdx).foldl (fun s e => if e.2 < 4 then s.readRegulator e.2 e.1 else s) s
    let s := (List.range 4).foldl (fun s q =>
      s.adjustDie q (railWatt (nth 0 sample.energy q)) (nth true sample.ran q) (decide (105 * 16 ≤ nth 0 sample.dieTemp q))) s
    let s := s.setBudgets.returnQuarters.readmit
    done { s with cmds := s.cmds.map (fun c => if c.unissued && 0 < c.heldPeriods then { c with heldPeriods := c.heldPeriods + 1 } else c) }

/-- PACE_CAL_TIMEOUT (R57): four expected periods without a strobe edge: VALID falls, TICKS keeps its value. -/
def execPaceCalTimeout (core : Fin 208) (s : State) : Host.Outcome State Fault Refusal :=
  awake s <|
  done (s.setField (pgGRD core.val) oGRD_PACE_CAL 31 31 0)

/-- LEND (R177): a core's count of its wait reached LEND_TICKS. No effect unless it waits with its whole share and lending is
enabled. DEDUCED (log entries 51, 92). -/
def execLend (core : Fin 208) (s : State) : Host.Outcome State Fault Refusal :=
  let c := core.val
  let x := s.core c
  if s.coreWaiting c && x.lent = 0 && s.field (pgSEM (c / 52)) oSEM_LEND_TICKS 31 0 ≠ 0 then
    done ((s.setCore c { x with lent := 4 }).count (pgSEM (c / 52)) oSEM_LENDS 1)
  else done s

/-- LONG_WAIT (R177): a core's count reached REPORT_TICKS; raised once for each wait, with the tag and the semaphore. DEDUCED (log entry 51). -/
def execLongWait (core : Fin 208) (s : State) : Host.Outcome State Fault Refusal :=
  let c := core.val
  let x := s.core c
  let g := pgSEM (c / 52)
  if s.coreWaiting c && !x.reported && s.field g oSEM_REPORT_TICKS 31 0 ≠ 0 then
    let s := s.setCore c { x with reported := true }
    match (x.hand.filterMap id).head? with
    | none => done s
    | some u =>
      match s.cmd? u.cmd with
      | none => done s
      | some d =>
        let k := if u.landing then nth 0 d.landSems u.index
          else match d.halo.find? (fun h => h.2 = u.index) with | some h => h.1 | none => 0
        done (s.raise g none 4 (semInfo k c (s.sem k).read) d.evTag)
  else done s

/-! ### Supply dips (R468 to R471) -/

/-- The warning level of a rail in effect. -/
def State.warnMv (s : State) (r : Nat) : Nat := (s.rail r).warnMv

/-- MIN_MV takes a lower voltage. -/
def State.minMv (s : State) (r mv : Nat) : State :=
  if mv < s.bankField pgSUP oSUP_SUP_STATUS r 31 16 then s.setBankField pgSUP oSUP_SUP_STATUS r 31 16 mv else s

/-- SUPPLY_WARNING (R469, R471): a rail falls below its warning level. On a core rail, the die's griddles start no new pass. -/
def execSupplyWarning (rail : Fin 12) (mv : Nat) (s : State) : Host.Outcome State Fault Refusal :=
  let r := rail.val
  let x := s.rail r
  if x.warn || s.warnMv r ≤ mv then done s
  else if !(s.alive) then done (s.setRail r { x with warn := true })
  else
    let s := (s.setRail r { x with warn := true }).minMv r mv
    let s := if r < 4 then s.setDie r { s.die r with held := true } else s
    done ((s.countBank pgSUP oSUP_WARNINGS r 1).flagEvent pgSUP 0 1 (r + mv % 2 ^ 16 * 2 ^ 16) none)

/-- SUPPLY_RECOVER (R468, R469, R470): the rail stayed above its level for CLEAR_TICKS; passes resume, and a die in reset rejoins. -/
def execSupplyRecover (rail : Fin 12) (minMv ticks : Nat) (s : State) : Host.Outcome State Fault Refusal :=
  let r := rail.val
  let x := s.rail r
  if !x.warn then done s
  else if !(s.alive) then
    let s := s.setRail r { x with warn := false, down := false }
    done (if r < 4 then s.setDie r { s.die r with held := false, inReset := false } else s)
  else
    let s := (s.setRail r { x with warn := false, down := false }).minMv r minMv
    let s := s.countBank pgSUP oSUP_WARN_TICKS r ticks
    let s := if r < 4 then s.setDie r { s.die r with held := false, inReset := false } else s
    done s.startTests

/-- Commands with work on die q: units there, or engines of the die at work for them (R470). -/
def State.onDie (s : State) (q : Nat) (c : Cmd) : Bool :=
  c.running && (s.energyDies c).contains q

/-- A command ended at a die reset because its waits or arrivals are gone (R470). -/
def State.semsOnDie (q : Nat) (ks : List Nat) : Bool := ks.any (fun k => k / 0x4000 = q)

/-- SRAM of die q is zeroed: stockpot, semaphores, staging and trays with it (R167, R470). -/
def State.zeroDie (s : State) (q : Nat) : State :=
  let s := s.zeroPhys (potBase + q * potStep) potSize
  let s : State := { s with errors := { s.errors with
    poison := s.errors.poison.filter (fun k => !(within k 1 (potBase + q * potStep) potSize)) } }
  (s.semClearIf (fun k => k / 0x4000 = q))

/-- Partitions with cores, stockpot share or a semaphore window on die q. -/
def State.partsOn (s : State) (q : Nat) : Nat :=
  (partIds.map (fun p =>
    let x := s.part p
    if (s.coresOf p).any (fun c => c / 52 = q) || (x.windows && ((x.stk q).2 ≠ 0 || (x.semWin q).2 ≠ 0)) then 2 ^ p else 0)).sum

/-- The bits of a block register that the register hub holds (R533): RW, W1S and CM fields. -/
def hubMask (k : PageKind) (off : Nat) : Word :=
  if off < 0x40 then 0xFFFFFFFF#32
  else match regRow? k off with
    | some r => rowMask r (fun x => x.acc = .rw || x.acc = .w1s || x.acc = .cm)
    | none => 0#32

/-- The registers that units hold themselves are at their reset values when the units rejoin (R533). -/
def State.resetUnits (s : State) (f : PageKind → Nat → Bool) : State :=
  { s with regs := s.regs.filterMap (fun e =>
      match pageOf (e.1 / 0x20000) with
      | none => some e
      | some (k, n) =>
        if f k n then
          let off := e.1 % 0x20000 / 32
          let m := hubMask k off
          let r := resetWord k off (e.1 % 32)
          let w := (e.2 &&& m) ||| (r &&& ~~~ m)
          if w = r then none else some (e.1, w)
        else some e) }

/-- The pages of the units of die q. -/
def onDiePage (q : Nat) : PageKind → Nat → Bool
  | .grd, n | .wsk, n | .tray, n => n / 52 = q
  | .ldl, n => n / 8 = q
  | .skm, n | .siv, n => n / 4 = q
  | .sem, n | .stk, n => n = q
  | _, _ => false

/-- The pages of the islands that a rail feeds. -/
def onRailPage (r : Nat) : PageKind → Nat → Bool
  | .hbm, _ => r = 7
  | .ddr, _ => r = 8
  | .netp, _ => r = 9
  | .arb, n => if n < 8 then r = 7 else if n < 32 then r = 8 else r = 9
  | _, _ => false

/-- A core rail at its reset level (R470). DEDUCED (log entry 35). -/
def State.dieReset (s : State) (q : Nat) : State :=
  let mine := s.cmds.filter (fun c => s.onDie q c)
  let waitsOn := fun (c : Cmd) => (hWaits c.hdr).any (fun e => entKind e ≠ 0 && entSem e / 0x4000 = q)
  let s := s.abandonMoves (fun m => m.kind = 2 && mine.any (fun c => m.cmd = some c.ref))
  let s := s.abandonTests (fun t => match t with
    | .griddle c _ | .coreUnit c => c.val / 52 = q
    | .stockpot d _ => d.val = q
    | .semWord k => k.toNat / 0x4000 = q
    | .sram g _ => match coreOfPage g with | some c => c / 52 = q | none => false
    | _ => false)
  let s := s.endWhere (fun c => (c.unissued && !c.carried && waitsOn c)
    || ((c.unissued || c.phase = .issued) && State.semsOnDie q (s.arrivalsOf c))) stWAIT_CLEARED 0
  let s := mine.foldl (fun s c =>
    match s.cmd? c.ref with
    | none => s
    | some d =>
      if d.opcode = 0x04 && d.phase = .applying then s
      else
        let lost := State.semsOnDie q (c.takes.map (·.1) ++ c.halo.map (·.1))
        let t := s.killCmd d causeDie
        match t.cmd? c.ref with
        | some e => if lost && e.unissued then t.setCmd { e with carried := true } else t
        | none => t) s
  let s := s.zeroDie q
  let s := (dieCores q).foldl (fun s c =>
    let x := s.core c
    if x.hand = [] && x.next = [] && x.lent = 0 && x.borrowGate = 0 && x.trayOf = none then s
    else s.setCore c { x with hand := [], next := [], lent := 0, borrowGate := 0, trayOf := none, trayUsed := 0, trayChain := 0 }) s
  let s : State := { s with tables := s.tables.map (fun e => (e.1, { e.2 with ignoreHot := insertNat e.2.ignoreHot q })) }
  (s.resetUnits (onDiePage q)).setDie q { s.die q with inReset := true, held := true }

/-- CORE_RAIL_RESET (R470). No effect above the reset level. -/
def execCoreRailReset (die : Fin 4) (mv : Nat) (s : State) : Host.Outcome State Fault Refusal :=
  let q := die.val
  if railResetMv q < mv then done s
  else if !(s.alive) then
    done ((s.setRail q { s.rail q with warn := true, down := true }).setDie q { s.die q with inReset := true, held := true })
  else
    let ps := s.partsOn q
    let s := (s.setRail q { s.rail q with warn := true, down := true }).minMv q mv
    let s := s.countBank pgSUP oSUP_RESETS q 1
    done ((s.dieReset q).flagEvent pgSUP 1 2 (q + ps * 2 ^ 16) none)

/-- Requests in an arbiter's queues are discarded when its island resets: their requesters receive an internal error (R56). DEDUCED (log entry 35). -/
def State.islandArb (s : State) (a : Nat) : State :=
  let b := s.arb a
  let rs := b.ports.flatMap (fun e => e.2.queue.map (·.req)) ++ (b.grant.map (·.2.req)).toList
  let s := s.setArb a { b with
    ports := (b.ports.map (fun e => (e.1, { e.2 with queue := [], losses := 0, backoff := 0 }))).filter (fun e => e.2 ≠ arbPortIdle)
    grant := none
    pick := none }
  let refs := rs.filterMap (·.cmd)
  let s := s.killWhere (fun c => refs.contains c.ref) causeIsland
  (rs.filterMap (·.move)).foldl (fun s g => s.abandonMove g (fun m => !m.done)) s

/-- The flash islands are reset: what waits at their FIFOs for a page of the flash tier is discarded, and its requesters receive an internal error
(R56). Programs in flight are the media manager's own (R408). DEDUCED (log entry 35). -/
def State.flashIslands (s : State) : State :=
  let moves := (s.pages.filter (fun e => pageZone e.1 = .fls)).flatMap (fun e => (e.2.moves.filter (fun m => !m.done)).map (fun m => (e.1, m.cmd)))
  let s := s.killWhere (fun c => moves.any (fun e => c.fills.contains e.1 || e.2 = some c.ref)) causeIsland
  moves.foldl (fun s e => s.abandonMove e.1 (fun m => !m.done)) s

/-- A sub-port whose link goes down raises LINK (R417, R453). DEDUCED (log entry 88). -/
def State.linkFall (s : State) (i : Nat) : State :=
  let x := s.sub i
  if x.up then (s.setSub i { x with up := false }).flagEvent (pgPORT (i / 4)) 1 1 i none else s

/-- The arbiters whose resource an island group of a rail feeds. -/
def railArbs (r : Nat) : List Nat :=
  match r with
  | 7 => List.range 8
  | 8 => List.range' 8 24
  | 9 => List.range' 32 4
  | _ => []

def railIslands (r : Nat) : Nat :=
  match r with
  | 7 => 8
  | 8 => 24
  | 9 => 16
  | 10 => 32
  | _ => 0

/-- ISLAND_RAIL_RESET (R471): the islands of rail 7, 8, 9 or 10 are reset; links of the Ethernet islands go down. DEDUCED (log entry 35). -/
def execIslandRailReset (rail : Fin 12) (mv : Nat) (s : State) : Host.Outcome State Fault Refusal :=
  let r := rail.val
  if railIslands r = 0 || railResetMv r < mv then done s
  else if !(s.alive) then done (s.setRail r { s.rail r with warn := true, down := true })
  else
    let s := (s.setRail r { s.rail r with warn := true, down := true }).minMv r mv
    let s := s.countBank pgSUP oSUP_RESETS r 1
    let s := (railArbs r).foldl (fun s a => s.islandArb a) s
    let s := if r = 10 then s.flashIslands else s
    let s := if r = 9 then (List.range 32).foldl (fun s i => s.linkFall i) s else s
    let s := s.resetUnits (onRailPage r)
    let s := s.abandonTests (fun t => match t with
      | .hbm _ => r = 7
      | .ddr _ => r = 8
      | .lane _ _ => r = 9
      | _ => false)
    done (s.flagEvent pgSUP 2 3 (r + railIslands r * 2 ^ 16) none)

/-! ### Clocks and retraining (R56, R569) -/

/-- CLOCK_LOST (R569): 0 SYSCLK, 1 REFCLK_A, 2 REFCLK_B. The sub-ports a reference clocks go down. DEDUCED (log entry 88). -/
def execClockLost (clk : Fin 3) (s : State) : Host.Outcome State Fault Refusal :=
  let s : State := { s with start := { s.start with clocksLost := insertNat s.start.clocksLost clk.val } }
  let s := match clk.val with
    | 1 => (List.range 16).foldl (fun (s : State) i => s.linkFall i) s
    | 2 => (List.range' 16 16).foldl (fun (s : State) i => s.linkFall i) s
    | _ => s
  done (if s.alive then s.flagEvent pgMGT 4 3 (2 ^ clk.val) none else s)

/-- CLOCK_RESTORED (R569): after SYSCLK the memory and flash islands it clocks are reset and retrained
(R56), and their tests are made again (R482). DEDUCED (log entry 35). -/
def execClockRestored (clk : Fin 3) (s : State) : Host.Outcome State Fault Refusal :=
  if s.start.clocksLost.contains clk.val then
    let s : State := { s with start := { s.start with clocksLost := s.start.clocksLost.filter (· ≠ clk.val) } }
    if clk.val ≠ 0 || !(s.alive) then done s
    else
      let s := ((List.range 32).foldl (fun s a => s.islandArb a) s).flashIslands
      let s := s.resetUnits (fun k n => onRailPage 7 k n || onRailPage 8 k n)
      let s := s.abandonTests (fun t => match t with
        | .hbm _ | .ddr _ => true
        | _ => false)
      done s.startTests
  else done s

/-- RETRAIN (R56): an island has finished retraining; it is counted, and a memory island raises RETRAIN. DEDUCED (log entry 88). -/
def execRetrain (island : Island) (s : State) : Host.Outcome State Fault Refusal :=
  awake s <|
  match island with
  | .hbm i => done ((s.count (pgHBM i.val) oHBM_HBM_RETRAIN 1).flagEvent (pgHBM i.val) 3 1 i.val none)
  | .ddr i => done ((s.count (pgDDR i.val) oDDR_DDR_RETRAIN 1).flagEvent (pgDDR i.val) 3 1 i.val none)
  | .eth i => done (s.count (pgPORT i.val) oNETP_RETRAIN 1)
  | .flash _ => done s

end Sys2Proof.Machine
end

