-- ==== Sys2Proof/Machine/Fabric.lean ====
section
/-! DEFINITION. The Chabu fabric transport's receiving side, its acknowledgements and retransmission (R432 to R442), remote semaphore
operations (R174, R175), collectives' arrivals (R134, R445), and cancel messages (R323). -/

namespace Sys2Proof.Machine

/-! ### Mapping (R435) -/

/-- Key of a fabric table entry. -/
def fabKey (dev part : Nat) : Nat := dev * 256 + part

/-- Whether a communicator lists a device. -/
def State.lists? (s : State) (k : Comm) (dev : Nat) : Bool := (List.range k.members).any (fun j => (s.memberOf k j).1 = dev)

/-- The local partition to which a packet is mapped. -/
def State.mapPacket (s : State) (h : FabHdr) : Option Nat :=
  if h.comm = 0xFFFF#16 then
    match tabGet 0 s.net.fabric (fabKey h.srcDev.toNat h.srcPart.toNat) with
    | 0 => none
    | n + 1 => some n
  else
    let k := tabGet commNone s.net.comms h.comm.toNat
    if k.valid && s.lists? k h.srcDev.toNat then some k.part else none

/-- The name of a packet's receiving connection. DEDUCED (log entry 81). -/
def rxName (p : Nat) (h : FabHdr) : ConnId := ⟨Fin.ofNat 16 p, h.srcDev, Fin.ofNat 17 h.srcPart.toNat⟩

/-- The sending connection that a packet from its far end concerns. -/
def txName (p : Nat) (h : FabHdr) : ConnId :=
  ⟨Fin.ofNat 16 p, h.srcDev, if h.comm = 0xFFFF#16 then 16 else Fin.ofNat 17 h.srcPart.toNat⟩

/-- A partition of which the fabric is not answered for: it is passing or suspended (R342). -/
def State.deaf (s : State) (p : Nat) : Bool :=
  (s.part p).st = .suspending || (s.part p).st = .suspended || (s.part p).st = .resuming

/-! ### Packets sent without a number -/

/-- An ACK or a NACK on the next path. -/
def State.fabControl (s : State) (p : Nat) (dev : Half) (comm type : Nat) (body : List Byte) : State :=
  let conn : ConnId := ⟨Fin.ofNat 16 p, dev, 16⟩
  if s.deviceId = 0xFFFF then s
  else match s.nextPath (freshTx conn) with
    | none => s
    | some sub =>
      let h : FabHdr := { fabHdr0 comm 0 with
        srcDev := BitVec.ofNat 16 s.deviceId
        dstDev := dev
        srcPart := BitVec.ofNat 4 p }
      let s : State := { s with net := { s.net with rotor := s.net.rotor + 1 } }
      (s.txFrames sub 1).send (.fabric conn type h body sub (0xC000 + s.choose 0xEA s.fabPaths))

def State.nack (s : State) (p : Nat) (h : FabHdr) (code : Nat) : State :=
  s.fabControl p h.srcDev h.comm.toNat fbNACK (beBytes 4 h.psn.toNat ++ leBytes 1 code)

/-! ### Receiving connections (R434, R436, R438) -/

def State.setRx (s : State) (x : RxConn) : State :=
  let same := fun (y : RxConn) => y.conn = x.conn && ((y.comm = 0xFFFF) = (x.comm = 0xFFFF))
  let l := s.net.rxConns
  { s with net := { s.net with rxConns := if l.any same then l.map (fun y => if same y then x else y) else l ++ [x] } }

def State.rx? (s : State) (p : Nat) (h : FabHdr) : Option RxConn :=
  s.net.rxConns.find? (fun y => y.conn = rxName p h && ((y.comm = 0xFFFF) = (h.comm = 0xFFFF#16)))

/-- SACK as 256 bits. -/
def RxConn.sackBits (x : RxConn) : Nat := (x.sack.map (fun n => 2 ^ ((n + 2 ^ 32 - x.cum - 1) % 2 ^ 32))).sum

/-- An ACK of everything that came since the last (R438). -/
def State.sendAck (s : State) (x : RxConn) : State :=
  let s := s.fabControl x.conn.part.val x.conn.dev x.comm fbACK
    (beBytes 4 x.cum ++ beBytes 4 x.trig ++ beBytes 2 x.ce ++ beBytes 2 x.pkts ++ beBytes 32 x.sackBits)
  s.setRx { x with pkts := 0, ce := 0 }

/-- PSNs at the head of SACK move into CUM_PSN. -/
def RxConn.advance : Nat → RxConn → RxConn
  | 0, x => x
  | n + 1, x =>
    if x.sack.contains x.cum then RxConn.advance n { x with cum := (x.cum + 1) % 2 ^ 32, sack := x.sack.filter (· ≠ x.cum) } else x

/-- What a PSN is to a receiving connection. -/
inductive Place where
  | fresh | duplicate | outside
  deriving DecidableEq, Repr

/-- A PSN placed: up to 256 beyond CUM_PSN it is fresh unless set in SACK; below CUM_PSN it is a duplicate (a SYN packet's, only within
256: further off it is a new start, R434). DEDUCED (log entry 81). -/
def RxConn.place (x : RxConn) (psn : Nat) (syn : Bool) : Place :=
  let d := (psn + 2 ^ 32 - x.cum) % 2 ^ 32
  if d ≤ 256 then (if x.sack.contains psn then .duplicate else .fresh)
  else if 2 ^ 32 - 256 ≤ d then .duplicate
  else if 2 ^ 31 ≤ d && !syn then .duplicate
  else .outside

/-- The receiver notes a packet: acknowledged at once when it is out of order, else every fourth, and not at all by a partition of which the
fabric is not answered for (R342). DEDUCED (log entry 81). -/
def State.noteRx (s : State) (x : RxConn) (h : FabHdr) (taken : Bool) : State :=
  let ordered := h.psn.toNat = x.cum
  let x : RxConn := { x with
    comm := h.comm.toNat
    sack := if taken then insertNat x.sack h.psn.toNat else x.sack
    pkts := x.pkts + 1
    ce := x.ce + b2n h.ce
    trig := h.psn.toNat }
  let x := RxConn.advance 257 x
  if (!ordered || 4 ≤ x.pkts) && !(s.deaf x.conn.part.val) then s.sendAck x else s.setRx x

/-- A packet from a peer thought unreachable: its connections are up again (R440). -/
def State.peerUp (s : State) (p : Nat) (h : FabHdr) : State :=
  let name := txName p h
  match s.txConn? name with
  | some t =>
    if t.down then (s.setTxConn { t with down := false, rtos := 0 }).flagEvent pgFABRIC 1 2
      (h.srcDev.toNat + h.srcPart.toNat * 2 ^ 16 + p * 2 ^ 24) none
    else s
  | none => s

/-- A fabric packet arrives on one of the back sub-ports. DEDUCED (log entry 82). -/
def State.rxBack (s : State) (ce : Bool) : State :=
  match s.backSubs[s.choose 0xEB s.backSubs.length]? with
  | some i => s.rxFrame i ce
  | none => s

/-- A packet with a PSN arrives: mapped, placed among its connection's PSNs, and acted on once. `act` answers the state and the NACK that
turns the packet away; BUSY and WAIT leave it unreceived. `heed` says that even a passing partition takes it, without acknowledging it.
DEDUCED (log entry 81). DEDUCED (log entry 81). -/
def State.receive (s : State) (h : FabHdr) (heed : Bool) (act : State → Nat → State × Option Nat) : State :=
  let s := s.rxBack h.ce
  if s.deviceId = 0xFFFF || h.dstDev.toNat ≠ s.deviceId then s
  else match s.mapPacket h with
    | none => s.nack 0 h 3
    | some p =>
      if s.deaf p && !heed then s
      else
        let s := s.peerUp p h
        let syn := bit h.flags.toNat 0
        let start : RxConn := ⟨rxName p h, h.comm.toNat, h.psn.toNat, [], 0, 0, 0⟩
        let x : Option RxConn := match s.rx? p h with
          | some x => if syn && x.place h.psn.toNat true = .outside then some start else some x
          | none => if syn && s.contexts < 16384 then some start else none
        match x with
        | none => s
        | some x => match x.place h.psn.toNat syn with
          | .outside => s
          | .duplicate => (s.count pgFABRIC oNETB_DUPS 1).noteRx x h false
          | .fresh =>
            let r := act (s.setRx x) p
            match r.2 with
            | none => r.1.noteRx x h true
            | some code =>
              let t := r.1.nack p h code
              if code = 2 || code = 4 then t else t.noteRx x h true

/-! ### Item records (R436, R437) -/

def itemSame (h : FabHdr) (i : Item) : Bool :=
  i.dev = h.srcDev.toNat && i.part = h.srcPart.toNat && i.accSeq = h.accSeq.toNat && i.item = h.item.toNat

def State.item? (s : State) (h : FabHdr) : Option Item := s.net.items.find? (itemSame h)

def State.setItem (s : State) (h : FabHdr) (i : Item) : State :=
  let l := s.net.items
  { s with net := { s.net with items := if l.any (itemSame h) then l.map (fun j => if itemSame h j then i else j) else l ++ [i] } }

/-- A record that a packet needs and for which there is no room (R436). -/
def State.itemBusy (s : State) (h : FabHdr) : Bool := (s.item? h).isNone && 65536 ≤ s.net.items.length

/-- n bytes of an item counted: the state, and whether the item became whole. -/
def State.countItem (s : State) (h : FabHdr) (n : Nat) : State × Bool :=
  let i : Item := (s.item? h).getD ⟨h.srcDev.toNat, h.srcPart.toNat, h.accSeq.toNat, h.item.toNat, 0, h.rerun.toNat, false, none⟩
  let d := (h.rerun.toNat + 256 - i.rerun) % 256
  if i.complete || 128 ≤ d then (s.setItem h i, false)
  else
    let count := (if d = 0 then i.count else 0) + n
    let whole := h.itemBytes.toNat ≤ count
    (s.setItem h { i with count := count, rerun := h.rerun.toNat, complete := whole }, whole)

/-! ### Collectives (R134, R445, R446) -/

/-- The last arrival of a collective noted, with its wait and the interval since the collective before it on the engine's pace meter; a peer last in
128 of a window gets a LAG notice with λ, and the window restarts (R134). What the pace meter counts is open. DEDUCED (log entry 36). -/
def State.noteLast (s : State) (comm rank : Nat) : State :=
  let k := tabGet commNone s.net.comms comm
  let n := tabGet 0 k.last rank + 1
  let wait := k.waitTicks + s.choose 0xEC (2 ^ 32)
  let gap := k.gapTicks + 1 + s.choose 0xEE (2 ^ 32 - 1)
  let fresh : Comm := { k with window := 0, last := [], waitTicks := 0, gapTicks := 0 }
  let put := fun (k : Comm) => ({ s with net := { s.net with comms := tabPut commNone s.net.comms comm k } } : State)
  if 128 ≤ n then
    let body := beBytes 4 (f32OfRat ((wait : Rat) / (gap : Rat))).toNat ++ beBytes 2 n
    (put fresh).fabQueue (memberConn k.part (s.memberOf k rank)) [⟨0, fbLAG, fabHdr0 comm 0, body, none, 0, 0, false, 0⟩]
  else if 256 ≤ k.window + 1 then put fresh
  else put { k with window := k.window + 1, last := tabSet k.last rank n, waitTicks := wait, gapTicks := gap }

/-- Bytes that rank j's item of a collective must have here; none where any number up to BYTES will do. -/
def State.collExpected (s : State) (c : Cmd) (k : Comm) (item : Nat) : Option Nat :=
  let d := collOf c.body
  match d.kind with
  | 0 | 1 => some d.bytes
  | 2 => if bit item 15 then some 8 else none
  | _ => match s.collPieces c k k.rank with
    | .ok l => some ((l.map (fun e => e.2.2.length)).sum)
    | .error _ => none

/-- DATA of a collective: placed in DST, and its item counted. DEDUCED (log entry 83). -/
def State.collData (s : State) (h : FabHdr) (bs : List Byte) : State × Option Nat :=
  let comm := h.comm.toNat
  let k := tabGet commNone s.net.comms comm
  match s.net.colls.find? (fun e => e.comm = comm && e.num = h.collSeq.toNat) with
  | none =>
    let d := (h.collSeq.toNat + 65536 - k.issued % 65536) % 65536
    if d < 32768 then (s, some 4) else (s, none)
  | some e => match s.cmd? e.cmd with
    | none => (s, none)
    | some c =>
      let d := collOf c.body
      let item := h.item.toNat
      let rank := item % 0x8000
      let wrong := item / 2 ^ 16 ≠ d.kind || k.members ≤ rank || rank = k.rank
        || (match s.collExpected c k item with | some n => h.itemBytes.toNat ≠ n | none => d.bytes < h.itemBytes.toNat)
      let room := k.members * d.bytes + (if d.kind = 2 then 8 * k.members else 0)
      if wrong then (s.failCmd c stBAD_DESCRIPTOR 0x30, some 5)
      else if room < h.addr.toNat + bs.length then (s, some 1)
      else if s.itemBusy h then (s, some 2)
      else match s.writeFor k.part none (d.dst + h.addr.toNat) bs with
        | .error _ => (s, some 1)
        | .ok s =>
          let s := s.cloudOver (some e.cmd) (fun _ => false) [(d.dst + h.addr.toNat, d.dst + h.addr.toNat + bs.length)]
          let (s, whole) := s.countItem h bs.length
          if !whole then (s, none)
          else
            let e2 : Coll := { e with arrived := e.arrived.filter (fun a => a.1 ≠ item) ++ [(item, h.itemBytes.toNat)] }
            let s : State := { s with net := { s.net with colls := s.net.colls.map (fun f => if f.cmd = e.cmd then e2 else f) } }
            if s.arrivalsDone c then (s.noteLast comm rank, none) else (s, none)

/-! ### Packets that carry work -/

/-- The landing operand of a command (R109): its address, its row stride and its tiles. -/
def State.landingOf (s : State) (c : Cmd) : Option (Nat × Nat × Nat) :=
  let x := (s.chainsOf c.part c.opcode c.body).1
  if c.opcode ≠ opPRODUCT || !x.landEn then none
  else
    let d := prodOf c.body
    some (if x.landOp then (d.bBase, d.strB, x.tiles) else (d.aBase, d.strA, x.tiles))

/-- The landing tiles that a range of bytes reaches. -/
def State.tilesAt (s : State) (c : Cmd) (r : Nat × Nat) : List Nat :=
  match s.landingOf c with
  | none => []
  | some (base, stride, tiles) =>
    let size := (s.chainsOf c.part c.opcode c.body).1.tileRows * stride
    (List.range tiles).filter (fun t => overlaps r (base + t * size, base + (t + 1) * size))

/-- A landing tile whose bytes arrive takes a slot of its home core while one is free (R109, R110). The chain region is the issued command's. -/
def State.takeSlot (s : State) (c : Cmd) (t : Nat) : Cmd :=
  let x := (s.chainsOf c.part c.opcode c.body).1
  let core := s.homeCore c.part x t
  let used := (c.landSlots.filter (fun u => s.homeCore c.part x u = core)).length
  if c.landSlots.contains t || s.landRoom c ≤ used then c else { c with landSlots := c.landSlots ++ [t] }

/-- Bytes of a landing operand arrive (R109). -/
def State.landBytes (s : State) (p : Nat) (r : Nat × Nat) : State :=
  { s with cmds := s.cmds.map (fun c =>
      if c.part = p && c.phase = .issued then (s.tilesAt c r).foldl (fun c t => s.takeSlot c t) c else c) }

/-- FABRIC_DATA (R435, R436); bytes of a command's landing operand are its own input's arrival (R109). DEDUCED (log entry 83). -/
def State.copyData (s : State) (h : FabHdr) (bs : List Byte) (p : Nat) : State × Option Nat :=
  let a := h.addr.toNat
  if bs ≠ [] && !(s.inWindow p true a bs.length) then (s.accessFault (targetOf a) p 0x181 a none, some 1)
  else if h.item ≠ 0xFFFFFFFF#32 && s.itemBusy h then (s, some 2)
  else match s.writeFor p none a bs with
    | .error _ => (s, some 1)
    | .ok s =>
      let r := (a, a + bs.length)
      let s := (s.cloudOver none (fun c => s.tilesAt c r ≠ []) [r]).landBytes p r
      if h.item = 0xFFFFFFFF#32 then (s, none)
      else
        let (s, whole) := s.countItem h bs.length
        let k := h.sem.toNat
        if !whole || k = 0xFFFF then (s, none)
        else if s.semInWindow p k then ((s.semAdd k 1 0x181 none).1, none)
        else (s.semDenied k 0x181 none, none)

def execFabricData (h : FabHdr) (payload : List Byte) (s : State) : Host.Outcome State Fault Refusal :=
  done (s.receive h false (fun s p => if h.comm = 0xFFFF#16 then s.copyData h payload p else s.collData h payload))

/-- FABRIC_SEMOP (R174, R175): applied at most once, and answered. A poisoned semaphore discards it (R179): nothing is applied, and the answer
says so. DEDUCED (log entry 83). -/
def State.remoteOp (s : State) (h : FabHdr) (op n p : Nat) : State × Option Nat :=
  let h : FabHdr := { h with item := 0xFFFFFFFF#32 }
  let k := h.sem.toNat
  let reply := fun (s : State) (r : Nat) =>
    s.fabQueue ⟨Fin.ofNat 16 p, h.srcDev, 16⟩ [⟨0, fbREPLY, { fabHdr0 0xFFFF h.tag.toNat with accSeq := h.accSeq }, leBytes 1 r, none, 0, 0, false, 0⟩]
  match s.item? h with
  | some i => (reply s (i.result.getD 1), none)
  | none =>
    if s.itemBusy h then (s, some 2)
    else
      let inside := s.semInWindow p k && op ≤ 1
      let ok := inside && !(s.sem k).poison
      let s := s.setItem h ⟨h.srcDev.toNat, h.srcPart.toNat, h.accSeq.toNat, 0xFFFFFFFF, 0, h.rerun.toNat, true, some (if ok then 0 else 1)⟩
      let s :=
        if inside && !ok then s.semFault k
        else if ok then
          ((if op = 0 then s.semAdd k n 0x181 none else s.semSub k n 0x181 none).1).count (pgSEM (k / 0x4000)) oSEM_REMOTE_IN 1
        else
          let s := (s.semFault k).setErr (pgSEM (k / 0x4000)) 1
          s.flagEvent (pgSEM (k / 0x4000)) 2 3 (semInfo k 0x181 (s.sem k).read) none
      (reply s (if ok then 0 else 1), none)

def execFabricSemop (h : FabHdr) (op : Byte) (n : Word) (s : State) : Host.Outcome State Fault Refusal :=
  done (s.receive h false (fun s p => s.remoteOp h op.toNat n.toNat p))

/-- FABRIC_SEM_REPLY (R174): the SEMOP that waits for it ends. -/
def State.semReply (s : State) (h : FabHdr) (result p : Nat) : State :=
  match s.cmds.find? (fun c => c.part = p && c.phase = .answering && c.ref.seq % 2 ^ 32 = h.accSeq.toNat && c.hdr.tag = h.tag) with
  | none => s
  | some c => if result = 0 then s.leave c [] else s.endCmd c stACCESS_FAULT 0

def execFabricSemReply (h : FabHdr) (result : Byte) (s : State) : Host.Outcome State Fault Refusal :=
  done (s.receive h true (fun s p => (s.semReply h result.toNat p, none)))

/-- FABRIC_RELEASE (R437). DEDUCED (log entry 83). -/
def execFabricRelease (h : FabHdr) (s : State) : Host.Outcome State Fault Refusal :=
  done (s.receive h false (fun s _ =>
    ({ s with net := { s.net with items := s.net.items.filter (fun i =>
      !(i.dev = h.srcDev.toNat && i.part = h.srcPart.toNat && i.accSeq = h.accSeq.toNat)) } }, none)))

/-- FABRIC_LAG (R134): the event, and the laggard rule for every die with 1 − ρ = λ / (1 − λ). DEDUCED (log entry 34). -/
def State.lagNotice (s : State) (h : FabHdr) (l : Word) (n : Nat) : State :=
  let s := s.flagEvent pgFABRIC 3 3 (h.comm.toNat + n * 2 ^ 16 + l.toNat * 2 ^ 32) none
  match f32 l with
  | .fin false q => if 0 < q && q < 1 then [0, 1, 2, 3].foldl (fun s d => s.adjustLaggard d (q / (1 - q))) s else s
  | _ => s

def execFabricLag (h : FabHdr) (lambda : Word) (count : Half) (s : State) : Host.Outcome State Fault Refusal :=
  done (s.receive h false (fun s _ => (s.lagNotice h lambda count.toNat, none)))

/-! ### Cancel messages (R322, R323) -/

/-- The live request of a partition with a tag, whose model's pipeline is on a communicator. -/
def State.pipeRequest (s : State) (p : Nat) (h : FabHdr) : Option (Nat × Request × Model) :=
  (s.liveRequests p).findSome? (fun e => if e.2.tag ≠ h.tag.toNat then none
    else match s.model? p e.2.model with
      | some m => if m.comm = h.comm.toNat then some (e.1, e.2, m) else none
      | none => none)

/-- CANCEL_NOTICE: CANCEL_PENDING set and the notice acknowledged; its place is not one of the cancel table's 4,096 (R321). DEDUCED (log entry 83). -/
def State.cancelNotice (s : State) (h : FabHdr) (p : Nat) : State :=
  match s.pipeRequest p h with
  | none => s
  | some (i, r, m) =>
    let have_ := (s.srv p).cancels.any (fun e => e.notified && e.tag = r.tag)
    let s := if have_ then s
      else (s.setRequest p i (r.flag 4 true)).modSrv p (fun v => { v with
        cancels := v.cancels ++ [(⟨r.tag, r.model, i, ⟨0, 8192⟩, 0, [], false, false, true⟩ : CancelEntry)] })
    s.fabQueue ⟨Fin.ofNat 16 p, h.srcDev, Fin.ofNat 17 h.srcPart.toNat⟩
      [⟨0, fbCANCEL, fabHdr0 h.comm.toNat r.tag, leBytes 1 2 ++ leBytes 1 m.stage, none, 0, 0, false, 0⟩]

def execCancelNotice (h : FabHdr) (_stage : Byte) (s : State) : Host.Outcome State Fault Refusal :=
  done (s.receive h false (fun s p => (s.cancelNotice h p, none)))

/-- Entries of the cancel table with a tag, changed. -/
def State.modCancels (s : State) (p : Nat) (f : CancelEntry → Bool) (g : CancelEntry → CancelEntry) : State :=
  s.modSrv p (fun v => { v with cancels := v.cancels.map (fun e => if f e then g e else e) })

/-- CANCEL_ACK: a stage has acknowledged. -/
def execCancelAck (h : FabHdr) (stage : Byte) (s : State) : Host.Outcome State Fault Refusal :=
  done (s.receive h false (fun s p =>
    (s.modCancels p (fun e => !e.notified && e.tag = h.tag.toNat) (fun e => { e with acks := insertNat e.acks stage.toNat }), none)))

/-- CANCEL_CONFIRM: the request is cancelled at the model's next boundary. -/
def execCancelConfirm (h : FabHdr) (_stage : Byte) (s : State) : Host.Outcome State Fault Refusal :=
  done (s.receive h false (fun s p =>
    (s.modCancels p (fun e => e.notified && e.tag = h.tag.toNat) (fun e => { e with confirmed := true }), none)))

/-- CANCEL_DEFER: the request drains from the model's next boundary on. -/
def execCancelDefer (h : FabHdr) (_stage : Byte) (s : State) : Host.Outcome State Fault Refusal :=
  done (s.receive h false (fun s p =>
    (s.modCancels p (fun e => e.notified && e.tag = h.tag.toNat) (fun e => { e with deferred := true }), none)))

/-! ### Acknowledgements at the sender (R438 to R440) -/

/-- Whether an ACK covers a packet. -/
def ackCovers (a : AckBody) (psn : Nat) : Bool :=
  let d := (psn % 2 ^ 32 + 2 ^ 32 - a.cum.toNat) % 2 ^ 32
  2 ^ 31 ≤ d || (1 ≤ d && d ≤ 256 && bit a.sack.toNat (d - 1))

/-- Commands with packets on a connection. -/
def TxConn.users (t : TxConn) : List CmdRef := (t.outstanding ++ t.backlog).filterMap (·.cmd)

/-- FABRIC_ACK (R438, R439): packets acknowledged, the round trip, losses that eight later packets tell, and room for what waits. -/
def State.fabAck (s : State) (h : FabHdr) (a : AckBody) (rtt p : Nat) : State :=
  let c := txName p h
  match s.txConn? c with
  | none => s
  | some t =>
    let got := t.outstanding.filter (fun k => ackCovers a k.psn)
    let left := (t.outstanding.filter (fun k => !(ackCovers a k.psn))).map (fun k =>
      { k with later := k.later + (got.filter (fun g => k.order < g.order)).length })
    let s := s.setTxConn { t with
      outstanding := left
      syn := false
      rtos := 0
      srtt := (7 * t.srtt + rtt) / 8
      winCe := t.winCe + a.ce.toNat
      winAcked := t.winAcked + a.pkts.toNat }
    let s := (left.filter (fun k => 8 ≤ k.later && !k.waiting)).foldl (fun s k => s.resend c k true) s
    State.fabPump c (s.txConn c).backlog.length s

/-- DESIGN CHOICE (log entry 90). -/
def execFabricAck (h : FabHdr) (ack : AckBody) (rtt : Nat) (s : State) : Host.Outcome State Fault Refusal :=
  let s := s.rxBack h.ce
  if s.deviceId = 0xFFFF || h.dstDev.toNat ≠ s.deviceId then done s
  else match s.mapPacket h with
    | none => done s
    | some p => done ((s.peerUp p h).fabAck h ack rtt p)

/-- FABRIC_NACK (R433, R435, R436, R445): BUSY and WAIT make the packet wait; the other codes end its command. -/
def State.fabNack (s : State) (h : FabHdr) (psn code p : Nat) : State :=
  let c := txName p h
  match s.txConn? c with
  | none => s
  | some t => match t.outstanding.find? (fun k => k.psn % 2 ^ 32 = psn) with
    | none => s
    | some k =>
      let s := s.count pgFABRIC oNETB_NACKS 1
      if code = 2 || code = 4 then
        s.setTxConn { t with outstanding := t.outstanding.map (fun x => if x.psn = k.psn then { x with waiting := true } else x) }
      else
        let s := s.setTxConn { t with outstanding := t.outstanding.filter (fun x => x.psn ≠ k.psn) }
        let s := s.flagEvent pgFABRIC 2 4 (h.srcDev.toNat + code % 256 * 2 ^ 16 + k.hdr.accSeq.toNat * 2 ^ 32)
          ((k.cmd.bind (fun r => s.cmd? r)).bind Cmd.evTag)
        match k.cmd.bind (fun r => s.cmd? r) with
        | none => s
        | some d =>
          if d.phase = .ended then s
          else if code = 5 then s.endCmd d stBAD_DESCRIPTOR 0x30
          else s.endCmd d stACCESS_FAULT 0

/-- FABRIC_NACK. NO_MAP comes from a device that mapped the packet to no partition, so its connection is found by device, communicator
and PSN. DEDUCED (log entry 82). -/
def execFabricNack (h : FabHdr) (psn : Word) (code : Byte) (s : State) : Host.Outcome State Fault Refusal :=
  let s := s.rxBack h.ce
  if s.deviceId = 0xFFFF || h.dstDev.toNat ≠ s.deviceId then done s
  else if code = 3#8 then
    match s.net.txConns.find? (fun t => t.conn.dev = h.srcDev && (t.conn.peer = 16) = (h.comm = 0xFFFF#16)
        && t.outstanding.any (fun k => k.psn % 2 ^ 32 = psn.toNat && k.hdr.comm = h.comm)) with
    | some t => done (s.fabNack { h with srcPart := BitVec.ofNat 4 t.conn.peer.val } psn.toNat 3 t.conn.part.val)
    | none => done s
  else match s.mapPacket h with
    | none => done s
    | some p => done ((s.peerUp p h).fabNack h psn.toNat code.toNat p)

/-- Commands that wait for a SEMOP's answer over a connection (R174). -/
def State.answering (s : State) (c : ConnId) : List CmdRef :=
  (s.cmds.filter (fun d => d.phase = .answering && c.peer.val = 16 && d.part = c.part.val && (semopOf d.body).dev = c.dev.toNat)).map (·.ref)

/-- The peer of a connection is unreachable (R440): its commands end, those that wait for its answer too (R174), and the event tells. The far partition of a connection without
a communicator is the far side's to know (R435), so its number in the event is a free value. DEDUCED (log entry 82). -/
def State.peerDown (s : State) (c : ConnId) : State :=
  let t := s.txConn c
  let users := t.users ++ s.answering c
  let s := s.setTxConn { t with down := true, outstanding := [], backlog := [], syn := true, rtos := 0 }
  let s := (s.count pgFABRIC oNETB_PEERS_DOWN 1).flagEvent pgFABRIC 1 1
    (c.dev.toNat + (if c.peer.val < 16 then c.peer.val else s.choose 0xED 16) * 2 ^ 16 + c.part.val * 2 ^ 24) none
  users.foldl (fun s r => match s.cmd? r with
    | some d => if d.phase = .ended then s else s.endCmd d stACCESS_FAULT 0xFF
    | none => s) s

/-- FABRIC_RTO (R439, R440). -/
def execFabricRto (conn : ConnId) (psn : Word) (s : State) : Host.Outcome State Fault Refusal :=
  match s.txConn? conn with
  | none => done s
  | some t => match t.outstanding.find? (fun k => k.psn % 2 ^ 32 = psn.toNat && !k.waiting) with
    | none => done s
    | some k =>
      if s.fabRetry ≤ t.rtos + 1 then done (s.peerDown conn)
      else done ((s.setTxConn { t with rtos := t.rtos + 1 }).resend conn k true)

/-- ACK_DELAY_TIMER (R438): what has come since the last ACK is acknowledged, but for a passing or suspended partition (R342). -/
def execAckDelayTimer (conn : ConnId) (s : State) : Host.Outcome State Fault Refusal :=
  done ((s.net.rxConns.filter (fun x => x.conn = conn && 0 < x.pkts && !(s.deaf conn.part.val))).foldl (fun s x => s.sendAck x) s)

/-- NACK_RESEND_TIMER (R436, R445). DEDUCED (log entry 82). -/
def execNackResendTimer (conn : ConnId) (psn : Word) (s : State) : Host.Outcome State Fault Refusal :=
  match s.txConn? conn with
  | none => done s
  | some t => match t.outstanding.find? (fun k => k.psn % 2 ^ 32 = psn.toNat && k.waiting) with
    | none => done s
    | some k => done (s.resend conn k false)

/-- CONNECTION_IDLE (R434): contexts with nothing unacknowledged close, and connections that wait for one begin. -/
def execConnectionIdle (conn : ConnId) (s : State) : Host.Outcome State Fault Refusal :=
  let s : State := { s with net := { s.net with
    txConns := s.net.txConns.filter (fun t => !(t.conn = conn && t.outstanding = [] && t.backlog = [] && !t.down))
    rxConns := s.net.rxConns.filter (fun x => !(x.conn = conn && x.pkts = 0)) } }
  done ((s.net.txConns.filter (fun t => t.backlog ≠ [])).foldl (fun s t => State.fabPump t.conn t.backlog.length s) s)

/-- RATE_UPDATE (R442), in Gb/s; a rate of 0 stands for the full rate at which a connection starts. -/
def execRateUpdate (conn : ConnId) (s : State) : Host.Outcome State Fault Refusal :=
  match s.txConn? conn with
  | none => done s
  | some t =>
    if t.winAcked = 0 then done s
    else
      let top : Rat := 1600 * ((min 4096 (s.field (pgPRT conn.part.val) oPRT_REG_BACK 12 0) : Nat) : Rat) / 4096
      let low : Rat := ((max 1 (s.field pgFABRIC oNETB_FAB_RATE 23 16) : Nat) : Rat)
      let ai : Rat := ((s.field pgFABRIC oNETB_FAB_RATE 15 0 : Nat) : Rat) / 10
      let f : Rat := (t.winCe : Rat) / (t.winAcked : Rat)
      let alpha := t.alpha + (f - t.alpha) / 16
      let now := if t.rate = 0 then top else t.rate
      let rate := if 0 < f then max (now * (1 - alpha / 2)) low else min (now + ai) top
      done (s.setTxConn { t with rate := rate, alpha := alpha, winCe := 0, winAcked := 0 })

end Sys2Proof.Machine
end

