-- ==== Sys2Proof/Machine/Views.lean ====
section
/-! DEFINITION. What the read-only fields of the register pages show (the home chapters of R521): each is computed from the state that
holds it. Fields whose value follows a placement that the spec leaves open (which engine serves, R583) are free values.
Also the capability list (R535 to R540) and the header's STATUS (R525). -/

namespace Sys2Proof.Machine

/-- v in bits lo upwards, cut to n bits. -/
def at_ (v lo n : Nat) : Nat := v % 2 ^ n * 2 ^ lo

/-! ### The capability list (R535 to R540) -/

/-- An entry's words: ID, VER, body, and whether it is the last, lying at offset `off`. -/
def capEntry (off : Nat) (last : Bool) (e : Nat × List Nat) : List Word :=
  let len := 2 + e.2.length
  (BitVec.ofNat 32 (len * 2 ^ 24 + 2 ^ 16 + e.1)) :: (if last then 0#32 else BitVec.ofNat 32 (off + 4 * len)) :: e.2.map (BitVec.ofNat 32)

/-- The entries of R539 that this part has, in ascending ID, with their bodies as they are now. -/
def State.capItems (s : State) : List (Nat × List Nat) :=
  [(1, [((List.range 4).map (fun q => at_ (s.enabledCores q) (8 * q) 8)).sum]), (2, []), (3, []), (4, [0xFFFFFFFF]), (5, [0x08400002])]
    ++ (if s.fitted.h384 then [(6, [0x00000830])] else [])
    ++ [(7, [(partIds.map (fun p => if (s.part p).nonFree && (s.part p).chunkPriv then 2 ^ p else 0)).sum + 2 * 2 ^ 16])]

/-- The words of the list from offset `off` on. -/
def capWalk : Nat → List (Nat × List Nat) → List Word
  | _, [] => []
  | off, e :: t => capEntry off (t = []) e ++ capWalk (off + 4 * (2 + e.2.length)) t

/-- The capability list as it lies in the root page from offset 0x100. -/
def State.capWords (s : State) : List Word := capWalk 0x100 s.capItems

/-! ### Engines (R583) -/

/-- The command that the engine of a page serves now, which is open among those in progress: none, or one of the given opcodes with
cores on the engine's die. DEDUCED (log entry 85). -/
def State.engineServes (s : State) (page : Nat) (ops : List Nat) (q : Option Nat) : Option Cmd :=
  let cs := s.cmds.filter (fun c => c.running && ops.contains c.opcode && (match q with | none => true | some d => (s.diesOf c.part).contains d))
  let i := s.choose page (cs.length + 1)
  if i = 0 then none else cs[i - 1]?

/-- PARTITION and BUSY of an engine's status. -/
def serving (c : Option Cmd) : Nat := match c with | some c => at_ c.part 16 5 + 1 | none => at_ 31 16 5

/-- OLD and CURRENT of a slot's users: commands that hold another version of it, and the present one. -/
def users (old cur : Nat) : Nat := at_ old 16 10 + at_ cur 0 10

/-- DEDUCED (log entry 93). -/
def State.slotUsers (s : State) (ops : List Nat) (i version : Nat) : Nat :=
  let l := s.cmds.filter (fun c => c.running && ops.contains c.opcode && fld c.body 0 2 = i)
  let cur := (l.filter (fun c => c.slotVersion = version)).length
  users (l.length - cur) cur

/-- Users of a text slot: TOKENIZE and DETOKENIZE commands, and steps of the serving engines, which captured the slot's version (R266). -/
def State.textUsers (s : State) (i : Nat) : Nat :=
  let x := s.text i
  let l := s.cmds.filter (fun c => c.running && (c.opcode = opTOKENIZE || c.opcode = opDETOKENIZE) && fld c.body 0 2 = i)
  let cur := (l.filter (fun c => c.slotVersion = x.version)).length
  let st := partIds.flatMap (fun p => (s.part p).srv.steps.filter (fun t => t.slots.any (fun e => e.1 = i)))
  let scur := (st.filter (fun t => t.slots.any (fun e => e.1 = i && e.2.2.1 = x.version))).length
  users (l.length - cur + (st.length - scur)) (cur + scur)

/-! ### Fields by page -/

/-- A record of the repair history as its 16 bytes (R487). -/
def histBytes (h : Hist) : List Byte :=
  leBytes 1 h.kind ++ leBytes 1 (b2n h.factory + 2 * b2n h.replay) ++ leBytes 2 h.page ++ leBytes 4 h.location ++ leBytes 6 h.seconds ++ [0#8, 0#8]

/-- Word i of some bytes. -/
def wordOf (bs : List Byte) (i : Nat) : Nat := fld bs (4 * i) 4

/-- SPARE_CORES, SPARE_MEM and HOLES (R489). -/
def State.spareCoresWord (s : State) : Nat := ((List.range 4).map (fun q => at_ (s.spareCores q).length (8 * q) 8)).sum
def State.spareMemWord (s : State) : Nat := at_ (s.reserveLeft true) 16 16 + at_ (s.reserveLeft false) 0 16
def State.holesWord (s : State) : Nat := at_ s.errors.ddrHoles.length 16 16 + at_ s.errors.hbmHoles.length 0 16

def State.viewMgt (s : State) (off : Nat) : Nat :=
  let e := tabGet ([] : List Byte) s.sec.log (s.field pgMGT oMGT_LOG_SEL 7 0)
  if off = oMGT_MGT_STATUS then at_ s.start.fail 12 4 + at_ (b2n s.start.slotB) 8 1 + at_ (if s.start.halted then 3 else s.start.stage) 0 2
  else if off = oMGT_SVN_CTRL then at_ s.sec.burned 1 6
  else if off = oMGT_DEBUG_CTRL then b2n s.sec.debugOpen
  else if off = oMGT_LOG_STATUS then at_ (b2n (256 < s.sec.logged)) 31 1 + s.sec.logged % 256
  else if oMGT_LOG_W0 ≤ off && off ≤ oMGT_LOG_W7 then wordOf e ((off - oMGT_LOG_W0) / 4)
  else if off = oMGT_BOOT_MS then s.start.bootMs
  else if off = oMGT_RESET_CAUSE then at_ s.start.cause 0 16
  else 0

def State.viewSec (s : State) (off : Nat) : Nat :=
  let m := s.field pgSEC oSEC_ACC_SEL 27 16
  if off = oSEC_SEC_STATUS then
    ((List.range 4).map (fun k => at_ (b2n (s.keySlot k).locked) (8 + k) 1 + at_ (b2n (s.keySlot k).key.isSome) (4 + k) 1)).sum
      + 2 * b2n s.sec.exhausted + b2n s.sec.leafReady
  else if off = oSEC_KEY_CTRL then at_ (b2n (s.keySlot s.keySel).locked) 1 1
  else if off = oSEC_ATT_CTRL then at_ s.sec.attResult 28 4 + b2n (s.sec.attResult = 0xF)
  else if off = oSEC_LEAF_NEXT then s.sec.leafNext
  else if off = oSEC_LEAF_RESERVED then s.sec.leafReserved
  else if oSEC_MEAS_W0 ≤ off && off ≤ oSEC_MEAS_W7 then wordOf (s.meas (s.field pgSEC oSEC_MEAS_SEL 2 0)) ((off - oSEC_MEAS_W0) / 4)
  else if off = oSEC_ACC_INFO then
    let r := (Config.accInfo m (s.field pgSEC oSEC_ACC_SEL 3 0)).toNat
    if m < 208 then (if (s.core m).owner < 16 then 2 ^ (16 + (s.core m).owner) else 0) + r % 4 else r / 2 ^ 16 * 2 ^ 16 + r % 4
  else if off = oSEC_PUBKEY then wordOf s.sec.pubkey (s.field pgSEC oSEC_PUBKEY_SEL 3 0)
  else 0

def State.viewRtc (s : State) (off : Nat) : Nat :=
  if off = oRTC_RTC_STATUS then 4 * b2n s.cal.vbatLow + 2 * b2n s.cal.oscStop + b2n s.cal.valid
  else if off = oRTC_SEC_LO then s.cal.seconds
  else if off = oRTC_SEC_HI then s.cal.latchHi
  else if off = oRTC_FRAC then at_ s.cal.latchFrac 0 15
  else 0

def State.viewErr (s : State) (off : Nat) : Nat :=
  let e := (tabFind s.errors.log (s.field pgERR oERR_LOG_SEL 9 0)).getD ⟨0, 0, 0, 0, 0, 0⟩
  if off = oERR_LOG_STATUS then at_ (b2n (1024 < s.errors.logged)) 31 1 + s.errors.logged % 1024
  else if off = oERR_LOG_W0 then at_ e.outcome 26 3 + at_ e.cls 24 2 + at_ e.struct_ 16 8 + at_ e.page 0 16
  else if off = oERR_LOG_W1 then e.location
  else if off = oERR_LOG_W2 then e.time / 2 ^ 15
  else if off = oERR_LOG_W3 then at_ (e.time / 2 ^ 63) 15 1 + e.time % 2 ^ 15
  else if off = oERR_HIST_COUNT then at_ s.errors.hist.length 0 17
  else if oERR_HIST_W0 ≤ off && off ≤ oERR_HIST_W3 then
    match s.errors.hist[s.field pgERR oERR_HIST_SEL 15 0]? with
    | some h => wordOf (histBytes h) ((off - oERR_HIST_W0) / 4)
    | none => 0
  else if off = oERR_SPARE_CORES then s.spareCoresWord
  else if off = oERR_SPARE_MEM then s.spareMemWord
  else if off = oERR_HOLES then s.holesWord
  else if off = oERR_TESTING then at_ (s.errors.tests.filter (·.started)).length 0 8
  else 0

/-- Power in 1/16 W, in n bits. -/
def watts (w : Rat) (n : Nat) : Nat := min (2 ^ n - 1) (watt16 w)

def State.viewTrv (s : State) (off : Nat) : Nat :=
  let q := s.field pgTRV oTRV_DIE_SEL 1 0
  let r := s.field pgTRV oTRV_RAIL_SEL 3 0
  if off = oTRV_TRV_STATUS then
    at_ (b2n s.start.thermLow) 5 1 + at_ (b2n ((List.range 12).any (fun r => (s.rail r).pmbFail))) 4 1
      + ((List.range 4).map (fun q => at_ (b2n (s.die q).derated) q 1)).sum
  else if off = oTRV_DIE_BUDGET then at_ (watts (s.estimate q) 16) 16 16 + watts (s.die q).budget 16
  else if off = oTRV_DIE_POOL then at_ (watts (s.pool q) 16) 16 16 + at_ (s.die q).gate 0 3
  else if off = oTRV_ENERGY_LO then (if r < 12 then (s.rail r).energy else 0)
  else if off = oTRV_ENERGY_HI then (if r < 12 then s.energyLatch else 0)
  else 0

def State.viewSup (s : State) (off : Nat) : Nat :=
  let r := s.field pgSUP oSUP_SUP_SEL 3 0
  if off = oSUP_SUP_STATUS then b2n (s.rail r).warn
  else if off = oSUP_SUP_LEVELS then at_ (railResetMv r) 16 16 + at_ (s.rail r).warnMv 0 16
  else 0

/-- DEDUCED (log entry 78). -/
def State.viewFls (s : State) (off : Nat) : Nat :=
  let f := s.flash
  let d := (s.chan 0).dies.length
  let c := s.field pgFLS oFLS_CH_SEL 4 0
  let es := s.eraseCounts
  if off = oFLS_FLS_STATUS then
    at_ d 24 5 + at_ (b2n (d = 1)) 7 1 + at_ (b2n f.readOnly) 6 1 + at_ (b2n f.formatted) 5 1 + at_ (b2n f.marker.isSome) 4 1 + at_ f.mapState 0 2
  else if off = oFLS_LOGICAL then f.logical
  else if off = oFLS_GOOD_RAW then f.goodRaw
  else if off = oFLS_SLC_TARGET then s.slcTarget / pageBytes
  else if off = oFLS_SLC_HELD then s.slcHeld * 4096 / pageBytes
  else if off = oFLS_LIFE then at_ s.lifeSpare 16 8 + at_ s.lifeWear 8 8 + at_ s.life 0 8
  else if off = oFLS_ERASE_RANGE then at_ (es.foldl max 0) 16 16 + at_ (es.min?.getD 0) 0 16
  else if off = oFLS_ERASE_MEAN then at_ (s.fdie 0 0).peRated 16 16 + at_ s.eraseMean.floor.toNat 0 16
  else if off = oFLS_REBUILD_S then f.rebuildS
  else if off = oFLS_PATROL_POS then at_ (b2n s.patrolBehind) 31 1 + at_ (min 10000 (f.patrolPos * 10000 / max 1 s.patrolTotal)) 0 14
  else if off = oFLS_CH_INFO then at_ (s.chan c).retired 16 16 + at_ (s.chan c).lost.length 8 5 + at_ (s.liveDies c).length 0 5
  else if off = oFLS_CH_FREE then (s.freeBlocks c).length
  else 0

/-- PAGE_INFO (R369): the copy shown is that of the lowest partition that has one (R337). DEDUCED (log entry 76). -/
def State.pageInfo (s : State) : Nat :=
  let g := s.field pgTNG oTNG_PAGE_SEL 26 0
  let x := s.page g
  let tail := at_ (b2n (x.moves ≠ [])) 29 1 + at_ (if pageZone g = .hbm then 0 else s.hintOf g) 26 2
  match (partIds.filterMap (fun p => x.own p)).head? with
  | some c => at_ 1 31 1 + at_ (b2n (c.dirty ≠ [])) 30 1 + at_ (b2n (c.hold ≠ [])) 28 1 + at_ c.part 21 5 + at_ c.frame 0 18 + tail
  | none => at_ 31 21 5 + tail

def State.viewTng (s : State) (off : Nat) : Nat :=
  let n := (s.pages.filter (fun e => e.2.moves ≠ [])).length
  if off = oTNG_TNG_STATUS then at_ (b2n (n ≠ 0)) 16 1 + at_ n 0 16
  else if off = oTNG_PAGE_INFO then s.pageInfo
  else 0

/-- The code of a partition's state (R333). -/
def PState.code : PState → Nat
  | .free => 0
  | .active => 1
  | .suspending => 2
  | .suspended => 3
  | .resuming => 4

def State.viewPart (s : State) (k : PageKind) (p off : Nat) : Nat :=
  let x := s.part p
  match k with
  | .prt =>
    if off = oPRT_PRT_STATE then at_ (b2n (s.oversub p)) 4 1 + x.st.code
    else if off = oPRT_PRT_CTRL then b2n (x.changing.isSome || s.changeQueue.any (fun e => e.1 = p))
    else 0
  | .cmd => if off = oCMD_INFLIGHT then at_ (s.inflight p) 0 10 else 0
  | .fnl =>
    if off = oFNL_WIN_USED then s.winUsed p
    else if off = oFNL_WIN_PINNED then s.winPinned p
    else if off = oFNL_CURRENT then (match x.current with | some i => at_ 1 31 1 + at_ i 0 13 | none => 0)
    else 0
  | .srv =>
    if off = oSRV_SRV_CTRL then b2n x.srv.enabled
    else if off = oSRV_LIVE then at_ (s.liveRequests p).length 0 17
    else if off = oSRV_HBM_FREE then (if x.srv.enabled then s.hbmPoolFrames p - x.srv.hbmUsed.length else 0)
    else if off = oSRV_DDR_FREE then (if x.srv.enabled then s.ddrPoolFrames p - x.srv.ddrUsed.length else 0)
    else if off = oSRV_CANCEL_USE then at_ x.srv.cancelUse 0 13
    else if off = oSRV_HANDLE_CTRL then at_ (b2n (x.srv.drops ≠ [])) 3 1
    else 0
  | .stp => if off = oSTP_STP_STATUS then at_ (b2n (x.srv.steps ≠ [] || x.srv.passes ≠ [])) 16 1 else 0
  | _ => 0

/-- The semaphore that SEM_SEL names on die q's page. -/
def State.semSel (s : State) (q : Nat) : Nat := q * 0x4000 + s.field (pgSEM q) oSEM_SEM_SEL 13 0

def State.viewSem (s : State) (q off : Nat) : Nat :=
  let k := s.semSel q
  let x := s.sem k
  if off = oSEM_SEM_VALUE then x.read
  else if off = oSEM_SEM_RESV then at_ x.resv 0 23
  else if off = oSEM_SEM_FLAGS then at_ (s.semOwner k) 16 5 + 4 * b2n x.poison + 2 * b2n x.satHi + b2n x.satLo
  else 0

/-- Spare rows left and used of a unit (R82, R83). -/
def State.spareRowsWord (s : State) (page : Nat) : Nat :=
  let u := tabGet 0 s.errors.rows page
  at_ (spareRows page - u) 8 8 + at_ u 0 8

/-- DEDUCED (log entry 52). -/
def State.viewStk (s : State) (q off : Nat) : Nat :=
  if off = oSTK_STK_USE then
    at_ ((s.cmds.filter (fun c => coreWork c.opcode)).flatMap (fun c => (c.staging.filter (fun e => e.1 = q)).map (fun e => ceilDiv e.2 0x10000))).sum 16 12
      + at_ (partIds.map (fun p => if (s.part p).windows then ((s.part p).stk q).2 / 0x10000 else 0)).sum 0 12
  else if off = oSTK_STK_SPARE then s.spareRowsWord (pgSTK q)
  else 0

/-- The command that uses a core's whisk: of several whose units its griddles have in hand, that of the lowest griddle. DESIGN CHOICE (log entry 101). -/
def State.handCmd (s : State) (c : Nat) : Option Cmd := ((s.core c).hand.filterMap id).head?.bind (fun u => s.cmd? u.cmd)

def CoreSt.code : CoreSt → Nat
  | .spare => 0
  | .enabled => 1
  | .retired => 2
  | .quiesced => 3

def State.viewCore (s : State) (k : PageKind) (c off : Nat) : Nat :=
  let x := s.core c
  match k with
  | .grd =>
    if off = oGRD_CORE_STATE then at_ c 24 8 + at_ x.owner 16 5 + x.st.code
    else if off = oGRD_COLMAP then ((List.range 4).map (fun g => match nth none x.byp g with
      | some col => at_ 1 (8 * g + 7) 1 + at_ col (8 * g) 6
      | none => 0)).sum
    else 0
  | .wsk =>
    if off = oWSK_WSK_STATUS then match s.handCmd c with
      | some d => 2 * b2n (hFlush d.hdr) + s.choose c 2
      | none => 0
    else 0
  | .tray =>
    if off = oTRY_TRY_USE then
      at_ x.trayNow.2 16 12 + at_ x.trayNow.1 0 13
    else if off = oTRY_TRY_SPARE then s.spareRowsWord (pgTRY c)
    else 0
  | _ => 0

def State.viewLdl (s : State) (i off : Nat) : Nat :=
  let sel := s.field (pgLDL i) oLDL_SLOT_SEL 11 0
  let t := s.table sel
  if off = oLDL_LDL_STATUS then serving (s.engineServes (pgLDL i) [opGATHER, opSCATTER] (some (i / 8))) + 2 * b2n (256 ≤ s.stallUse i)
  else if off = oLDL_STALL_USE then at_ (s.stallUse i) 0 9
  else if off = oLDL_SLOT_VERSION then t.version
  else if off = oLDL_SLOT_DESC_LO then t.ptr
  else if off = oLDL_SLOT_DESC_HI then t.ptr / 2 ^ 32
  else if off = oLDL_SLOT_USERS then s.slotUsers [opGATHER, opSCATTER] sel t.version
  else 0

def State.viewSkm (s : State) (i off : Nat) : Nat :=
  let sel := s.field (pgSKM i) oSKM_SLOT_SEL 7 0
  let t := s.index sel
  let d := (s.imageAt t.ptr).1
  if off = oSKM_SKM_STATUS then
    match s.engineServes (pgSKM i) [opSEARCH, opMERGE] (some (i / 4)) with
    | some c => at_ c.part 16 5 + s.choose (pgSKM i + 0x1000) 17
    | none => at_ 31 16 5
  else if off = oSKM_SLOT_VERSION then t.version
  else if off = oSKM_SLOT_DESC_LO then t.ptr
  else if off = oSKM_SLOT_DESC_HI then t.ptr / 2 ^ 32
  else if off = oSKM_SLOT_SEQ then (if t.ptr = 0 then 0 else d.seq)
  else if off = oSKM_SLOT_SIDE then (if t.ptr = 0 then 0 else at_ d.side 0 25)
  else if off = oSKM_SLOT_USERS then s.slotUsers [opSEARCH, opMERGE] sel t.version
  else 0

/-- Working space that a command's row holds on die q, in units of 64 KiB (R258). -/
def Cmd.rowUnits (c : Cmd) (q : Nat) : Nat :=
  if c.opcode = opSELECT then ceilDiv ((c.staging.filter (fun e => e.1 = q)).map (·.2)).sum 0x10000 else 0

/-- A sieve works on a row of a SELECT that holds space on its die, on the sampled rows of a step, or orders a skimmer's candidates (R261).
DEDUCED (log entry 85). DEDUCED (log entry 85). -/
def State.viewSiv (s : State) (i off : Nat) : Nat :=
  let c := (s.engineServes (pgSIV i) [opSELECT, opSEARCH, opMERGE, opSTEP] (some (i / 4))).filter (fun d =>
    if d.opcode = opSELECT then d.rowUnits (i / 4) ≠ 0 else d.opcode ≠ opSTEP || (stepOf d.body).action = 0)
  if off = oSIV_SIV_STATUS then serving c + (match c with | some d => 2 * b2n (d.opcode = opSEARCH || d.opcode = opMERGE) | none => 0)
  else if off = oSIV_WORK_USE then (match c with | some d => at_ (d.rowUnits (i / 4)) 0 12 | none => 0)
  else 0

def State.viewMdl (s : State) (i off : Nat) : Nat :=
  let sel := s.field (pgMDL i) oMDL_SLOT_SEL 9 0
  let x := s.text sel
  let c := s.engineServes (pgMDL i) [opTOKENIZE, opPACK] none
  if off = oMDL_MDL_STATUS then serving c + (match c with | some d => 2 * b2n (d.opcode = opPACK) | none => 0)
  else if off = oMDL_SLOT_KIND then at_ x.kind 0 2
  else if off = oMDL_SLOT_VERSION then x.version
  else if off = oMDL_SLOT_PTR_LO then x.ptr
  else if off = oMDL_SLOT_PTR_HI then x.ptr / 2 ^ 32
  else if off = oMDL_SLOT_USERS then s.textUsers sel
  else 0

/-- The failing row's stack of each HBM hole (R371, R485). -/
def State.holesOn (s : State) (i : Nat) : Nat :=
  (s.errors.hbmHoles.filter (fun f => match s.errors.noSpare.find? (fun t => match t with | .hbm a => s.hbmPageOf (a / pageBytes) = f | _ => false) with
    | some (.hbm a) => hbmStack a = i
    | _ => false)).length

/-- USABLE_MIB of a stack: its capacity less its part of the reserve frames and 2 for each hole (R371). -/
def State.usableMib (s : State) (i : Nat) : Nat :=
  if s.start.hbmDone then (if s.fitted.h384 then 48 else 36) * 1024 - 4 - 2 * s.holesOn i else 0

def State.ddrFitted (s : State) (i : Nat) : Option Spd := nth none s.tiers.ddrSpds i

def State.viewMem (s : State) (k : PageKind) (i off : Nat) : Nat :=
  match k with
  | .hbm =>
    if off = oHBM_HBM_STATUS then 4 * b2n (nth false s.tiers.hbmFallback i) + 2 * b2n (nth false s.tiers.hbmTrained i) + 1
    else if off = oHBM_HBM_CAP then at_ (tabGet 0 s.errors.retired (pgHBM i)) 16 16 + at_ (s.usableMib i) 0 16
    else 0
  | .ddr =>
    if off = oDDR_DDR_STATUS then match s.ddrFitted i with
      | some d => at_ d.gb 20 12 + at_ d.ranks 6 2 + at_ (b2n (s.tiers.ddrTrained && 12800 ≤ s.tiers.ddrRate)) 5 1 + 2 * b2n s.tiers.ddrTrained + 1
      | none => 0
    else 0
  | _ => 0

def State.viewArb (s : State) (a off : Nat) : Nat :=
  let b := s.arb a
  let y := b.port (s.field (pgARB a) oARB_PORT_SEL 4 0)
  if off = oARB_ARB_STATUS then
    at_ ((b.grant.map (·.1)).getD 0) 8 5 + 2 * b2n b.pick.isSome + b2n b.grant.isSome
  else if off = oARB_PORT_INFO then
    at_ (b2n y.out) 31 1 + at_ y.losses 27 4 + at_ y.backoff 16 11 + at_ ((y.queue.head?.map (·.age)).getD 0) 6 8 + at_ y.queue.length 0 6
  else 0

/-- Sub-ports of a mode, and the lanes of each at its full rate (R415). -/
def modeSubs (m : Nat) : Nat := if m = 1 then 2 else if m = 2 then 4 else 1
def modeLanes (m : Nat) : Nat := 4 / modeSubs m

/-- MODE of a port in force. -/
def State.portMode (s : State) (p : Nat) : Nat := s.field (pgPORT p) oNETP_PORT_CFG 1 0

/-- A sub-port's MAC address (R418). -/
def State.macOf (s : State) (i : Nat) : Nat := (s.fitted.macBase + i) % 2 ^ 48

def State.viewPort (s : State) (p off : Nat) : Nat :=
  let m := s.portMode p
  let subs := List.range (modeSubs m)
  let mac := s.macOf (4 * p + s.field (pgPORT p) oNETP_SUB_SEL 1 0)
  if off = oNETP_PORT_STATUS then
    ((List.range 4).map (fun l => at_ (b2n (!((tabGet [] s.net.lanesBad p).contains l))) (28 + l) 1)).sum
      + (subs.map (fun i => at_ (b2n ((s.sub (4 * p + i)).lanes < modeLanes m)) (12 + i) 1)).sum
      + (subs.map (fun i => at_ (b2n (s.sub (4 * p + i)).up) i 1)).sum
  else if off = oNETP_MAC_LO then mac
  else if off = oNETP_MAC_HI then mac / 2 ^ 32
  else 0

/-- The computed bits of a block register: those of the fields that RegTable marks as views, and the action bits that read 1 while
their action runs. `n` is the page's place in its range. DEDUCED (log entry 85). DESIGN CHOICE (log entry 101). -/
def State.viewWord (s : State) (k : PageKind) (n off : Nat) : Word :=
  BitVec.ofNat 32 (match k with
    | .cap => if off = oCAP_SERIAL_LO then s.fitted.serial else if off = oCAP_SERIAL_HI then s.fitted.serial / 2 ^ 32
        else if off = oCAP_CAP_COUNT then s.capItems.length else 0
    | .mgt => s.viewMgt off
    | .sec => s.viewSec off
    | .rtc => s.viewRtc off
    | .err => s.viewErr off
    | .trv => s.viewTrv off
    | .sup => s.viewSup off
    | .fls => s.viewFls off
    | .tng => s.viewTng off
    | .prt | .cmd | .fnl | .srv | .stp => s.viewPart k n off
    | .sem => s.viewSem n off
    | .stk => s.viewStk n off
    | .grd | .wsk | .tray => s.viewCore k n off
    | .ldl => s.viewLdl n off
    | .skm => s.viewSkm n off
    | .siv => s.viewSiv n off
    | .mdl => s.viewMdl n off
    | .stn => if off = oSTN_STN_STATUS then serving (s.engineServes (pgSTN n) [opDETOKENIZE, opSTEP] none) else 0
    | .cut => if off = oCUT_CUT_STATUS then serving (s.engineServes (pgCUT n) [opSTEP] none) else 0
    | .hbm | .ddr => s.viewMem k n off
    | .arb => s.viewArb n off
    | .netp => s.viewPort n off
    | .netf => 0
    | .netb => if off = oNETB_CONN_USE then at_ s.contexts 0 16 else if off = oNETB_ITEM_USE then at_ s.net.items.length 0 17 else 0)

/-! ### The header's STATUS (R525) -/

/-- The unit of a page is held in reset, or its island is. -/
def State.unitReset (s : State) (k : PageKind) (n : Nat) : Bool :=
  [0, 1, 2, 3].any (fun q => (s.die q).inReset && onDiePage q k n) || [7, 8, 9].any (fun r => (s.rail r).down && onRailPage r k n)

/-- The unit of a page is enabled and in service. -/
def State.inService (s : State) (k : PageKind) (n : Nat) : Bool :=
  let ddr := fun (c : Nat) => (s.ddrFitted c).isSome && s.tiers.ddrTrained
  !(s.unitReset k n) && (match k with
    | .grd | .wsk | .tray => (s.core n).st = .enabled
    | .hbm => nth false s.tiers.hbmTrained n
    | .ddr => ddr n
    | .arb => if 8 ≤ n && n < 32 then ddr (n - 8) else true
    | .fls => s.flash.mapState ≠ 0
    | _ => true)

/-- Shadow words are kept by register and bank; those of the text slots by slot (R10, R265). -/
def slotShadowKey (page slot off : Nat) : Nat := 2 ^ 40 + (page * 1024 + slot) * 4 + (off - oMDL_SLOT_KIND) / 4

/-- A shadow word's register: page, offset, bank or slot. -/
def shadowName (key : Nat) : Nat × Nat × Nat :=
  if 2 ^ 40 ≤ key then ((key - 2 ^ 40) / 4096, oMDL_SLOT_KIND + 4 * (key % 4), (key - 2 ^ 40) / 4 % 1024)
  else (key / 0x20000, key % 0x20000 / 32, key % 32)

/-- The CM bits of a register in effect. -/
def State.cmWord (s : State) (k : PageKind) (page off bank : Nat) : Word :=
  if k = .mdl && oMDL_SLOT_KIND ≤ off && off ≤ oMDL_SLOT_PTR_HI then
    let x := s.text bank
    BitVec.ofNat 32 (if off = oMDL_SLOT_KIND then x.kind else if off = oMDL_SLOT_VERSION then x.version
      else if off = oMDL_SLOT_PTR_LO then x.ptr else x.ptr / 2 ^ 32)
  else match regRow? k off with
    | some r => s.stored page off bank &&& accMask r .cm
    | none => 0#32

/-- The pending changes of a page: register, bank and shadow word (R10). -/
def State.pendingCm (s : State) (page : Nat) : List (Nat × Nat × Word) :=
  match pageOf page with
  | none => []
  | some (k, _) =>
    s.shadow.filterMap (fun e =>
      let n := shadowName e.1
      if n.1 = page && e.2 ≠ s.cmWord k page n.2.1 n.2.2 then some (n.2.1, n.2.2, e.2) else none)

def State.statusWord (s : State) (k : PageKind) (n page : Nat) : Word :=
  let err := s.stored page oHDR_ERR_STATUS 0 &&& ~~~ (s.stored page oHDR_ERR_MASK 0)
  BitVec.ofNat 32 (8 * b2n (s.pendingCm page ≠ []) + 4 * b2n (err ≠ 0#32) + 2 * b2n (s.unitReset k n) + b2n (s.inService k n))

/-- The units that firmware components of KIND 3 and 4 run (R500, R524): tiling firmware the griddles' tile sequencers, engine microcode
the engines; the spec does not say which others. -/
def runByFirmware : PageKind → Bool
  | .grd | .wsk | .ldl | .skm | .siv | .mdl | .stn | .cut => true
  | _ => false

/-- PAGE_VER (R524). -/
def State.pageVer (s : State) (k : PageKind) : Word :=
  let ver := (s.start.components.filter (fun c => c.1 = 3 || c.1 = 4)).foldl (fun v c => v * 2 ^ 256 + beNat c.2) 1
  let code := if runByFirmware k && s.start.components ≠ [] then (Config.ucode (pageRange k).2.2 ver).toNat else 0
  BitVec.ofNat 32 (0xB1 * 2 ^ 24 + code)

end Sys2Proof.Machine
end

