-- ==== Sys2Proof/Machine/Access.lean ====
section
/-! DEFINITION. How a register access reaches a page (21): masters and windows (R494, R495, R530), reads and writes by access code (R6),
restrictions (R330, R444, R498, R515), commits (R10), and the rows of register access. -/

namespace Sys2Proof.Machine

/-! ### Masters and windows -/

/-- The master ID of R492. -/
def masterId : RegMaster → Nat
  | .mgmt => 0xF00
  | .i3c => 0xF02
  | .control c _ => 0x140 + c.val

/-- The partition a register access carries (R493). -/
def masterPart : RegMaster → Nat
  | .mgmt | .i3c => 0x1F
  | .control _ p => p.val

/-- The slot that an MDL page's SLOT_SEL names lies in the windows of partition p. -/
def State.inXslots (s : State) (p i : Nat) : Bool := within i 1 (s.part p).xslots.1 (s.part p).xslots.2

/-- The register windows of R495. Slot writes of an MDL page stay within XSLOTS: the slot that SLOT_SEL takes or names. -/
def State.regAllowed (s : State) (m : RegMaster) (k : PageKind) (n off : Nat) (wr : Option Word) : Bool :=
  match m with
  | .mgmt | .i3c => true
  | .control _ p =>
    (s.part p.val).windows && (match k with
      | .cmd | .fnl | .srv | .stp => n = p.val
      | .grd | .wsk | .tray => wr.isNone && (s.core n).owner = p.val
      | .sem => (s.part p.val).priv
      | .ldl | .skm | .siv | .stn | .cut => wr.isNone
      | .mdl => match wr with
        | none => true
        | some v =>
          if off = oMDL_SLOT_SEL then s.inXslots p.val (v.toNat % 1024)
          else (off = oHDR_SHADOW_COMMIT || (oMDL_SLOT_KIND ≤ off && off ≤ oMDL_SLOT_PTR_HI)) && s.inXslots p.val (s.field (pgMDL n) oMDL_SLOT_SEL 9 0)
      | _ => false)

/-- A register access denied (R497, R527): REG_FAULTS counts on a present page. DEDUCED (log entry 42). -/
def State.regDenied (s : State) (m : RegMaster) (page off : Nat) : State :=
  let s : State := match pageOf page with
    | some _ => s.hdrCount page oHDR_REG_FAULTS
    | none => s
  s.accessFault 6 (masterPart m) (masterId m) (regBase + page * 0x1000 + off) none

/-- What a register of a slot or semaphore directory addresses, where it is outside the partition's windows: target and number (R180,
R207, R240, R292). -/
def State.dirDenied (s : State) (m : RegMaster) (k : PageKind) (n off : Nat) : Option (Nat × Nat) :=
  match m with
  | .mgmt | .i3c => none
  | .control _ p =>
    let x := s.part p.val
    match k with
    | .ldl =>
      let i := s.field (pgLDL n) oLDL_SLOT_SEL 11 0
      if oLDL_SLOT_VERSION ≤ off && off ≤ oLDL_SLOT_USERS && !(within i 1 x.tslots.1 x.tslots.2) then some (4, i) else none
    | .skm =>
      let i := s.field (pgSKM n) oSKM_SLOT_SEL 7 0
      if oSKM_SLOT_VERSION ≤ off && off ≤ oSKM_SLOT_USERS && !(within i 1 x.islots.1 x.islots.2) then some (4, i) else none
    | .mdl =>
      let i := s.field (pgMDL n) oMDL_SLOT_SEL 9 0
      if oMDL_SLOT_KIND ≤ off && off ≤ oMDL_SLOT_USERS && !(s.inXslots p.val i) then some (4, i) else none
    | .sem => if oSEM_SEM_VALUE ≤ off && off ≤ oSEM_SEM_FLAGS && !(s.semInWindow p.val (s.semSel n)) then some (3, s.semSel n) else none
    | _ => none

/-- Such an access recorded (R180, R182, R497): one to a semaphore also counts at its store. -/
def State.dirFault (s : State) (m : RegMaster) (d : Nat × Nat) : State :=
  let s := if d.1 = 3 then s.semDenied d.2 (masterId m) none else s
  s.accessFault d.1 (masterPart m) (masterId m) d.2 none

/-! ### Reads -/

/-- A word read and its RC bits then cleared to their reset values (R6). -/
def State.readStored (s : State) (k : PageKind) (page off : Nat) (r : RegRow) : State × Word :=
  let w := s.current k page off
  let m := accMask r .rc
  if m = 0#32 then (s, w &&& storedMask r)
  else (s.setCurrent k page off ((w &&& ~~~ m) ||| (resetWord k off (s.bankOf k page off) &&& m)), w &&& storedMask r)

/-- A common-header register read (R523 to R527). -/
def State.readHeader (s : State) (k : PageKind) (n page off : Nat) : State × Word :=
  if off = oHDR_PAGE_ID then (s, BitVec.ofNat 32 ((pageRange k).2.2 * 2 ^ 16 + instanceOf k n * 2 ^ 8 + 1))
  else if off = oHDR_PAGE_VER then (s, s.pageVer k)
  else if off = oHDR_CAP_NEXT then (s, if k = .cap then 0x100#32 else 0#32)
  else if off = oHDR_PAGE_INDEX then (s, BitVec.ofNat 32 page)
  else if off = oHDR_STATUS then (s, s.statusWord k n page)
  else if off = oHDR_SHADOW_COMMIT then (s, 0#32)
  else if oHDR_EVENTS ≤ off && off ≤ oHDR_UE then (s.setStored page off 0 0#32, s.stored page off 0)
  else (s, s.stored page off 0)

/-- A block register read. While the unit is in reset, what the register hub does not hold reads 0 (R533). DEDUCED (log entries 86, 87). -/
def State.readBlock (s : State) (k : PageKind) (n page off : Nat) : State × Word :=
  match regRow? k off with
  | none =>
    if k = .cap && 0x100 ≤ off then (s, nth 0#32 s.capWords ((off - 0x100) / 4)) else (s, 0#32)
  | some r =>
    let s := if k = .rtc && off = oRTC_SEC_LO then s.secLatch else if k = .trv && off = oTRV_ENERGY_LO then s.energyLatchNow else s
    if s.unitReset k n then (s, (s.current k page off &&& storedMask r ||| s.viewWord k n off) &&& hubMask k off)
    else if k = .srv && off = oSRV_CHUNK && !((s.part n).chunkPriv) then (s, 0#32)
    else
      let x := s.readStored k page off r
      (x.1, x.2 ||| s.viewWord k n off)

/-- One register read by a master (R7, R522, R530 to R533). -/
def State.regRead (s : State) (m : RegMaster) (page off : Nat) : State × Word :=
  match pageOf page with
  | none => match m with
    | .mgmt | .i3c => (s, 0#32)
    | .control _ _ => (s.regDenied m page off, 0#32)
  | some (k, n) =>
    if !(s.regAllowed m k n off none) then (s.regDenied m page off, 0#32)
    else match s.dirDenied m k n off with
      | some d => (s.dirFault m d, 0#32)
      | none => if off < 0x40 then s.readHeader k n page off else s.readBlock k n page off

/-! ### Commits (R10) -/

/-- The check of R265 on a slot's new KIND and pointer: the failing OFFSET, or none. -/
def State.textSlotBad (s : State) (kind ptr : Nat) : Option Nat :=
  if kind = 0 then none
  else if kind = 3 then some 0xFE
  else if ptr % 64 ≠ 0 then some 0xFF
  else match zoneOf ptr with
    | .hbm | .ddr | .fls =>
      match s.readBytes 16 ptr 64 with
      | .error _ => some 0xFF
      | .ok b => if kind = 1 then trieBad b else grammarBad b
    | _ => some 0xFF

/-- SLOT_CHECK is one register that every MDL page shows. -/
def State.setSlotCheck (s : State) (w : Word) : State :=
  (List.range 8).foldl (fun s e => s.setStored (pgMDL e) oMDL_SLOT_CHECK 0 w) s

/-- Slot i changes to what a commit on engine e's page gives it, or the failure is recorded (R265, R294). Answers whether it changed. DEDUCED (log entry 87). -/
def State.commitTextSlot (s : State) (e i : Nat) (ws : List (Nat × Word)) : State × Bool :=
  let x := s.text i
  let get := fun (off d : Nat) => match ws.find? (fun w => w.1 = off) with | some w => w.2.toNat | none => d
  let kind := get oMDL_SLOT_KIND x.kind
  let ptr := get oMDL_SLOT_PTR_LO (x.ptr % 2 ^ 32) + 2 ^ 32 * get oMDL_SLOT_PTR_HI (x.ptr / 2 ^ 32)
  match s.textSlotBad kind ptr with
  | none => (s.setText i ⟨kind, get oMDL_SLOT_VERSION x.version, ptr⟩, true)
  | some off =>
    ((s.setSlotCheck (BitVec.ofNat 32 (2 ^ 31 + off % 256 * 2 ^ 16 + i % 1024))).flagEvent (pgMDL e) 3 2 (i % 1024 + off % 256 * 2 ^ 16) none, false)

/-- Numbers of a list, each once, in order of first appearance. -/
def distinct (l : List Nat) : List Nat := l.foldl (fun r n => if r.contains n then r else r ++ [n]) []

/-- The slots with pending changes on an MDL page, committed. DEDUCED (log entry 87). -/
def State.commitSlots (s : State) (e : Nat) (ps : List (Nat × Nat × Word)) : State :=
  let slots := distinct (ps.map (fun c => c.2.1))
  let r := slots.foldl (fun (a : State × Bool) i =>
    let b := a.1.commitTextSlot e i ((ps.filter (fun c => c.2.1 = i)).map (fun c => (c.1, c.2.2)))
    (b.1, a.2 || b.2)) (s, false)
  if r.2 then r.1.hdrCount (pgMDL e) oHDR_COMMITS else r.1

/-- Every pending field of a page takes its shadow value at once. -/
def State.applyCm (s : State) (k : PageKind) (page : Nat) (ps : List (Nat × Nat × Word)) : State :=
  ps.foldl (fun s c => match regRow? k c.1 with
    | some r => s.setStored page c.1 c.2.1 ((s.stored page c.1 c.2.1 &&& ~~~ (accMask r .cm)) ||| c.2.2)
    | none => s) s

/-- A commit of MODE (R415): the port's islands retrain, so its links go down. -/
def State.portRetrain (s : State) (p : Nat) : State := (List.range 4).foldl (fun s i => s.linkFall (4 * p + i)) s

/-- What home chapters tie to a commit that applied changes to registers `offs`. DEDUCED (log entry 87). -/
def State.commitAction (s : State) (k : PageKind) (n : Nat) (offs : List Nat) (before : State) : State :=
  match k with
  | .fnl => if offs.contains oFNL_FNL_CFG then s.commitStreamList n else s
  | .trv => if offs.contains oTRV_DIE_VSET then (List.range 4).foldl (fun s q => s.applySetpoint q) s else s
  | .prt => s.noteOversub before
  | .netp => if s.portMode n = before.portMode n then s else s.portRetrain n
  | _ => s

/-- SHADOW_COMMIT of a page written with 1 (R10). -/
def State.commitPage (s : State) (page : Nat) : State :=
  match pageOf page with
  | none => s
  | some (k, n) =>
    let ps := s.pendingCm page
    if ps = [] then s
    else
      let s : State := { s with shadow := s.shadow.filter (fun e => (shadowName e.1).1 ≠ page) }
      if k = .mdl then s.commitSlots n ps
      else
        ((s.applyCm k page ps).hdrCount page oHDR_COMMITS).commitAction k n (ps.map (·.1)) s

/-! ### Writes -/

/-- CM bits of a write go to the shadow (R10). -/
def State.writeShadow (s : State) (k : PageKind) (page off : Nat) (r : RegRow) (v : Word) : State :=
  if k = .mdl && oMDL_SLOT_KIND ≤ off && off ≤ oMDL_SLOT_PTR_HI then
    let i := s.field page oMDL_SLOT_SEL 9 0
    let w := if off = oMDL_SLOT_KIND then v &&& 3#32 else v
    let key := slotShadowKey page i off
    { s with shadow := if w = s.cmWord k page off i then tabDrop s.shadow key else tabSet s.shadow key w }
  else
    let m := accMask r .cm
    if m = 0#32 then s
    else
      let b := if bankMask k off &&& m = 0#32 then 0 else s.bankOf k page off
      let key := regKey page off b
      let w := v &&& m
      { s with shadow := if w = s.cmWord k page off b then tabDrop s.shadow key else tabSet s.shadow key w }

/-- The griddle counters of core c cleared (R78). -/
def State.clearSteps (s : State) (c : Nat) : State :=
  (List.range 8).foldl (fun s i => s.setStored (pgGRD c) (oGRD_G_STEPS0 + 4 * i) 0 0#32) s

/-- The six header counters of a page cleared (R525). -/
def State.clearHeader (s : State) (page : Nat) : State :=
  (List.range 6).foldl (fun s i => s.setStored page (oHDR_EVENTS + 4 * i) 0 0#32) s

/-- What a block register's write sets off, beyond the fields it stores. DEDUCED (log entries 78, 86). -/
def State.regAction (s : State) (k : PageKind) (n off : Nat) (v : Word) : State :=
  let b := fun (i : Nat) => bit v.toNat i
  match k with
  | .cmd => if off = oCMD_CANCEL_CTRL && b 0 then s.cancelTag n else s
  | .srv =>
    if off = oSRV_HANDLE_CTRL && b 0 then s.handleDrop n
    else if off = oSRV_SRV_CTRL then (if b 0 then s.serveOn n else s.serveOff n)
    else s
  | .prt => if off = oPRT_PRT_CTRL && b 0 then s.prtGo n (s.field (pgPRT n) oPRT_PRT_CTRL 2 1) (s.field (pgPRT n) oPRT_PRT_CTRL 8 4) else s
  | .mgt =>
    if off = oMGT_SVN_CTRL && b 0 then s.svnCommit
    else if off = oMGT_DEBUG_CTRL && b 0 then s.debugOpen
    else s
  | .sec =>
    if oSEC_KEY_W0 ≤ off && off ≤ oSEC_KEY_W7 then
      { s with sec := { s.sec with keyWords := setNth 0#32 s.sec.keyWords ((off - oSEC_KEY_W0) / 4) v } }
    else if off = oSEC_KEY_CTRL then
      let s := if b 0 then s.keyLoad else s
      let s := if b 1 then s.keyLock else s
      if b 2 then s.keyClear else s
    else if off = oSEC_ATT_CTRL && b 0 then s.attGo
    else if off = oSEC_EXTEND_CTRL && b 0 then s.extendM7
    else s
  | .rtc => if off = oRTC_RTC_CTRL && b 0 then s.calendarSet else s
  | .fls =>
    if off = oFLS_FLS_CTRL then
      let s := if b 0 then s.flashFlush else s
      let s := if b 1 then s.flashShutdown else s
      if b 2 then s.flashFormat else s
    else s
  | .grd => if off = oGRD_GRD_CTRL && b 1 then s.clearSteps n else s
  | .arb => if off = oARB_PORT_CTRL && b 0 then s.portRestore n else s
  | .sem =>
    if off = oSEM_SEM_VALUE then s.semSet (s.semSel n) v.toNat
    else if off = oSEM_SEM_FLAGS then
      let x := s.sem (s.semSel n)
      s.setSem (s.semSel n) { x with satHi := x.satHi && !(b 1), satLo := x.satLo && !(b 0) }
    else s
  | _ => s

/-- Whether a write is held off by a rule of the register's own: CHUNK without its privilege (R330), DEVICE_ID and FAB_PREFIX while a partition is not FREE (R444, R452). -/
def State.writeHeld (s : State) (k : PageKind) (n off : Nat) : Bool :=
  match k with
  | .srv => off = oSRV_CHUNK && !((s.part n).chunkPriv)
  | .netb => (off = oNETB_DEVICE_ID || off = oNETB_FAB_PREFIX_LO || off = oNETB_FAB_PREFIX_HI) && partIds.any (fun p => (s.part p).nonFree)
  | _ => false

/-- Whether a register takes writes from I3C only (R498, R515). DEDUCED (log entry 42). -/
def i3cOnly (k : PageKind) (off : Nat) : Bool :=
  match k with
  | .sec => oSEC_KEY_SEL ≤ off && off ≤ oSEC_KEY_CTRL
  | .mgt => off = oMGT_SVN_CTRL || off = oMGT_DEBUG_CTRL
  | _ => false

/-- A common-header register written (R525, R526). -/
def State.writeHeader (s : State) (k : PageKind) (page off : Nat) (v : Word) : State :=
  if off = oHDR_CONTROL then
    let s := s.setStored page off 0 (v &&& 3#32)
    if bit v.toNat 2 then s.clearHeader page else s
  else if off = oHDR_ERR_STATUS then s.setStored page off 0 (s.stored page off 0 &&& ~~~ v)
  else if off = oHDR_ERR_MASK || off = oHDR_EVENT_EN then s.setStored page off 0 (v &&& errMask k)
  else if off = oHDR_SHADOW_COMMIT && bit v.toNat 0 then s.commitPage page
  else s

/-- A block register written (R6). DEDUCED (log entry 86). -/
def State.writeBlock (s : State) (k : PageKind) (n page off : Nat) (v : Word) : State :=
  match regRow? k off with
  | none => s
  | some r =>
    if s.writeHeld k n off then s
    else
      let rw := accMask r .rw ||| accMask r .w1s
      let keep := if accMask r .w1s = 0#32 then v &&& rw else (v ||| (s.current k page off &&& accMask r .w1s)) &&& rw
      let s := if rw = 0#32 then s else s.setCurrent k page off ((s.current k page off &&& ~~~ rw) ||| keep)
      let s := s.writeShadow k page off r v
      if s.unitReset k n then (if (rowMask r (fun _ => true)) &&& ~~~ (hubMask k off) = 0#32 then s else s.hdrCount page oHDR_REG_FAULTS)
      else
        let w1c := accMask r .w1c
        let s := if v &&& w1c = 0#32 then s
          else
            let w := s.current k page off &&& ~~~ (v &&& w1c)
            if k = .mdl then s.setSlotCheck w else s.setCurrent k page off w
        s.regAction k n off v

/-- One register written by a master (R7, R522, R530 to R533). DEDUCED (log entry 42). -/
def State.regWrite (s : State) (m : RegMaster) (page off : Nat) (v : Word) : State :=
  match pageOf page with
  | none => match m with
    | .mgmt | .i3c => s
    | .control _ _ => s.regDenied m page off
  | some (k, n) =>
    if !(s.regAllowed m k n off (some v)) || (m ≠ .i3c && i3cOnly k off) then s.regDenied m page off
    else match s.dirDenied m k n off with
      | some d => s.dirFault m d
      | none => if off < 0x40 then s.writeHeader k page off v else s.writeBlock k n page off v

/-! ### Which masters are heard (R502, R533, R550) -/

/-- Whether a master's access to a page is heard. -/
def State.heard (s : State) (m : RegMaster) (page : Nat) : Bool :=
  match m with
  | .i3c => s.i3cAnswers page
  | _ => s.alive && !s.start.halted && 2 ≤ s.start.stage

/-! ### Rows -/

/-- REGISTER_WRITE (R6, R7, R530, R531): one aligned word. -/
def execRegisterWrite (m : RegMaster) (page off : Nat) (v : Word) (s : State) : Host.Outcome State Fault Refusal :=
  if s.heard m page && off % 4 = 0 && off < 0x1000 && page < 0x580 then done (s.regWrite m page off v) else done s

/-- SHADOW_COMMIT (R10). -/
def execShadowCommit (page : Nat) (s : State) : Host.Outcome State Fault Refusal := onPage s page (done (s.commitPage page))

/-- STREAM_LIST_COMMIT (R363): a commit of partition p's FNL page. -/
def execStreamListCommit (p : Fin 16) (s : State) : Host.Outcome State Fault Refusal :=
  onPage s (pgFNL p.val) (done (s.commitPage (pgFNL p.val)))

/-- PORT_MODE_COMMIT (R415): a commit of a port's page. -/
def execPortModeCommit (port : Fin 8) (s : State) : Host.Outcome State Fault Refusal :=
  onPage s (pgPORT port.val) (done (s.commitPage (pgPORT port.val)))

/-- TEXT_SLOT_COMMIT (R265): a commit of an MDL page. -/
def execTextSlotCommit (engine : Fin 8) (s : State) : Host.Outcome State Fault Refusal :=
  onPage s (pgMDL engine.val) (done (s.commitPage (pgMDL engine.val)))

/-- COUNTER_CLEAR (R78). -/
def execCounterClear (core : Fin 208) (s : State) : Host.Outcome State Fault Refusal :=
  onPage s (pgGRD core.val) (if (s.die (core.val / 52)).inReset then done s else done (s.clearSteps core.val))

/-- HEADER_COUNTER_CLEAR (R525). -/
def execHeaderCounterClear (page : Nat) (s : State) : Host.Outcome State Fault Refusal :=
  onPage s page (done (match pageOf page with | some _ => s.clearHeader page | none => s))

/-! ### I3C (R534) -/

/-- I3C_ENTDAA: the dynamic address is taken. -/
def execI3cEntdaa (addr : BitVec 7) (s : State) : Host.Outcome State Fault Refusal :=
  done (if s.alive then { s with i3cAddr := some addr } else s)

/-- Consecutive words written over I3C, in ascending order. -/
def i3cWrites (page : Nat) : Nat → List Byte → State → State
  | _, [], s => s
  | off, b0 :: b1 :: b2 :: b3 :: t, s =>
    i3cWrites page (off + 4) t (s.regWrite .i3c page off (BitVec.ofNat 32 (leNat [b0, b1, b2, b3])))
  | _, _, s => s

/-- Whether n words from an address are aligned, in the register space and in one page (R531). -/
def regSpan (a n : Nat) : Bool :=
  a % 4 = 0 && regBase ≤ a && a < regBase + 0x580 * 0x1000 && a % 0x1000 + 4 * n ≤ 0x1000

/-- I3C_PRIVATE_WRITE: an address and up to 64 words; a transfer that breaks R531, or that no page answers, is refused. -/
def execI3cPrivateWrite (bytes : List Byte) (s : State) : Host.Outcome State Fault Refusal :=
  let a := fld bytes 0 8
  let data := bytes.drop 8
  if !(s.alive) || s.i3cAddr.isNone then done s
  else if bytes.length < 8 || data.length % 4 ≠ 0 || 256 < data.length || !(regSpan a (data.length / 4)) || !(s.i3cAnswers ((a - regBase) / 0x1000))
  then done (s.send .i3cNack)
  else done (i3cWrites ((a - regBase) / 0x1000) (a % 0x1000) data { s with i3cPtr := a })

/-- n consecutive words read. -/
def State.readWords (s : State) (m : RegMaster) (page : Nat) : Nat → Nat → State × List Word
  | _, 0 => (s, [])
  | off, n + 1 =>
    let r := s.regRead m page off
    let t := r.1.readWords m page (off + 4) n
    (t.1, r.2 :: t.2)

/-- I3C_PRIVATE_READ: up to 64 words from the address set by the write before. -/
def execI3cPrivateRead (words : Nat) (s : State) : Host.Outcome State Fault Refusal :=
  let a := s.i3cPtr
  if !(s.alive) || s.i3cAddr.isNone then done s
  else if 64 < words || !(regSpan a words) || !(s.i3cAnswers ((a - regBase) / 0x1000)) then done (s.send .i3cNack)
  else
    let r := s.readWords .i3c ((a - regBase) / 0x1000) (a % 0x1000) words
    done (r.1.send (.i3cData r.2))

end Sys2Proof.Machine
end

