-- ==== Sys2Proof/Machine/Network.lean ====
section
/-! DEFINITION. The Ethernet ports and the front network (17): links, the frames a sub-port answers itself, stray frames, and RoCEv2 as
responder and requester (R417 to R427). -/

namespace Sys2Proof.Machine

/-! ### Links (R415 to R417) -/

/-- The lanes of a sub-port in its mode, and the lane sets that it can run on, widest first. -/
def subLanes (mode i : Nat) : List Nat :=
  if mode = 1 then [2 * i, 2 * i + 1] else if mode = 2 then [i] else [0, 1, 2, 3]

def laneSets (ls : List Nat) : List (List Nat) :=
  if ls.length = 4 then [ls, [0, 1], [2, 3], [0], [1], [2], [3]] else if ls.length = 2 then ls :: ls.map (fun l => [l]) else [ls]

/-- The widest lane set of sub-port i without a retired lane (R416). -/
def State.goodLanes (s : State) (i : Nat) : Option (List Nat) :=
  let p := i / 4
  let bad := tabGet [] s.net.lanesBad p
  (laneSets (subLanes (s.portMode p) (i % 4))).find? (fun ls => ls.all (fun l => !(bad.contains l)))

/-- LINK_UP (R415, R417): a sub-port of its port's mode, with lanes left, a clock and power. DEDUCED (log entry 88). -/
def execLinkUp (sub : Fin 32) (s : State) : Host.Outcome State Fault Refusal :=
  let i := sub.val
  let x := s.sub i
  if x.up || !(s.alive) || s.start.halted || s.start.stage < 2 || modeSubs (s.portMode (i / 4)) ≤ i % 4 || (s.rail 9).down
      || s.start.clocksLost.contains (if i < 16 then 1 else 2) then done s
  else match s.goodLanes i with
    | none => done s
    | some ls => done ((s.setSub i { x with up := true, lanes := ls.length }).flagEvent (pgPORT (i / 4)) 1 1 (i + 2 ^ 8) none)

/-- LINK_DOWN (R417). -/
def execLinkDown (sub : Fin 32) (s : State) : Host.Outcome State Fault Refusal := done (s.linkFall sub.val)

/-! ### Addresses (R419) -/

/-- Address j of the front engine page, where it is in use: 0 IPv4 in 32 bits, 1 to 4 IPv6. -/
def State.frontAddr (s : State) (j : Nat) : Option Nat :=
  if s.bankField pgFRONT oNETF_ADDR_SEL j 31 31 = 0 then none
  else
    let w := fun (o : Nat) => s.bankField pgFRONT o j 31 0
    some (if j = 0 then w oNETF_ADDR_W3
      else ((w oNETF_ADDR_W0 * 2 ^ 32 + w oNETF_ADDR_W1) * 2 ^ 32 + w oNETF_ADDR_W2) * 2 ^ 32 + w oNETF_ADDR_W3)

/-- The back address: the prefix, then the interface identifier that ends in DEVICE_ID. -/
def State.backAddr (s : State) : Option Nat :=
  if s.deviceId = 0xFFFF then none
  else some ((s.field pgFABRIC oNETB_FAB_PREFIX_HI 31 0 * 2 ^ 32 + s.field pgFABRIC oNETB_FAB_PREFIX_LO 31 0) * 2 ^ 64 + s.deviceId)

def State.ownV4 (s : State) (sub a : Nat) : Bool := sub < 16 && s.frontAddr 0 = some a

def State.ownV6 (s : State) (sub a : Nat) : Bool :=
  if sub < 16 then [1, 2, 3, 4].any (fun j => s.frontAddr j = some a) else s.backAddr = some a

/-- The front address of a datagram's far end. -/
def State.ownFront (s : State) (v6 : Bool) (a : Nat) : Bool := if v6 then s.ownV6 0 a else s.ownV4 0 a

/-! ### Frames a sub-port answers (R418) -/

/-- Whether a sub-port takes frames now. -/
def State.linked (s : State) (i : Nat) : Bool := s.alive && !s.start.halted && (s.sub i).up

/-- An answer that a sub-port sends itself. -/
def State.answer (s : State) (i : Nat) (t : Tx) : State := ((s.rxFrame i false).txFrames i 1).send t

/-- Whether a neighbour solicitation for an address reaches one of the sub-port's solicited-node groups, which its last 24 bits name. -/
def State.solicited (s : State) (i a : Nat) : Bool :=
  if i < 16 then [1, 2, 3, 4].any (fun j => (s.frontAddr j).any (fun b => b % 2 ^ 24 = a % 2 ^ 24))
  else s.backAddr.any (fun b => b % 2 ^ 24 = a % 2 ^ 24)

/-- ARP_REQUEST: a broadcast is taken; one for an own address is answered. DEDUCED (log entry 80). -/
def execArpRequest (sub : Fin 32) (q : ArpQuery) (s : State) : Host.Outcome State Fault Refusal :=
  let i := sub.val
  if s.linked i && s.ownV4 i q.targetIp.toNat then done (s.answer i (.arpReply i (BitVec.ofNat 48 (s.macOf i)) q.targetIp))
  else if s.linked i then done (s.rxFrame i false)
  else done s

/-- NEIGHBOR_SOLICITATION: answered for an own address; one to a group that is not the sub-port's is dropped. DEDUCED (log entry 80). -/
def execNeighborSolicitation (sub : Fin 32) (q : NsQuery) (s : State) : Host.Outcome State Fault Refusal :=
  let i := sub.val
  if s.linked i && s.ownV6 i q.target.toNat then done (s.answer i (.neighborAdvert i q.target))
  else if s.linked i then done (if s.solicited i q.target.toNat then s.rxFrame i false else s.count (pgPORT (i / 4)) oNETP_RX_DROP 1)
  else done s

/-- ICMP_ECHO: answered for an own address. DEDUCED (log entry 80). -/
def execIcmpEcho (sub : Fin 32) (q : EchoQuery) (s : State) : Host.Outcome State Fault Refusal :=
  let i := sub.val
  let own := if q.v6 then s.ownV6 i q.dst.toNat else s.ownV4 i q.dst.toNat
  if s.linked i && own then done (s.answer i (.echoReply i q.v6 q.src q.payload))
  else if s.linked i then done (s.rxFrame i false)
  else done s

/-- PFC_FRAME (R427): a front port honours it for PFC_PRIO; zero quanta end the pause. DEDUCED (log entry 80). DESIGN CHOICE (log entry 98). -/
def execPfcFrame (port : Fin 8) (prio : Fin 8) (quanta : Half) (s : State) : Host.Outcome State Fault Refusal :=
  let p := port.val
  if p < 4 && s.alive && s.field (pgPORT p) oNETP_PORT_CFG 3 3 = 1 && s.field (pgPORT p) oNETP_PORT_CFG 6 4 = prio.val then
    done ((List.range 4).foldl (fun (s : State) i =>
      let x := s.sub (4 * p + i)
      if x.up then s.setSub (4 * p + i) { x with paused := decide (quanta ≠ 0#16) } else s) s)
  else done s

/-! ### Queue pairs (R422) -/

/-- The partition of a queue pair that takes packets: of a non-FREE partition, and in RTS. -/
def State.qpLive (s : State) (qp : Nat) : Option Nat := if (s.qp qp).state = 1 then s.qpPart qp else none

def State.strayPacket (s : State) : State := s.count pgFRONT oNETF_STRAY 1

def Qp.setCtx (x : Qp) (off n v : Nat) : Qp := { x with ctx := patch (padTo 64 x.ctx) off (beBytes n v) }

def Qp.expected (x : Qp) : Nat := fldBe x.ctx 0x0C 4 % 2 ^ 24

/-- Packets of n bytes on a queue pair. -/
def Qp.packets (x : Qp) (n : Nat) : Nat := max 1 (ceilDiv n (max 1 x.mtu))

/-- A queue pair enters ERROR (R421 to R426): counted, and QP_ERROR raised with the NAK's syndrome, or 0xFF for spent retries. -/
def State.qpError (s : State) (qp syndrome : Nat) : State :=
  ((s.setQp qp ((s.qp qp).setCtx 0 1 2)).count pgFRONT oNETF_QP_ERRORS 1).flagEvent pgFRONT 0 1 (qp % 4096 + syndrome % 256 * 2 ^ 16) none

/-- A NAK that takes the queue pair to ERROR. -/
def State.nakError (s : State) (qp psn syndrome : Nat) : State :=
  (s.qpFrames qp 1 (.roceAck qp psn syndrome)).qpError qp syndrome

/-- Syndromes of the InfiniBand NAK codes: PSN sequence error, invalid request, remote access error, remote operational error; RNR NAK. -/
def nakSequence : Nat := 0x60
/-- DEDUCED (log entry 79). -/
def nakInvalid : Nat := 0x61
def nakAccess : Nat := 0x62
def nakOperational : Nat := 0x63
/-- DEDUCED (log entry 79). -/
def nakRnr : Nat := 0x20

/-- A CNP for a CE-marked packet (R427): at most one in 50 µs; whether 50 µs have passed since one sent in this strobe period or the
last is open. DEDUCED (log entry 79). -/
def State.sendCnp (s : State) (qp : Nat) : State :=
  let x := s.qp qp
  let near := match x.cnpStrobe with | some t => s.strobes ≤ t + 1 | none => false
  if near && s.choose (0xC0 + qp) 2 = 0 then s
  else ((s.setQp qp { x with cnpStrobe := some s.strobes }).count pgFRONT oNETF_CNP_SENT 1).qpFrames qp 1 (.cnp qp)

/-- Where a request stands among those of its queue pair: next, a duplicate, or ahead of a lost one. -/
def Qp.order (x : Qp) (psn : Nat) : Nat :=
  let d := (psn + 2 ^ 24 - x.expected) % 2 ^ 24
  if d = 0 then 0 else if 2 ^ 23 ≤ d then 1 else 2

/-- A request taken: the expected PSN moves past its n packets. -/
def State.qpAdvance (s : State) (qp n : Nat) : State :=
  let x := s.qp qp
  s.setQp qp (x.setCtx 0x0C 4 ((x.expected + n) % 2 ^ 24))

/-- A request of n packets arrives on a queue pair. `act` meets the next one, `again` a duplicate. -/
def State.respond (s : State) (qp psn n : Nat) (ce : Bool) (act again : State → Nat → State) : State :=
  if !(s.linked (s.qp qp).subport) then s
  else match s.qpLive qp with
    | none => s.strayPacket
    | some p =>
      let s := s.rxFrame (s.qp qp).subport ce
      let s := s.count (pgPORT ((s.qp qp).subport / 4)) oNETP_RX_FRAMES (n - 1)
      let s := if ce then s.sendCnp qp else s
      match (s.qp qp).order psn with
      | 0 => act s p
      | 1 => again s p
      | _ => s.qpFrames qp 1 (.roceAck qp (s.qp qp).expected nakSequence)

/-- The last PSN of a request. -/
def lastPsn (psn n : Nat) : Nat := (psn + n - 1) % 2 ^ 24

/-- A duplicate that has no effect is acknowledged again. -/
def ackAgain (qp psn n : Nat) (s : State) (_ : Nat) : State := s.qpFrames qp 1 (.roceAck qp (lastPsn psn n) 0)

/-- A request taken and acknowledged. -/
def State.taken (s : State) (qp psn n : Nat) : State := (s.qpAdvance qp n).qpFrames qp 1 (.roceAck qp (lastPsn psn n) 0)

/-! ### SEND (R424, R137) -/

/-- The intake cannot take a capsule now: its sender is told to try again. -/
def State.intakeFull (s : State) (p : Nat) (b : List Byte) : Bool :=
  !(s.takes p) || s.listWaits p || (if hIsList (hdrOf b) then 64 ≤ (s.listsOf p).length else !(s.room p))

/-- DEDUCED (log entry 79). -/
def execSendCapsule (qp : Fin 4096) (psn : BitVec 24) (ce : Bool) (bytes : List Byte) (s : State) : Host.Outcome State Fault Refusal :=
  let i := qp.val
  let n := (s.qp i).packets bytes.length
  done (s.respond i psn.toNat n ce (fun s p =>
    if bytes.length < 64 || 4096 < bytes.length then s.nakError i psn.toNat nakInvalid
    else if s.intakeFull p bytes then
      (s.count pgFRONT oNETF_RNR_NAKS 1).qpFrames i 1 (.roceAck i psn.toNat nakRnr)
    else (s.taken i psn.toNat n).acceptBytes p bytes false) (ackAgain i psn.toNat n))

/-! ### RDMA WRITE and READ (R423, R150, R479) -/

/-- Whether an address is one that RDMA can name: the tiered range, or the raw range for a privileged partition. -/
def State.rdmaWindow (s : State) (p : Nat) (wr : Bool) (a n : Nat) : Bool :=
  match zoneOf a with
  | .hbm | .ddr | .fls => s.inWindow p wr a n
  | .rawHbm => s.inRawWindow p a n
  | _ => false

/-- A denied RDMA access: recorded (R497), answered with Remote Access Error. -/
def State.rdmaDenied (s : State) (qp psn p a : Nat) : State := (s.accessFault (targetOf a) p 0x180 a none).nakError qp psn nakAccess

/-- RDMA and management accesses to the flash zone wait until the map is ready, or until it is known that there will be none (R398). DEDUCED (log entry 21). -/
def State.flashWaits (s : State) (a : Nat) : Bool :=
  zoneOf a = .fls && s.flash.mapState ≠ 3 && !(s.flash.mapState = 0 && s.start.flashDone)

/-- Pending spans that [a, a + n) meets are left undefined at their commits (R150), those of a command that was killed and will issue again
(R154) or that a context switch carries (R340) among them. DEDUCED (log entry 27). -/
def State.spoil (s : State) (a n : Nat) : State :=
  { s with cmds := s.cmds.map (fun c =>
      let hit := c.spans.filter (fun r => overlaps r (a, a + n) && !(c.spoiled.contains r))
      if c.phase ≠ .ended && hit ≠ [] then { c with spoiled := c.spoiled ++ hit } else c) }

/-- The consumed count of partition p's host ring as just written (R160). -/
def State.takeCount (s : State) (p : Nat) : State :=
  let x := s.part p
  let v := s.readN p x.hostCountAddr 4
  if (v + 2 ^ 32 - x.ring.consumed) % 2 ^ 32 ≤ x.ringUsed then
    ((s.setPart p { x with ring := { x.ring with consumed := v } }).drainRing p).releaseGoOn p
  else s.setErr (pgCMD p) 3

/-- Bytes placed by RDMA WRITE. -/
def State.rdmaPlace (s : State) (p a : Nat) (bs : List Byte) : State :=
  let s := ((s.writeZ p a bs).spoil a bs.length).cloudOver none (fun _ => false) [(a, a + bs.length)]
  let c := (s.part p).hostCountAddr
  if bs ≠ [] && overlaps (a, a + bs.length) (c, c + 4) then s.takeCount p else s

def execRoceRdmaWrite (qp : Fin 4096) (psn : BitVec 24) (ce : Bool) (rkey : Word) (va : Dword) (data : List Byte) (s : State) :
    Host.Outcome State Fault Refusal :=
  let i := qp.val
  let a := va.toNat
  let n := (s.qp i).packets data.length
  if s.flashWaits a then done s
  else done (s.respond i psn.toNat n ce (fun s p =>
    if 2 ^ 31 < data.length then s.nakError i psn.toNat nakInvalid
    else if fldBe (s.qp i).ctx 0x10 4 ≠ rkey.toNat then s.nakError i psn.toNat nakAccess
    else if data ≠ [] && !(s.rdmaWindow p true a data.length) then s.rdmaDenied i psn.toNat p a
    else match s.writeFor p none a data with
      | .error (.access _) => s.rdmaDenied i psn.toNat p a
      | .error (.data _) => s.nakError i psn.toNat nakOperational
      | .ok _ => (s.taken i psn.toNat n).rdmaPlace p a data) (ackAgain i psn.toNat n))

/-- Reads of a partition's pages are read references: hits and misses count, and demand fills start (R358, R366). DEDUCED (log entry 53). -/
def State.refPages (s : State) (p a n : Nat) : State := (pagesOf a n).foldl (fun s e => (s.readRef p e.1 e.2).1) s

/-- The answer to an RDMA READ, the first time and again. DEDUCED (log entry 79). -/
def State.rdmaRead (s : State) (qp psn p a len : Nat) (rkey : Word) (first : Bool) : State :=
  if 2 ^ 31 < len then s.nakError qp psn nakInvalid
  else if fldBe (s.qp qp).ctx 0x10 4 ≠ rkey.toNat then s.nakError qp psn nakAccess
  else if len ≠ 0 && !(s.rdmaWindow p false a len) then s.rdmaDenied qp psn p a
  else match s.readBytes p a len with
    | .error (.access _) => s.rdmaDenied qp psn p a
    | .error (.data _) => s.nakError qp psn nakOperational
    | .ok bs =>
      let n := (s.qp qp).packets len
      let s := s.refPages p a len
      let s := if first then s.qpAdvance qp n else s
      s.qpFrames qp n (.readResponse qp psn bs)

def execRoceRdmaRead (qp : Fin 4096) (psn : BitVec 24) (ce : Bool) (rkey : Word) (va : Dword) (len : Word) (s : State) :
    Host.Outcome State Fault Refusal :=
  let i := qp.val
  let a := va.toNat
  if s.flashWaits a then done s
  else done (s.respond i psn.toNat 1 ce (fun s p => s.rdmaRead i psn.toNat p a len.toNat rkey true)
    (fun s p => s.rdmaRead i psn.toNat p a len.toNat rkey false))

/-- INVALID_REQUEST (R421). -/
def execInvalidRequest (qp : Fin 4096) (psn : BitVec 24) (s : State) : Host.Outcome State Fault Refusal :=
  let i := qp.val
  if !(s.linked (s.qp i).subport) then done s
  else match s.qpLive i with
    | none => done s.strayPacket
    | some _ => done ((s.rxFrame (s.qp i).subport false).nakError i psn.toNat nakInvalid)

/-! ### The requester (R425, R426) -/

/-- Messages not acknowledged, sent again. -/
def State.resendQp (s : State) (qp : Nat) : State :=
  (s.qp qp).unacked.foldl (fun s m =>
    s.qpFrames qp ((s.qp qp).packets m.2.2.length) (.rdmaWrite qp m.1 m.2.1 m.2.2)) s

/-- Messages whose last packet's PSN is not after `psn` are acknowledged, and the retry counts start again. -/
def State.qpAcked (s : State) (qp psn : Nat) : State :=
  let x := s.qp qp
  let covered := fun (m : Nat × Nat × List Byte) => (psn + 2 ^ 24 - lastPsn m.1 (x.packets m.2.2.length)) % 2 ^ 24 < 2 ^ 23
  if x.unacked.any covered then s.setQp qp { x with unacked := x.unacked.filter (fun m => !(covered m)), retries := 0, rnr := 0 } else s

/-- A packet for a queue pair's requester. -/
def State.onRequester (s : State) (qp : Nat) (act : State → State) : State :=
  if !(s.linked (s.qp qp).subport) then s
  else match s.qpLive qp with
    | none => s.strayPacket
    | some _ => act (s.rxFrame (s.qp qp).subport false)

def execRoceAck (qp : Fin 4096) (psn : BitVec 24) (nak : Option (BitVec 5)) (s : State) : Host.Outcome State Fault Refusal :=
  let i := qp.val
  done (s.onRequester i (fun s =>
    match nak with
    | none => s.qpAcked i psn.toNat
    | some c =>
      let s := s.qpAcked i ((psn.toNat + 2 ^ 24 - 1) % 2 ^ 24)
      if c = 0#5 then s.resendQp i else s.qpError i (0x60 + c.toNat)))

def execRoceRnrNak (qp : Fin 4096) (psn : BitVec 24) (s : State) : Host.Outcome State Fault Refusal :=
  let i := qp.val
  done (s.onRequester i (fun s =>
    let s := s.qpAcked i ((psn.toNat + 2 ^ 24 - 1) % 2 ^ 24)
    let x := s.qp i
    let limit := fldBe x.ctx 0x16 1
    if x.unacked = [] then s
    else if limit < 7 && limit ≤ x.rnr then s.qpError i 0xFF
    else (s.setQp i { x with rnr := x.rnr + 1 }).resendQp i))

/-- ROCE_ACK_TIMEOUT: TIMEOUT has passed without an acknowledgement of the oldest message. -/
def execRoceAckTimeout (qp : Fin 4096) (s : State) : Host.Outcome State Fault Refusal :=
  let i := qp.val
  let x := s.qp i
  if x.unacked = [] || (s.qpLive i).isNone then done s
  else if fldBe x.ctx 0x15 1 ≤ x.retries then done (s.qpError i 0xFF)
  else done ((s.setQp i { x with retries := x.retries + 1 }).resendQp i)

/-- CNP_RECEIVED (R427, R442): counted; on a queue pair that carries records the sending rate falls, each CNP a window wholly marked. -/
def execCnpReceived (qp : Fin 4096) (s : State) : Host.Outcome State Fault Refusal :=
  let i := qp.val
  done (s.onRequester i (fun s =>
    let s := s.count pgFRONT oNETF_CNP_RECV 1
    if partIds.any (fun p => (s.part p).nonFree && (s.part p).complQp = i) then
      let x := s.qp i
      let a := x.alpha + (1 - x.alpha) / 16
      s.setQp i { x with alpha := a, throttle := x.throttle * (1 - a / 2) }
    else s))

/-! ### Stray frames (R418 to R422, R434, R448) -/

def execStray (sub : Fin 32) (why : StrayWhy) (s : State) : Host.Outcome State Fault Refusal :=
  let i := sub.val
  let port := pgPORT (i / 4)
  if !(s.linked i) then done s
  else match why with
    | .wrongMac => done (s.count port oNETP_RX_DROP 1)
    | .oversize n => done (if s.subMtu i < n then s.count port oNETP_RX_DROP 1 else s)
    | .wrongPort | .wrongNetwork => done (s.rxFrame i false).strayPacket
    | .macsec _ _ => done (if s.field port oNETP_PORT_CFG 8 8 = 1 then s.count port oNETP_MACSEC_DROP 1 else s)
    | .badQp qp => done (if (s.qpLive qp.val).isNone then (s.rxFrame i false).strayPacket else s)
    | .noContext => done (s.rxFrame i false)

end Sys2Proof.Machine
end

