-- ==== Sys2Proof/Machine/Mgmt.lean ====
section
/-! DEFINITION. The Chabu management protocol (17): requests judged (R428, R429), answered once (R431), and the operations of R430. -/

namespace Sys2Proof.Machine

/-! ### Datagrams (R428) -/

/-- The 32 header bytes of a datagram, in network byte order. -/
def mgmtHeader (op resp keyId status seq reqId length addr : Nat) : List Byte :=
  beBytes 2 0xC4AB ++ [0x01#8] ++ beBytes 1 op ++ beBytes 1 resp ++ beBytes 1 keyId ++ beBytes 1 status ++ [0#8]
    ++ beBytes 8 seq ++ beBytes 4 reqId ++ beBytes 2 length ++ [0#8, 0#8] ++ beBytes 8 addr

/-- The header bytes of a request as they arrived. -/
def reqHeader (op : Nat) (r : MgmtReq) : List Byte :=
  beBytes 2 r.magic.toNat ++ [r.version] ++ beBytes 1 op ++ [r.resp, r.keyId, r.status, r.rsv7] ++ beBytes 8 r.seq.toNat
    ++ beBytes 4 r.reqId.toNat ++ beBytes 2 r.length.toNat ++ beBytes 2 r.rsv16.toNat ++ beBytes 8 r.addr.toNat

/-- The tag of a datagram under a key: the first 16 bytes of its HMAC-SHA-256. -/
def mgmtTag (key m : List Byte) : List Byte := (hmacSha256 key m).take 16

/-- The response to a request, tagged. DEDUCED (log entry 23). -/
def mgmtResponse (key : List Byte) (op : Nat) (r : MgmtReq) (status : Nat) (body : List Byte) : List Byte :=
  let m := mgmtHeader op 1 r.keyId.toNat status r.seq.toNat r.reqId.toNat body.length r.addr.toNat ++ body
  m ++ mgmtTag key m

/-! ### Judging a request (R429) -/

/-- The front sub-ports whose links are up. -/
def State.frontUp (s : State) : List Nat := (List.range 16).filter (fun i => (s.sub i).up)

/-- Management is reached over the network (R550), and the datagram is for it. -/
def State.mgmtHears (s : State) (r : MgmtReq) : Bool :=
  s.alive && !s.start.halted && 2 ≤ s.start.stage && s.frontUp ≠ [] && s.ownFront r.dst.v6 r.dst.ip.toNat && r.dst.port.toNat = 18454

/-- What R429 asks of a request before the device acts: the key, where all of it holds. -/
def State.mgmtKey (s : State) (op : Nat) (r : MgmtReq) : Option (List Byte) :=
  let k := s.keySlot r.keyId.toNat
  if r.magic.toNat = 0xC4AB && r.version = 0x01#8 && r.length.toNat = r.body.length && r.body.length ≤ 1024 && r.keyId.toNat < 4 then
    match k.key with
    | none => none
    | some key =>
      if r.tag = mgmtTag key (reqHeader op r ++ r.body) && k.highest < r.seq.toNat + 64 && !(k.accepted.contains r.seq.toNat) then some key else none
  else none

/-- A request dropped: counted, AUTH raised. -/
def State.mgmtDropped (s : State) (r : MgmtReq) : State :=
  let s := s.count pgFRONT oNETF_MGMT_DROP 1
  s.flagOnce pgFRONT 1 2 (r.keyId.toNat + (s.stored pgFRONT oNETF_MGMT_DROP 0).toNat * 2 ^ 32) none

/-- SEQ taken: it is accepted, and those 64 or more below the highest are forgotten. -/
def KeySlot.take (k : KeySlot) (seq : Nat) : KeySlot :=
  let h := max k.highest seq
  { k with
    highest := h
    accepted := (seq :: k.accepted).filter (fun q => h < q + 64) }

/-! ### Acting once (R431) -/

/-- What an operation answers. -/
structure MgmtAnswer where
  status : Nat
  body : List Byte
  deriving DecidableEq, Repr

def ansOK (b : List Byte) : MgmtAnswer := ⟨0, b⟩
def ansBadAddr : MgmtAnswer := ⟨2, []⟩
def ansBadLength : MgmtAnswer := ⟨3, []⟩
def ansDataError : MgmtAnswer := ⟨4, []⟩
def ansBusy : MgmtAnswer := ⟨5, []⟩

/-- The front sub-port on which a request arrives and its response leaves: an open value among those with their links up. DEDUCED (log entry 23). -/
def State.mgmtPort (s : State) : Nat := nth 0 s.frontUp (s.choose 0xA0 s.frontUp.length)

/-- A valid request taken: its SEQ is accepted, it counts, and one under the ready message's key ends that message (R551). DEDUCED (log entry 28). -/
def State.mgmtTake (s : State) (r : MgmtReq) : State :=
  let s := s.rxFrame s.mgmtPort false
  let s := s.setKeySlot r.keyId.toNat ((s.keySlot r.keyId.toNat).take r.seq.toNat)
  let s := s.count pgFRONT oNETF_MGMT_OK 1
  if r.keyId.toNat = s.field pgMGT oMGT_READY_CFG 2 1 then { s with start := { s.start with answered := true } } else s

/-- A response sent, and kept for a repeat of its request ahead of the slot's other kept responses `old`. DEDUCED (log entry 23). -/
def State.mgmtReply (s : State) (i : Nat) (r : MgmtReq) (old : List (Nat × List Byte)) (m : List Byte) : State :=
  let s := s.setKeySlot r.keyId.toNat { s.keySlot r.keyId.toNat with kept := ((r.reqId.toNat, m) :: old).take 16 }
  (s.txFrames i 1).send (.mgmt i r.src m)

/-- A request of operation `op`: judged, then answered from the kept responses or by `act`. A request whose access must wait is not yet
taken. DEDUCED (log entry 21). -/
def State.mgmtRequest (s : State) (op : Nat) (r : MgmtReq) (waits : State → Bool) (act : State → List Byte → State × MgmtAnswer) : State :=
  if !(s.mgmtHears r) then s
  else
    match s.mgmtKey op r with
    | none => (s.rxFrame s.mgmtPort false).mgmtDropped r
    | some key =>
      let old := (s.keySlot r.keyId.toNat).kept
      match old.find? (fun e => e.1 = r.reqId.toNat) with
      | some e => ((s.mgmtTake r).txFrames s.mgmtPort 1).send (.mgmt s.mgmtPort r.src e.2)
      | none =>
        if waits s then s
        else
          let t := act (s.mgmtTake r) key
          t.1.mgmtReply s.mgmtPort r old (mgmtResponse key op r t.2.status t.2.body)

/-- An operation that never waits. -/
def neverWaits (_ : State) : Bool := false

/-! ### Registers -/

/-- Why a register range is refused: its length, its address, its page's end (R430, R531). -/
def regRangeBad (a n : Nat) : Option MgmtAnswer :=
  if n = 0 || 256 < n then some ansBadLength
  else if a % 4 ≠ 0 || a < regBase || regBase + 0x580 * 0x1000 ≤ a then some ansBadAddr
  else if 0x1000 < a % 0x1000 + 4 * n then some ansBadLength
  else none

/-- Consecutive words written by management, in ascending order. -/
def mgmtWrites (page : Nat) : Nat → List Byte → State → State
  | off, b0 :: b1 :: b2 :: b3 :: t, s =>
    mgmtWrites page (off + 4) t (s.regWrite .mgmt page off (BitVec.ofNat 32 (leNat [b0, b1, b2, b3])))
  | _, _, s => s

/-- PRESUMED (log entry 22). -/
def execMgmtReadReg (r : MgmtReq) (s : State) : Host.Outcome State Fault Refusal :=
  done (s.mgmtRequest 0x01 r neverWaits (fun s _ =>
    let a := r.addr.toNat
    let n := beNat r.body
    if r.body.length ≠ 4 then (s, ansBadLength)
    else match regRangeBad a n with
      | some e => (s, e)
      | none =>
        let t := s.readWords .mgmt ((a - regBase) / 0x1000) (a % 0x1000) n
        (t.1, ansOK (t.2.flatMap (fun w => leBytes 4 w.toNat)))))

def execMgmtWriteReg (r : MgmtReq) (s : State) : Host.Outcome State Fault Refusal :=
  done (s.mgmtRequest 0x02 r neverWaits (fun s _ =>
    let a := r.addr.toNat
    if r.body.length % 4 ≠ 0 then (s, ansBadLength)
    else match regRangeBad a (r.body.length / 4) with
      | some e => (s, e)
      | none => (mgmtWrites ((a - regBase) / 0x1000) (a % 0x1000) r.body s, ansOK [])))

/-! ### Memory -/

/-- A management access to a tier waits until its clear is complete (R548), and to the flash zone until the map is ready (R398). DEDUCED (log entry 21). -/
def State.tierWaits (s : State) (a : Nat) : Bool :=
  match zoneOf a with
  | .hbm | .rawHbm => !s.start.hbmCleared
  | .ddr | .rawDdr => !s.start.ddrCleared && !(s.start.ddrDone && !s.tiers.ddrTrained)
  | .fls => s.flashWaits a
  | _ => false

/-- The partition number under which management's accesses are translated: no partition's. DEDUCED (log entry 76). -/
def mgmtPart : Nat := 16

/-- PRESUMED (log entry 22). -/
def execMgmtReadMem (r : MgmtReq) (s : State) : Host.Outcome State Fault Refusal :=
  let a := r.addr.toNat
  done (s.mgmtRequest 0x03 r (fun s => s.tierWaits a) (fun s _ =>
    let n := beNat r.body
    if r.body.length ≠ 4 || n = 0 || 1024 < n then (s, ansBadLength)
    else match s.readBytes mgmtPart a n with
      | .ok b => (s, ansOK b)
      | .error (.access _) => (s, ansBadAddr)
      | .error (.data _) => (s, ansDataError)))

/-- DEDUCED (log entry 27). -/
def execMgmtWriteMem (r : MgmtReq) (s : State) : Host.Outcome State Fault Refusal :=
  let a := r.addr.toNat
  done (s.mgmtRequest 0x04 r (fun s => s.tierWaits a) (fun s _ =>
    if r.body = [] then (s, ansBadLength)
    else match s.writeFor mgmtPart none a r.body with
      | .ok t => (t.cloudOver none (fun _ => false) [(a, a + r.body.length)], ansOK [])
      | .error (.access _) => (s, ansBadAddr)
      | .error (.data _) => (s, ansDataError)))

/-! ### Queue pairs (R422, R426) -/

/-- A queue pair's context replaced. In RTS its messages not yet acknowledged go out again, with new PSNs, and the records that wait for it
follow. DEDUCED (log entry 25). -/
def State.qpSet (s : State) (i : Nat) (ctx : List Byte) : State :=
  let old := (s.qp i).unacked
  let s := s.setQp i ⟨ctx, [], 0, 0, none, 1, 0⟩
  if (s.qp i).state = 1 then
    let s := old.foldl (fun s m => s.rdmaOut i m.2.1 m.2.2) s
    partIds.foldl (fun s p => if (s.part p).nonFree && (s.part p).complQp = i then (s.drainRing p).releaseGoOn p else s) s
  else s.setQp i { s.qp i with unacked := old }

def execQpSet (r : MgmtReq) (s : State) : Host.Outcome State Fault Refusal :=
  done (s.mgmtRequest 0x05 r neverWaits (fun s _ =>
    let i := r.addr.toNat
    if r.body.length ≠ 64 then (s, ansBadLength)
    else if 4096 ≤ i then (s, ansBadAddr)
    else if (s.qp i).state = 1 && fldBe r.body 0 1 ≠ 0 && fldBe r.body 0 1 ≠ 2 then (s, ansBusy)
    else (s.qpSet i r.body, ansOK [])))

def execQpGet (r : MgmtReq) (s : State) : Host.Outcome State Fault Refusal :=
  done (s.mgmtRequest 0x06 r neverWaits (fun s _ =>
    let i := r.addr.toNat
    if r.body ≠ [] then (s, ansBadLength)
    else if 4096 ≤ i then (s, ansBadAddr)
    else (s, ansOK (padTo 64 (s.qp i).ctx))))

/-! ### The fabric (R443, R444) -/

/-- An entry of the fabric table: SRC_DEV, SRC_PART, LOCAL_PART, VALID. A new entry for a full table is answered with BUSY. PRESUMED (log entry 22). DEDUCED (log entry 24). -/
def execFabricSet (r : MgmtReq) (s : State) : Host.Outcome State Fault Refusal :=
  done (s.mgmtRequest 0x07 r neverWaits (fun s _ =>
    let key := fabKey (fldBe r.body 0 2) (fldBe r.body 2 1)
    let p := fldBe r.body 3 1
    let valid := fldBe r.body 4 1 ≠ 0
    if r.body.length ≠ 5 then (s, ansBadLength)
    else if valid && 16 ≤ p then (s, ansBadAddr)
    else if valid && tabGet 0 s.net.fabric key = 0 && 16384 ≤ s.net.fabric.length then (s, ansBusy)
    else ({ s with net := { s.net with fabric := tabPut 0 s.net.fabric key (if valid then p + 1 else 0) } }, ansOK [])))

/-- A communicator record: PARTITION, MEMBERS, RANK, LIST, VALID. PRESUMED (log entry 22). DEDUCED (log entries 24, 26). -/
def execCommSet (r : MgmtReq) (s : State) : Host.Outcome State Fault Refusal :=
  done (s.mgmtRequest 0x08 r neverWaits (fun s _ =>
    let id := r.addr.toNat
    let p := fldBe r.body 0 1
    let n := fldBe r.body 1 4
    let rank := fldBe r.body 5 4
    let list := fldBe r.body 9 8
    let x := s.part p
    if r.body.length ≠ 18 then (s, ansBadLength)
    else if 16 ≤ p || !x.nonFree || !(within id 1 x.commsRange.1 x.commsRange.2) || 1024 ≤ id || n < 2 || 4096 < n || n ≤ rank
        || !(within list (4 * n) x.resBase x.resBytes) then (s, ansBadAddr)
    else ({ s with net := { s.net with comms := tabPut commNone s.net.comms id ⟨p, n, rank, list, fldBe r.body 17 1 ≠ 0, 0, 0, [], 0, 0⟩ } }, ansOK [])))

/-! ### MACsec (R448, R449) -/

/-- An association among those of its channel, in place of the one with its number. -/
def putSa (l : List Sa) (a : Sa) : List Sa := l.filter (fun b => b.an ≠ a.an) ++ [a]

/-- An SA record: DIR, AN, SSCI, SALT, NEXT_PN, SCI, KEY wrapped under the management key. PRESUMED (log entry 22). DEDUCED (log entry 24). -/
def execSaSet (r : MgmtReq) (s : State) : Host.Outcome State Fault Refusal :=
  done (s.mgmtRequest 0x09 r neverWaits (fun s key =>
    let i := r.addr.toNat
    let dir := fldBe r.body 0 1
    let an := fldBe r.body 1 1
    if r.body.length ≠ 74 then (s, ansBadLength)
    else if 32 ≤ i || 1 < dir || 3 < an then (s, ansBadAddr)
    else match keyUnwrap key (r.body.drop 34) with
      | none => (s, ansBadLength)
      | some sak =>
        let a : Sa := ⟨an, BitVec.ofNat 32 (fldBe r.body 2 4), (r.body.drop 6).take 12, fldBe r.body 18 8, BitVec.ofNat 64 (fldBe r.body 26 8), sak, false⟩
        let x := s.sub i
        (s.setSub i (if dir = 0 then { x with tx := putSa x.tx a, txAn := an } else { x with rx := putSa x.rx a }), ansOK [])))

/-! ### IDENTIFY -/

/-- CAP.DEVICE_ID, the serial number, and NET.DEVICE_ID as register values. PRESUMED (log entry 22). -/
def execIdentify (r : MgmtReq) (s : State) : Host.Outcome State Fault Refusal :=
  done (s.mgmtRequest 0x0A r neverWaits (fun s _ =>
    if r.body ≠ [] then (s, ansBadLength)
    else (s, ansOK (leBytes 4 0x4816B100 ++ leBytes 8 s.fitted.serial ++ leBytes 4 s.deviceId))))

end Sys2Proof.Machine
end

