-- ==== Sys2Proof/Machine/Startup.lean ====
section
/-! DEFINITION. Reset and bring-up (22): whole-device reset and what survives it (R541 to R546), boot verification (R499 to R502), the
orders of R547, READY and the ready message (R549 to R553), the trip (R467), and attestation reports (R508, R509). -/

namespace Sys2Proof.Machine

/-! ### Whole-device reset (R541, R545, R546) -/

/-- Register words that a reset keeps: BOOT_CFG, the READY registers and the calendar's TRIM (R515, R517, R553). DEDUCED (log entry 14). -/
def keptReg (key : Nat) : Bool :=
  let page := key / 0x20000
  let off := key % 0x20000 / 32
  (page = pgMGT && (off = oMGT_BOOT_CFG || (oMGT_READY_CFG ≤ off && off ≤ oMGT_READY_IP_W3))) || (page = pgRTC && off = oRTC_TRIM)

/-- The flash tier over a reset: what the media holds is kept; write buffers, moves and the queue of work are lost. DEDUCED (log entry 14). -/
def Flash.kept (f : Flash) : Flash :=
  { f with
    chans := (f.chans.map (fun e => (e.1, { e.2 with dies := [], buffer := [], relocs := [] }))).filter (fun e => e.2 ≠ chanEmpty)
    blocks := (f.blocks.map (fun e => (e.1, { e.2 with refresh := false, leaving := 0, readers := [] }))).filter (fun e => e.2 ≠ blkFree)
    mapState := 0
    rebuildS := 0
    patrolDone := 0
    patrolPos := 0
    patrolElapsed := 0
    hostWr := [] }

/-- The security block over a reset: OTP, leaf state and log are kept; key slots, M6 and the debug opening over WARM_N only. DEDUCED (log entry 14). -/
def Security.kept (x : Security) (warm : Bool) : Security :=
  { x with
    slots := if warm then x.slots else []
    keyWords := List.replicate 8 0#32
    meas := if warm then x.meas.filter (fun e => e.1 = 6) else []
    leafReady := false
    att := none
    attResult := 0
    runningSvn := 0
    debugOpen := warm && x.debugOpen }

/-- A rail over a reset: what its voltage does is not the device's; the meter and a failed regulator's mark are kept over WARM_N. DEDUCED (log entry 14). -/
def keptRail (r : Nat) (x : Rail) (warm : Bool) : Rail :=
  { railDefault r with
    energy := if warm then x.energy else 0
    pmbFail := warm && x.pmbFail
    warn := x.warn
    down := x.down }

/-- A die over a reset: held while its rail is low. DEDUCED (log entry 14). -/
def keptDie (x : Rail) : Die := { dieDefault with inReset := x.down, held := x.warn }

/-- The whole device in reset (R541, R545): a WARM_N reset where `warm`, else one that acts as POR_N; with its cause and INFO. DEDUCED (log entries 13, 14). -/
def State.deviceReset (s : State) (warm : Bool) (cause info : Nat) : State :=
  { State.reset with
    pending := s.pending
    tx := s.tx
    freeCtr := s.freeCtr
    fitted := s.fitted
    start := { Startup.atRelease with
      porLow := s.start.porLow
      warmLow := s.start.warmLow
      tripped := s.start.tripped
      inReset := true
      cause := cause
      causeInfo := info
      clocksLost := s.start.clocksLost }
    regs := s.regs.filter (fun e => keptReg e.1)
    strobes := s.strobes
    mem := s.mem.filter (fun c => c.1 < potBase)
    tiers := { (State.reset).tiers with ddrSpds := if warm then s.tiers.ddrSpds else [] }
    rails := (List.range 12).foldl (fun t r => tabPut (railDefault r) t r (keptRail r (s.rail r) warm)) []
    dies := [0, 1, 2, 3].foldl (fun t q => tabPut dieDefault t q (keptDie (s.rail q))) []
    flash := s.flash.kept
    errors := { Errors.empty s.hbmFrames with
      log := if warm then s.errors.log else []
      logged := if warm then s.errors.logged else 0
      hist := s.errors.hist
      poison := s.errors.poison.filter (fun g => g < potBase) }
    sec := s.sec.kept warm
    cal := { s.cal with
      latchHi := 0
      latchFrac := 0 } }

/-- POR_N_ASSERT (R541, R544, R545): ends a trip, whose TRIP entry's INFO the cause then carries (R552). DEDUCED (log entries 12, 13). -/
def execPorNAssert (s : State) : Host.Outcome State Fault Refusal :=
  let t : State := { s with start := { s.start with
    porLow := true
    tripped := false } }
  done (if s.start.tripped then t.deviceReset false 0x0213 s.start.causeInfo else t.deviceReset false 0x0210 0)

/-- WARM_N_ASSERT (R544): ignored while POR_N is low and while a trip stands; a device that is in reset already stays in that reset. DEDUCED (log entry 12). -/
def execWarmNAssert (s : State) : Host.Outcome State Fault Refusal :=
  if s.start.porLow || s.start.tripped then done s
  else
    let t : State := { s with start := { s.start with warmLow := true } }
    done (if s.start.inReset then t else t.deviceReset true 0x0211 0)

/-- The rails that hold the whole device in reset (R541). -/
def wholeRails : List Nat := [4, 5, 6, 11]

/-- RESET_RELEASE (R541, R547): the pins are high again; bring-up starts once no trip stands and no rail holds the device. DEDUCED (log entry 12). -/
def execResetRelease (s : State) : Host.Outcome State Fault Refusal :=
  if s.start.inReset && !s.start.tripped && !(wholeRails.any (fun r => (s.rail r).down)) then
    done { s with start := { s.start with
      porLow := false
      warmLow := false
      inReset := false } }
  else done s

/-- DEVICE_RAIL_RESET (R541, R545): a dip of rail 4, 5, 6 or 11 to its reset level acts as POR_N. -/
def execDeviceRailReset (rail : Fin 12) (s : State) : Host.Outcome State Fault Refusal :=
  let r := rail.val
  if wholeRails.contains r then
    let s := s.setRail r { s.rail r with
      warn := true
      down := true }
    done (if s.start.porLow || s.start.tripped then s else s.deviceReset false 0x0212 r)
  else done s

/-- The die or stack at its trip level for 4 periods (R467), as TRIP's INFO reports it. -/
def State.tripInfo (s : State) : Option Nat :=
  match [0, 1, 2, 3].find? (fun q => 4 ≤ (s.die q).tripPeriods) with
  | some q => some (q + s.bankField pgTRV oTRV_DIE_TEMP q 15 0 * 2 ^ 16)
  | none =>
    ((List.range 8).find? (fun i => 4 ≤ nth 0 s.tiers.stackTrip i)).map (fun i =>
      i * 2 ^ 8 + 2 ^ 11 + 16 * s.field (pgHBM i) oHBM_HBM_TEMP 7 0 % 2 ^ 16 * 2 ^ 16)

/-- THERMAL_TRIP (R467, R541, R551): logged; READY falls, FAULT_N is low, and whole-device reset is held until POR_N. DEDUCED (log entry 13). -/
def execThermalTrip (s : State) : Host.Outcome State Fault Refusal :=
  if !(s.alive) then done s
  else match s.tripInfo with
    | none => done s
    | some info =>
      let s := s.logMgmt 0x0606 pgTRV info
      let s : State := { s with start := { s.start with tripped := true } }
      let t := s.deviceReset true 0x0213 info
      done (({ t with start := { t.start with faultLow := true } }).send (.ibi 0x03#8))

/-! ### Boot (R499 to R504) -/

/-- The size of an image slot (R499). -/
def slotBytes : Nat := 0x1000000

/-- Component i of a bundle header (R500): KIND, OFFSET, LENGTH, DIGEST. -/
def compKind (b : List Byte) (i : Nat) : Nat := fld b (0x018 + 32 * i) 1
def compOff (b : List Byte) (i : Nat) : Nat := fld b (0x010 + 32 * i) 4
def compLen (b : List Byte) (i : Nat) : Nat := fld b (0x014 + 32 * i) 4
def compDigest (b : List Byte) (i : Nat) : List Byte := (b.drop (0x210 + 32 * i)).take 32

/-- The header meets R500. -/
def headerOk (b : List Byte) : Bool :=
  let n := fld b 0x006 2
  0x410 ≤ b.length && fld b 0 4 = 0x59424E44 && fld b 4 2 = 0x0001 && 1 ≤ n && n ≤ 16 && fld b 0x00C 4 ≤ 8192
    && (List.range n).all (fun i => 1 ≤ compKind b i && compKind b i ≤ 4 && compOff b i + compLen b i ≤ min slotBytes b.length)

/-- An LMS public key has types that R501 allows. -/
def lmsTypesOk (pub : List Byte) : Bool := (lmsHeight (fldBe pub 0 4)).isSome && (lmotsParams (fldBe pub 4 4)).isSome

/-- The first of R501's conditions that a slot fails, as MGT_STATUS.FAIL codes it; 0 where it passes. The signature holds the HSS public
key (L and the top key), then the HSS signature (Nspk, L - 1 signed keys, the message's signature). PRESUMED (log entry 17). -/
def State.slotFail (s : State) : Option (List Byte) → Nat
  | none => 6
  | some b =>
    let sig := (b.drop 0x410).take (fld b 0x00C 4)
    let l := fldBe sig 0 4
    let pub := (sig.drop 4).take 56
    let rest := sig.drop 64
    let n0 := (lmsSigLen rest).getD 0
    let sub := (rest.drop n0).take 56
    let n := if l = 2 then n0 + 56 + (lmsSigLen (rest.drop (n0 + 56))).getD 0 else n0
    if !(headerOk b) then 1
    else if sha256 (sig.take 60) ≠ s.sec.rootHash || !(l = 1 || l = 2) || !(lmsTypesOk pub) || (l = 2 && !(lmsTypesOk sub)) then 2
    else if fldBe sig 60 4 + 1 ≠ l || rest.length ≠ n || !(hssVerify (l - 1) pub rest (b.take 0x410)) then 3
    else if fld b 8 4 < s.sec.svnFloor then 4
    else if !((List.range (fld b 6 2)).all (fun i => sha256 ((b.drop (compOff b i)).take (compLen b i)) = compDigest b i)) then 5
    else 0

/-- The OTP configuration that M0 measures: root hash, SVN floor, lifecycle. PRESUMED (log entry 18). -/
def State.otpBytes (s : State) : List Byte := s.sec.rootHash ++ leBytes 4 s.sec.svnFloor ++ leBytes 4 s.sec.lifecycle

/-- An accepted slot measured: M1 and the components' M2 to M5 (R504), which run from now on. -/
def State.measureSlot (s : State) (b : List Byte) : State :=
  let comps := (List.range (fld b 6 2)).map (fun i => (compKind b i, compDigest b i))
  let s := s.extend 1 (sha256 (b.take 0x410))
  let s := comps.foldl (fun s c => s.extend (c.1 + 1) c.2) s
  { s with
    start := { s.start with components := comps }
    sec := { s.sec with runningSvn := fld b 8 4 } }

/-- A halt (R502, R549, R551): FAULT_N low, the failure logged, the interrupt with byte 0x02. DEDUCED (log entry 19). -/
def State.halt (s : State) (info : Nat) : State :=
  let s := s.logMgmt 0x0201 pgMGT info
  ({ s with start := { s.start with
      halted := true
      faultLow := true } }).send (.ibi 0x02#8)

/-- Order 2 of R547: the firmware runs, the reset cause is logged, a loss of the calendar after it (R510, R552), leaves are reserved (R506),
the trivet takes the core rails (R456). Order 3: repairs are replayed (R488). DEDUCED (log entry 30). -/
def State.runFirmware (s : State) : State :=
  let s : State := { s with start := { s.start with stage := 2 } }
  let s := s.logMgmt s.start.cause pgMGT s.start.causeInfo
  let lost := !s.cal.valid && (s.cal.vbatLow || s.cal.oscStop) && !s.cal.lossLogged
  let s : State := if lost then
      { s.logMgmt 0x0401 pgRTC (b2n s.cal.vbatLow + 2 * b2n s.cal.oscStop) with cal := { s.cal with lossLogged := true } }
    else s
  let s := s.leafStart
  ([0, 1, 2, 3].foldl (fun s q => s.applySetpoint q) s).replayHist

/-- BOOT_VERIFIED (R501, R502): the preferred slot is tried, then the other; with none accepted the device halts. DEDUCED (log entry 19). -/
def execBootVerified (slotA slotB : Option (List Byte)) (s : State) : Host.Outcome State Fault Refusal :=
  if !(s.alive) || s.start.halted || s.start.stage ≠ 0 then done s
  else
    let preferB := s.field pgMGT oMGT_BOOT_CFG 0 0 = 1
    let first := if preferB then slotB else slotA
    let second := if preferB then slotA else slotB
    let s := s.extend 0 (sha256 s.otpBytes)
    let e1 := s.slotFail first
    let e2 := s.slotFail second
    let info := e1 % 16 * 2 ^ 12 + b2n preferB * 2 ^ 16
    if e1 = 0 then
      done ((({ s with start := { s.start with slotB := preferB } }).measureSlot (first.getD [])).runFirmware)
    else if e2 = 0 then
      let s := (s.flagEvent pgMGT 1 1 info none).logMgmt 0x0201 pgMGT info
      done ((({ s with start := { s.start with slotB := !preferB } }).measureSlot (second.getD [])).runFirmware)
    else done (({ s with start := { s.start with fail := e1 } }).halt info)

/-! ### Training and clearing (R350 to R352, R548) -/

/-- Bring-up has reached order 3 and goes on. -/
def State.bringUp (s : State) : Bool := s.alive && !s.start.halted && s.start.stage = 2

/-- HBM_TRAINED (R352, R549): one result for each of the 8 stacks; a stack that trained at neither rate halts the device. -/
def execHbmTrained (results : List HbmTrain) (s : State) : Host.Outcome State Fault Refusal :=
  if !(s.bringUp) || s.start.hbmDone || (s.rail 7).down then done s
  else
    let ok := results.length = 8 && results.all (fun r => r ≠ .failed)
    if !ok then
      done (s.halt (((List.range 8).map (fun i => if nth .failed results i = .failed then 2 ^ i else 0)).sum * 2 ^ 32))
    else
      let s : State := { s with
        start := { s.start with hbmDone := true }
        tiers := { s.tiers with
          hbmTrained := List.replicate 8 true
          hbmFallback := results.map (fun r => decide (r = .fallback)) } }
      done ((List.range 8).foldl (fun s i =>
        if nth false s.tiers.hbmFallback i then s.flagEvent (pgHBM i) 2 2 i none else s) s)

/-- The channels that a DDR5 population uses: all, or the even-numbered ones. DEDUCED (log entry 16). -/
def ddrUsed (spds : List (Option Spd)) : List Nat :=
  if (List.range 24).any (fun c => c % 2 = 1 && (nth none spds c).isSome) then List.range 24 else (List.range 24).filter (fun c => c % 2 = 0)

/-- The channels that break R350. DEDUCED (log entry 16). -/
def ddrBad (spds : List (Option Spd)) : List Nat :=
  let first := ((ddrUsed spds).filterMap (fun c => nth none spds c)).head?
  (ddrUsed spds).filter (fun c => match nth none spds c, first with
    | some d, some f => !(d.mrdimm && d.modules = 1 && 32 ≤ d.gb && d.gb ≤ 256 && (d.ranks = 1 || d.ranks = 2) && 8800 ≤ d.rate && d.gb = f.gb && d.ranks = f.ranks)
    | _, _ => true)

/-- DDR_TRAINED (R350, R351, R545): the SPDs read; a population that breaks R350 leaves the zone at capacity 0. DEDUCED (log entry 15). -/
def execDdrTrained (spds : List (Option Spd)) (s : State) : Host.Outcome State Fault Refusal :=
  if !(s.bringUp) || s.start.ddrDone || (s.rail 8).down then done s
  else
    let l := (List.range 24).map (fun c => nth none spds c)
    let bad := ddrBad l
    let same := s.start.cause = 0x0211 && s.tiers.ddrSpds = l
    if bad ≠ [] then
      let s : State := { s with
        start := { s.start with ddrDone := true }
        tiers := { s.tiers with ddrSpds := l } }
      done (s.flagEvent (pgDDR 0) 2 2 ((bad.map (fun c => 2 ^ c)).sum) none)
    else
      done { s with
        start := { s.start with
          ddrDone := true
          reused := same }
        tiers := { s.tiers with
          ddrSpds := l
          ddrTrained := true
          ddrRate := if l.all (fun m => match m with | some d => 12800 ≤ d.rate | none => true) then 12800 else 8800 } }

/-- TIER_CLEAR_DONE (R548): the tier's frames hold zeros. -/
def execTierClearDone (ddr : Bool) (s : State) : Host.Outcome State Fault Refusal :=
  if !(s.bringUp) then done s
  else if ddr then
    if s.tiers.ddrTrained && !s.start.ddrCleared then
      done { s with
        mem := s.mem.filter (fun c => c.1 < ddrBase || potBase ≤ c.1)
        errors := { s.errors with poison := s.errors.poison.filter (fun g => g < ddrBase || potBase ≤ g) }
        start := { s.start with ddrCleared := true } }
    else done s
  else if s.start.hbmDone && !s.start.hbmCleared then
    done { s with
      mem := s.mem.filter (fun c => ddrBase ≤ c.1)
      errors := { s.errors with poison := s.errors.poison.filter (fun g => ddrBase ≤ g) }
      start := { s.start with hbmCleared := true } }
  else done s

/-! ### The flash tier (R389, R395, R396) -/

/-- FLASH_CHANNELS_TRAINED (R389). -/
def execFlashChannelsTrained (dies : List (List FlashDie)) (s : State) : Host.Outcome State Fault Refusal :=
  if !(s.bringUp) || s.start.flashDone || s.flash.mapState ≠ 0 || (s.rail 10).down then done s else done (s.flashTrained dies)

/-- MAP_LOAD_DONE (R395). -/
def execMapLoadDone (s : State) : Host.Outcome State Fault Refusal :=
  if s.bringUp && s.flash.mapState = 1 then done s.mapLoaded else done s

/-- MAP_REBUILD_DONE (R395, R396): also after a map block read that failed. DEDUCED (log entry 20). -/
def execMapRebuildDone (seconds : Nat) (s : State) : Host.Outcome State Fault Refusal :=
  if s.bringUp && (s.flash.mapState = 1 || s.flash.mapState = 2) then done (s.mapRebuilt seconds) else done s

/-! ### READY (R547, R549 to R553) -/

/-- Orders 3 to 6 of R547 are complete. -/
def State.readyDue (s : State) : Bool :=
  s.bringUp && s.start.hbmCleared && s.start.ddrDone && (s.start.ddrCleared || !s.tiers.ddrTrained) && s.start.flashDone

/-- READY_RISE (R547, R550, R551): RUNs that waited start. DEDUCED (log entry 28). DESIGN CHOICE (log entry 90). -/
def execReadyRise (ms : Nat) (s : State) : Host.Outcome State Fault Refusal :=
  if !(s.readyDue) || s.start.ready then done s
  else
    let s : State := { s with start := { s.start with
      ready := true
      bootMs := ms % 2 ^ 32
      answered := false } }
    done ((s.send (.ibi 0x01#8)).moreChanges)

/-- The body of the ready message. -/
def State.readyBody (s : State) : List Byte :=
  beBytes 8 s.fitted.serial ++ beBytes 2 s.start.cause ++ beBytes 1 s.flash.mapState
    ++ beBytes 1 (b2n s.start.slotB + 2 * b2n s.sec.debugOpen + 4 * b2n s.start.reused) ++ beBytes 4 s.start.bootMs
    ++ beBytes 4 ((List.range 8).map (fun i => s.usableMib i)).sum ++ beBytes 4 (s.ddrCapacity / 2 ^ 30) ++ beBytes 4 s.flash.logical ++ beBytes 4 0

/-- Where the ready message goes. -/
def State.readyTo (s : State) : Endpoint :=
  let w := fun (o : Nat) => s.field pgMGT o 31 0
  let v6 := s.field pgMGT oMGT_READY_CFG 3 3 = 1
  let ip := ((w oMGT_READY_IP_W0 * 2 ^ 32 + w oMGT_READY_IP_W1) * 2 ^ 32 + w oMGT_READY_IP_W2) * 2 ^ 32 + w oMGT_READY_IP_W3
  ⟨v6, BitVec.ofNat 128 (if v6 then ip else w oMGT_READY_IP_W3), BitVec.ofNat 16 (s.field pgMGT oMGT_READY_CFG 31 16)⟩

/-- READY_MESSAGE (R551): from each front sub-port with its link up, until a valid request under its key arrives. DEDUCED (log entry 28). -/
def execReadyMessage (s : State) : Host.Outcome State Fault Refusal :=
  let k := s.field pgMGT oMGT_READY_CFG 2 1
  let on := s.alive && s.start.ready && !s.start.answered && s.field pgMGT oMGT_READY_CFG 0 0 = 1
    && [0, 1, 2, 3, 4].any (fun j => (s.frontAddr j).isSome)
  if !on then done s
  else match (s.keySlot k).key with
    | none => done s
    | some key =>
      let m := mgmtHeader 0x0B 1 k 0 0 0 32 0 ++ s.readyBody
      done (s.frontUp.foldl (fun s i => (s.txFrames i 1).send (.mgmt i s.readyTo (m ++ mgmtTag key m))) s)

/-! ### Attestation (R507 to R509) -/

/-- The mask of non-FREE partitions, their setup blocks, and the capability list as walked. -/
def State.configBytes (s : State) : List Byte :=
  let ps := partIds.filter (fun p => (s.part p).nonFree)
  leBytes 2 ((ps.map (fun p => 2 ^ p)).sum) ++ ps.flatMap (fun p => padTo 256 (s.part p).setup) ++ s.capWords.flatMap (fun w => leBytes 4 w.toNat)

/-- The body of a report, bytes 0x000 to 0x1FF. -/
def State.reportBody (s : State) (nonce : List Byte) : List Byte :=
  let b := leBytes 2 0x0001 ++ leBytes 2 (b2n s.cal.valid + 2 * b2n s.sec.debugOpen + 4 * b2n s.start.slotB) ++ leBytes 4 s.sec.leafNext
    ++ padTo 32 nonce ++ leBytes 8 s.fitted.serial ++ leBytes 4 0x4816B100 ++ leBytes 2 s.sec.runningSvn ++ leBytes 2 s.sec.svnFloor
    ++ leBytes 8 s.time ++ (List.range 8).flatMap (fun i => s.meas i) ++ sha256 (s.errors.hist.flatMap histBytes)
    ++ leBytes 4 s.errors.hist.length ++ leBytes 4 s.spareCoresWord ++ leBytes 4 s.spareMemWord ++ leBytes 4 s.holesWord
    ++ sha256 s.configBytes
  padTo 0x200 b

/-- A report's signature, 3,284 bytes under leaf q. -/
def signature (q : Nat) (m : List Byte) : List Byte := (List.range 3284).map (fun i => Config.signatureByte q m i)

/-- A report's end: RESULT, and the condition ATT_FAIL where it is not OK. -/
def State.attEnd (s : State) (result : Nat) : State :=
  let s : State := { s with sec := { s.sec with
    att := none
    attResult := result } }
  if result = 1 then s else s.setErr pgSEC 1

/-- The address of a report: a multiple of 64 in the HBM or DDR5 zone. DEDUCED (log entry 29). -/
def attAddrOk (a : Nat) : Bool := a % 64 = 0 && (zoneOf a = .hbm || zoneOf a = .ddr)

/-- ATTESTATION_DONE (R507 to R509): a signed report is written; it waits for the tier's clear as management's accesses do. DEDUCED (log entries 21, 29). -/
def execAttestationDone (s : State) : Host.Outcome State Fault Refusal :=
  match s.sec.att with
  | none => done s
  | some r =>
    if s.sec.exhausted then done (s.attEnd 3)
    else if !(attAddrOk r.addr) then done (s.attEnd 4)
    else if s.tierWaits r.addr then done s
    else
      let body := s.reportBody r.nonce
      match s.writeFor mgmtPart none r.addr (body ++ signature s.sec.leafNext body) with
      | .ok t => done ((t.useLeaf).attEnd 1)
      | .error _ => done (s.attEnd 4)

end Sys2Proof.Machine
end

