-- ==== Sys2Proof/Machine/Dispatch.lean ====
section
/-! DEFINITION. One arm per command: a direct call of the command's meaning, or a rejection by name. -/

namespace Sys2Proof.Machine

def exec (i : Instr) (s : State) : Host.Outcome State Fault Refusal :=
  match i with
  | .sendCapsule qp psn ce bytes => Sys2Proof.Machine.execSendCapsule qp psn ce bytes s
  | .intakeEntry p => Sys2Proof.Machine.execIntakeEntry p s
  | .listRecordAccept p => Sys2Proof.Machine.execListRecordAccept p s
  | .nop p h body => Sys2Proof.Machine.execNop p h body s
  | .product p h body => Sys2Proof.Machine.execProduct p h body s
  | .attend p h body => Sys2Proof.Machine.execAttend p h body s
  | .gather p h body => Sys2Proof.Machine.execGather p h body s
  | .scatterAdd p h body => Sys2Proof.Machine.execScatterAdd p h body s
  | .search p h body => Sys2Proof.Machine.execSearch p h body s
  | .select p h body => Sys2Proof.Machine.execSelect p h body s
  | .tokenize p h body => Sys2Proof.Machine.execTokenize p h body s
  | .detokenize p h body => Sys2Proof.Machine.execDetokenize p h body s
  | .pack p h body => Sys2Proof.Machine.execPack p h body s
  | .stepGenerate p h body => Sys2Proof.Machine.execStepGenerate p h body s
  | .stepAdmit p h body => Sys2Proof.Machine.execStepAdmit p h body s
  | .stepCancel p h body => Sys2Proof.Machine.execStepCancel p h body s
  | .copy p h body => Sys2Proof.Machine.execCopy p h body s
  | .migrate p h body => Sys2Proof.Machine.execMigrate p h body s
  | .collect p h body => Sys2Proof.Machine.execCollect p h body s
  | .semop p h body => Sys2Proof.Machine.execSemop p h body s
  | .tableSwitch p h body => Sys2Proof.Machine.execTableSwitch p h body s
  | .indexMerge p h body => Sys2Proof.Machine.execIndexMerge p h body s
  | .listCapsule p h body => Sys2Proof.Machine.execListCapsule p h body s
  | .commandIssue c => Sys2Proof.Machine.execCommandIssue c s
  | .commandCommit c => Sys2Proof.Machine.execCommandCommit c s
  | .tableSwitchDrain c => Sys2Proof.Machine.execTableSwitchDrain c s
  | .recordWrite p => Sys2Proof.Machine.execRecordWrite p s
  | .cancel p => Sys2Proof.Machine.execCancel p s
  | .takeUnit core griddle => Sys2Proof.Machine.execTakeUnit core griddle s
  | .haloCopy c entry stripe => Sys2Proof.Machine.execHaloCopy c entry stripe s
  | .passWatchdog core griddle => Sys2Proof.Machine.execPassWatchdog core griddle s
  | .semValueWrite die value => Sys2Proof.Machine.execSemValueWrite die value s
  | .lend core => Sys2Proof.Machine.execLend core s
  | .longWait core => Sys2Proof.Machine.execLongWait core s
  | .textSlotCommit engine => Sys2Proof.Machine.execTextSlotCommit engine s
  | .stepBoundary p model => Sys2Proof.Machine.execStepBoundary p model s
  | .prefillPassStart p request => Sys2Proof.Machine.execPrefillPassStart p request s
  | .prefillPassCommit p request => Sys2Proof.Machine.execPrefillPassCommit p request s
  | .handleDrop p => Sys2Proof.Machine.execHandleDrop p s
  | .servingEnable p => Sys2Proof.Machine.execServingEnable p s
  | .servingDisable p => Sys2Proof.Machine.execServingDisable p s
  | .prtRun p => Sys2Proof.Machine.execPrtRun p s
  | .prtSuspend p => Sys2Proof.Machine.execPrtSuspend p s
  | .prtRelease p => Sys2Proof.Machine.execPrtRelease p s
  | .suspendCommitsDone p => Sys2Proof.Machine.execSuspendCommitsDone p s
  | .writebackDone p => Sys2Proof.Machine.execWritebackDone p s
  | .preloadDone p => Sys2Proof.Machine.execPreloadDone p s
  | .shadowCommit page => Sys2Proof.Machine.execShadowCommit page s
  | .streamListCommit p => Sys2Proof.Machine.execStreamListCommit p s
  | .portModeCommit port => Sys2Proof.Machine.execPortModeCommit port s
  | .funnelFillStart p => Sys2Proof.Machine.execFunnelFillStart p s
  | .pageCopyDone page => Sys2Proof.Machine.execPageCopyDone page s
  | .oldFrameRelease page => Sys2Proof.Machine.execOldFrameRelease page s
  | .arbRequest arb port req cycles => Sys2Proof.Machine.execArbRequest arb port req cycles s
  | .arbGrantDone arb cycles => Sys2Proof.Machine.execArbGrantDone arb cycles s
  | .arbWatchdog arb ticks => Sys2Proof.Machine.execArbWatchdog arb ticks s
  | .portRestore arb => Sys2Proof.Machine.execPortRestore arb s
  | .wordLineProgrammed ch die => Sys2Proof.Machine.execWordLineProgrammed ch die s
  | .writeBufferTimeout ch die => Sys2Proof.Machine.execWriteBufferTimeout ch die s
  | .flashFlush => Sys2Proof.Machine.execFlashFlush s
  | .flashShutdown => Sys2Proof.Machine.execFlashShutdown s
  | .flashFormat => Sys2Proof.Machine.execFlashFormat s
  | .mapLoadDone => Sys2Proof.Machine.execMapLoadDone s
  | .mapRebuildDone seconds => Sys2Proof.Machine.execMapRebuildDone seconds s
  | .reclaim ch => Sys2Proof.Machine.execReclaim ch s
  | .wearLevel ch => Sys2Proof.Machine.execWearLevel ch s
  | .fold ch => Sys2Proof.Machine.execFold ch s
  | .relocationDone ch lua => Sys2Proof.Machine.execRelocationDone ch lua s
  | .oldBlockErase blk => Sys2Proof.Machine.execOldBlockErase blk s
  | .readVerify ch band failed => Sys2Proof.Machine.execReadVerify ch band failed s
  | .patrolStep sample => Sys2Proof.Machine.execPatrolStep sample s
  | .programFailure blk => Sys2Proof.Machine.execProgramFailure blk s
  | .eraseFailure blk => Sys2Proof.Machine.execEraseFailure blk s
  | .unitLost lua => Sys2Proof.Machine.execUnitLost lua s
  | .dieLost ch die => Sys2Proof.Machine.execDieLost ch die s
  | .linkUp sub => Sys2Proof.Machine.execLinkUp sub s
  | .linkDown sub => Sys2Proof.Machine.execLinkDown sub s
  | .arpRequest sub q => Sys2Proof.Machine.execArpRequest sub q s
  | .neighborSolicitation sub q => Sys2Proof.Machine.execNeighborSolicitation sub q s
  | .icmpEcho sub q => Sys2Proof.Machine.execIcmpEcho sub q s
  | .pfcFrame port prio quanta => Sys2Proof.Machine.execPfcFrame port prio quanta s
  | .cnpReceived qp => Sys2Proof.Machine.execCnpReceived qp s
  | .roceRdmaWrite qp psn ce rkey va data => Sys2Proof.Machine.execRoceRdmaWrite qp psn ce rkey va data s
  | .roceRdmaRead qp psn ce rkey va len => Sys2Proof.Machine.execRoceRdmaRead qp psn ce rkey va len s
  | .roceAck qp psn nak => Sys2Proof.Machine.execRoceAck qp psn nak s
  | .roceRnrNak qp psn => Sys2Proof.Machine.execRoceRnrNak qp psn s
  | .roceAckTimeout qp => Sys2Proof.Machine.execRoceAckTimeout qp s
  | .mgmtReadReg req => Sys2Proof.Machine.execMgmtReadReg req s
  | .mgmtWriteReg req => Sys2Proof.Machine.execMgmtWriteReg req s
  | .mgmtReadMem req => Sys2Proof.Machine.execMgmtReadMem req s
  | .mgmtWriteMem req => Sys2Proof.Machine.execMgmtWriteMem req s
  | .qpSet req => Sys2Proof.Machine.execQpSet req s
  | .qpGet req => Sys2Proof.Machine.execQpGet req s
  | .fabricSet req => Sys2Proof.Machine.execFabricSet req s
  | .commSet req => Sys2Proof.Machine.execCommSet req s
  | .saSet req => Sys2Proof.Machine.execSaSet req s
  | .identify req => Sys2Proof.Machine.execIdentify req s
  | .readyMessage => Sys2Proof.Machine.execReadyMessage s
  | .fabricData h payload => Sys2Proof.Machine.execFabricData h payload s
  | .fabricAck h ack rtt => Sys2Proof.Machine.execFabricAck h ack rtt s
  | .fabricNack h psn code => Sys2Proof.Machine.execFabricNack h psn code s
  | .fabricSemop h op n => Sys2Proof.Machine.execFabricSemop h op n s
  | .fabricSemReply h result => Sys2Proof.Machine.execFabricSemReply h result s
  | .cancelNotice h stage => Sys2Proof.Machine.execCancelNotice h stage s
  | .cancelAck h stage => Sys2Proof.Machine.execCancelAck h stage s
  | .cancelConfirm h stage => Sys2Proof.Machine.execCancelConfirm h stage s
  | .cancelDefer h stage => Sys2Proof.Machine.execCancelDefer h stage s
  | .fabricLag h lambda count => Sys2Proof.Machine.execFabricLag h lambda count s
  | .fabricRelease h => Sys2Proof.Machine.execFabricRelease h s
  | .fabricRto conn psn => Sys2Proof.Machine.execFabricRto conn psn s
  | .ackDelayTimer conn => Sys2Proof.Machine.execAckDelayTimer conn s
  | .nackResendTimer conn psn => Sys2Proof.Machine.execNackResendTimer conn psn s
  | .connectionIdle conn => Sys2Proof.Machine.execConnectionIdle conn s
  | .rateUpdate conn => Sys2Proof.Machine.execRateUpdate conn s
  | .strobeEdge sample => Sys2Proof.Machine.execStrobeEdge sample s
  | .paceCalTimeout core => Sys2Proof.Machine.execPaceCalTimeout core s
  | .laggardCheck coreRates => Sys2Proof.Machine.execLaggardCheck coreRates s
  | .thermalTrip => Sys2Proof.Machine.execThermalTrip s
  | .supplyWarning rail mv => Sys2Proof.Machine.execSupplyWarning rail mv s
  | .supplyRecover rail minMv ticks => Sys2Proof.Machine.execSupplyRecover rail minMv ticks s
  | .coreRailReset die mv => Sys2Proof.Machine.execCoreRailReset die mv s
  | .islandRailReset rail mv => Sys2Proof.Machine.execIslandRailReset rail mv s
  | .deviceRailReset rail => Sys2Proof.Machine.execDeviceRailReset rail s
  | .clockLost clk => Sys2Proof.Machine.execClockLost clk s
  | .clockRestored clk => Sys2Proof.Machine.execClockRestored clk s
  | .correctedError site => Sys2Proof.Machine.execCorrectedError site s
  | .uncorrectedError site users => Sys2Proof.Machine.execUncorrectedError site users s
  | .selfTestDone site result => Sys2Proof.Machine.execSelfTestDone site result s
  | .keyLoad => Sys2Proof.Machine.execKeyLoad s
  | .keyLock => Sys2Proof.Machine.execKeyLock s
  | .keyClear => Sys2Proof.Machine.execKeyClear s
  | .attestationGo => Sys2Proof.Machine.execAttestationGo s
  | .attestationDone => Sys2Proof.Machine.execAttestationDone s
  | .measurementExtend => Sys2Proof.Machine.execMeasurementExtend s
  | .svnCommit => Sys2Proof.Machine.execSvnCommit s
  | .debugOpen => Sys2Proof.Machine.execDebugOpen s
  | .calendarSet => Sys2Proof.Machine.execCalendarSet s
  | .secLoLatch => Sys2Proof.Machine.execSecLoLatch s
  | .energyLoLatch => Sys2Proof.Machine.execEnergyLoLatch s
  | .vbatLow => Sys2Proof.Machine.execVbatLow s
  | .oscStop => Sys2Proof.Machine.execOscStop s
  | .counterClear core => Sys2Proof.Machine.execCounterClear core s
  | .headerCounterClear page => Sys2Proof.Machine.execHeaderCounterClear page s
  | .registerWrite m page off value => Sys2Proof.Machine.execRegisterWrite m page off value s
  | .i3cEntdaa addr => Sys2Proof.Machine.execI3cEntdaa addr s
  | .i3cPrivateWrite bytes => Sys2Proof.Machine.execI3cPrivateWrite bytes s
  | .i3cPrivateRead words => Sys2Proof.Machine.execI3cPrivateRead words s
  | .porNAssert => Sys2Proof.Machine.execPorNAssert s
  | .warmNAssert => Sys2Proof.Machine.execWarmNAssert s
  | .resetRelease => Sys2Proof.Machine.execResetRelease s
  | .bootVerified slotA slotB => Sys2Proof.Machine.execBootVerified slotA slotB s
  | .hbmTrained results => Sys2Proof.Machine.execHbmTrained results s
  | .ddrTrained spds => Sys2Proof.Machine.execDdrTrained spds s
  | .tierClearDone ddr => Sys2Proof.Machine.execTierClearDone ddr s
  | .readyRise ms => Sys2Proof.Machine.execReadyRise ms s
  | .flashChannelsTrained dies => Sys2Proof.Machine.execFlashChannelsTrained dies s
  | .retrain island => Sys2Proof.Machine.execRetrain island s
  | .refresh ch => Sys2Proof.Machine.execRefresh ch s
  | .stray sub why => Sys2Proof.Machine.execStray sub why s
  | .invalidRequest qp psn => Sys2Proof.Machine.execInvalidRequest qp psn s
  | .tapInstruction ins => Sys2Proof.Machine.execTapInstruction ins s

end Sys2Proof.Machine
end

