-- ==== Sys2Proof/WellFormed.lean ====
section
/-! DEFINITION. Well-formed commands: operands within the sizes that the spec gives what they name. A type already bounds
most operands; what it leaves is checked here. -/

namespace Sys2Proof

/-- Ports of an arbiter, by its number (R374, R375): HBM stacks 0 to 7, DDR5 channels 8 to 31, back egress 32 to 35; ports 0 to 27 of
a memory arbiter and 0 to 6 of a back-egress arbiter. -/
def portExists (arb port : Nat) : Bool := if arb < 32 then port ≤ 27 else port ≤ 6

/-- A flash block's channel and die (R388). -/
def blockOk (b : BlockId) : Bool := b.ch < 32 && b.die < 16

/-- A strobe sample has one entry for each rail, die, stack, core and core rail. -/
def sampleOk (x : StrobeSample) : Bool :=
  x.energy.length = 12 && x.dieTemp.length = 4 && x.stackTemp.length = 8 && x.ran.length = 4 && x.cores.length = 208
    && x.regulators.length = 4 && x.cores.all (fun c => c.steps.length = 4 && c.busy.length = 4)

/-- An image slot is at most 16 MiB (R499). -/
def slotOk (b : Option (List Byte)) : Bool := match b with | some l => l.length ≤ 0x1000000 | none => true

/-- A site lies in the structure it names: a page of the register space, an offset of a stockpot, an address of a tier. -/
def siteOk : ErrSite → Bool
  | .sram page _ => page < 0x580
  | .stockpot _ off => off < 0x8000000
  | .hbm a => a < 0x8000000000
  | .ddr a => a < 0x80000000000
  | .semWord _ | .griddle _ _ | .coreUnit _ | .lane _ _ | .bridge _ _ | .arbQueue _ _ | .store _ _ => true

/-- The operands of a command are of the sizes its row gives them. DESIGN CHOICE (log entry 97). -/
def Instr.wellFormed : Instr → Bool
  | .sendCapsule _ _ _ bytes => bytes.length ≤ 2 ^ 31
  | .intakeEntry _ => true
  | .listRecordAccept _ => true
  | .nop _ _ body => body.length ≤ 4032
  | .product _ _ body => body.length ≤ 4032
  | .attend _ _ body => body.length ≤ 4032
  | .gather _ _ body => body.length ≤ 4032
  | .scatterAdd _ _ body => body.length ≤ 4032
  | .search _ _ body => body.length ≤ 4032
  | .select _ _ body => body.length ≤ 4032
  | .tokenize _ _ body => body.length ≤ 4032
  | .detokenize _ _ body => body.length ≤ 4032
  | .pack _ _ body => body.length ≤ 4032
  | .stepGenerate _ _ body => body.length ≤ 4032
  | .stepAdmit _ _ body => body.length ≤ 4032
  | .stepCancel _ _ body => body.length ≤ 4032
  | .copy _ _ body => body.length ≤ 4032
  | .migrate _ _ body => body.length ≤ 4032
  | .collect _ _ body => body.length ≤ 4032
  | .semop _ _ body => body.length ≤ 4032
  | .tableSwitch _ _ body => body.length ≤ 4032
  | .indexMerge _ _ body => body.length ≤ 4032
  | .listCapsule _ _ body => body.length ≤ 4032
  | .commandIssue _ => true
  | .commandCommit _ => true
  | .tableSwitchDrain _ => true
  | .recordWrite _ => true
  | .cancel _ => true
  | .takeUnit _ _ => true
  | .haloCopy _ _ _ => true
  | .passWatchdog _ _ => true
  | .semValueWrite _ _ => true
  | .lend _ => true
  | .longWait _ => true
  | .textSlotCommit _ => true
  | .stepBoundary _ model => model < 2 ^ 16
  | .prefillPassStart _ request => request < 2 ^ 32
  | .prefillPassCommit _ request => request < 2 ^ 32
  | .handleDrop _ => true
  | .servingEnable _ => true
  | .servingDisable _ => true
  | .prtRun _ => true
  | .prtSuspend _ => true
  | .prtRelease _ => true
  | .suspendCommitsDone _ => true
  | .writebackDone _ => true
  | .preloadDone _ => true
  | .shadowCommit page => page < 0x580
  | .streamListCommit _ => true
  | .portModeCommit _ => true
  | .funnelFillStart _ => true
  | .pageCopyDone page => page < 2 ^ 27
  | .oldFrameRelease page => page < 2 ^ 27
  | .arbRequest arb port _ _ => portExists arb.val port.val
  | .arbGrantDone _ _ => true
  | .arbWatchdog _ _ => true
  | .portRestore _ => true
  | .wordLineProgrammed _ _ => true
  | .writeBufferTimeout _ _ => true
  | .flashFlush => true
  | .flashShutdown => true
  | .flashFormat => true
  | .mapLoadDone => true
  | .mapRebuildDone _ => true
  | .reclaim _ => true
  | .wearLevel _ => true
  | .fold _ => true
  | .relocationDone _ lua => lua < 2 ^ 35
  | .oldBlockErase blk => blockOk blk
  | .readVerify _ _ failed => failed.all blockOk
  | .patrolStep _ => true
  | .programFailure blk => blockOk blk
  | .eraseFailure blk => blockOk blk
  | .unitLost lua => lua < 2 ^ 35
  | .dieLost _ _ => true
  | .linkUp _ => true
  | .linkDown _ => true
  | .arpRequest _ _ => true
  | .neighborSolicitation _ _ => true
  | .icmpEcho _ q => q.payload.length ≤ 9216
  | .pfcFrame _ _ _ => true
  | .cnpReceived _ => true
  | .roceRdmaWrite _ _ _ _ _ data => data.length ≤ 2 ^ 31
  | .roceRdmaRead _ _ _ _ _ _ => true
  | .roceAck _ _ _ => true
  | .roceRnrNak _ _ => true
  | .roceAckTimeout _ => true
  | .mgmtReadReg req => req.body.length ≤ 1024 && req.tag.length = 16
  | .mgmtWriteReg req => req.body.length ≤ 1024 && req.tag.length = 16
  | .mgmtReadMem req => req.body.length ≤ 1024 && req.tag.length = 16
  | .mgmtWriteMem req => req.body.length ≤ 1024 && req.tag.length = 16
  | .qpSet req => req.body.length ≤ 1024 && req.tag.length = 16
  | .qpGet req => req.body.length ≤ 1024 && req.tag.length = 16
  | .fabricSet req => req.body.length ≤ 1024 && req.tag.length = 16
  | .commSet req => req.body.length ≤ 1024 && req.tag.length = 16
  | .saSet req => req.body.length ≤ 1024 && req.tag.length = 16
  | .identify req => req.body.length ≤ 1024 && req.tag.length = 16
  | .readyMessage => true
  | .fabricData _ payload => payload.length ≤ 9216
  | .fabricAck _ _ _ => true
  | .fabricNack _ _ _ => true
  | .fabricSemop _ _ _ => true
  | .fabricSemReply _ _ => true
  | .cancelNotice _ _ => true
  | .cancelAck _ _ => true
  | .cancelConfirm _ _ => true
  | .cancelDefer _ _ => true
  | .fabricLag _ _ _ => true
  | .fabricRelease _ => true
  | .fabricRto _ _ => true
  | .ackDelayTimer _ => true
  | .nackResendTimer _ _ => true
  | .connectionIdle _ => true
  | .rateUpdate _ => true
  | .strobeEdge sample => sampleOk sample
  | .paceCalTimeout _ => true
  | .laggardCheck _ => true
  | .thermalTrip => true
  | .supplyWarning _ _ => true
  | .supplyRecover _ _ _ => true
  | .coreRailReset _ _ => true
  | .islandRailReset _ _ => true
  | .deviceRailReset _ => true
  | .clockLost _ => true
  | .clockRestored _ => true
  | .correctedError site => siteOk site
  | .uncorrectedError site _ => siteOk site
  | .selfTestDone site _ => siteOk site
  | .keyLoad => true
  | .keyLock => true
  | .keyClear => true
  | .attestationGo => true
  | .attestationDone => true
  | .measurementExtend => true
  | .svnCommit => true
  | .debugOpen => true
  | .calendarSet => true
  | .secLoLatch => true
  | .energyLoLatch => true
  | .vbatLow => true
  | .oscStop => true
  | .counterClear _ => true
  | .headerCounterClear page => page < 0x580
  | .registerWrite _ page off _ => page < 0x580 && off < 0x1000 && off % 4 = 0
  | .i3cEntdaa _ => true
  | .i3cPrivateWrite bytes => bytes.length ≤ 264
  | .i3cPrivateRead words => words ≤ 64
  | .porNAssert => true
  | .warmNAssert => true
  | .resetRelease => true
  | .bootVerified slotA slotB => slotOk slotA && slotOk slotB
  | .hbmTrained results => results.length = 8
  | .ddrTrained spds => spds.length = 24
  | .tierClearDone _ => true
  | .readyRise _ => true
  | .flashChannelsTrained dies => dies.length = 32 && dies.all (fun l => l.length ≤ 16)
  | .retrain _ => true
  | .refresh _ => true
  | .stray _ _ => true
  | .invalidRequest _ _ => true
  | .tapInstruction _ => true

end Sys2Proof
end

