-- ==== Sys2Proof/Safety.lean ====
section
/-! DEFINITION. What statements speak of: the canonical form of memory, the outcomes of a step, and the properties that hold after
every step. -/

namespace Sys2Proof.Machine

/-- The canonical form of memory: keys rise and no cell is zero. -/
def Memory.wf (m : Mem) : Bool := tabWf 0#8 m

/-- A state's memory is in canonical form. -/
def State.memWf (s : State) : Bool := Memory.wf s.mem

/-- Command i completes from s with its effect: it answers a next state, which is some u, of which P holds, settled. What settling does is
`State.settle`, the same after every command. -/
def Completes (i : Instr) (s : State) (P : State → Prop) : Prop := ∃ u, exec i s = .next u.settle ∧ P u

/-- The high-water marks of R82, R164, R330 and R452 are not below what they mark. -/
def State.marksHold (s : State) : Prop :=
  (∀ p ∈ partIds, s.inflight p % 1024 ≤ s.field (pgCMD p) oCMD_INFLIGHT 25 16) ∧
    (∀ p ∈ partIds, (s.part p).srv.cancelUse % 8192 ≤ s.field (pgSRV p) oSRV_CANCEL_USE 28 16) ∧
    (∀ e ∈ s.cores, e.1 < 208 → e.2.trayNow.1 % 8192 ≤ s.field (pgTRY e.1) oTRY_TRY_PEAK 12 0) ∧
    s.contexts % 65536 ≤ s.field pgFABRIC oNETB_CONN_USE 31 16

/-- The capsule that an opcode row offers: partition, opcode, header, body (R139, R142). -/
def capsuleRow : Instr → Option (Fin 16 × Nat × CapHdr × List Byte)
  | .nop p h b => some (p, 0x00, h, b)
  | .product p h b => some (p, 0x01, h, b)
  | .attend p h b => some (p, 0x02, h, b)
  | .gather p h b => some (p, 0x03, h, b)
  | .scatterAdd p h b => some (p, 0x04, h, b)
  | .search p h b => some (p, 0x05, h, b)
  | .select p h b => some (p, 0x06, h, b)
  | .tokenize p h b => some (p, 0x07, h, b)
  | .detokenize p h b => some (p, 0x08, h, b)
  | .pack p h b => some (p, 0x09, h, b)
  | .stepGenerate p h b => some (p, 0x0A, h, withAction 0 b)
  | .stepAdmit p h b => some (p, 0x0A, h, withAction 1 b)
  | .stepCancel p h b => some (p, 0x0A, h, withAction 2 b)
  | .copy p h b => some (p, 0x0B, h, b)
  | .migrate p h b => some (p, 0x0C, h, b)
  | .collect p h b => some (p, 0x0D, h, b)
  | .semop p h b => some (p, 0x0E, h, b)
  | .tableSwitch p h b => some (p, 0x0F, h, b)
  | .indexMerge p h b => some (p, 0x10, h, b)
  | .listCapsule p h b => some (p, 0x00, { h with flags := h.flags ||| 1#16 }, b)
  | _ => none

/-- Nothing is left for `State.settle` to do: no bytes to count, no loan or reported wait, no packet outstanding or queued, no RELEASE owed,
no frame waiting to be a hole, no packet number past 2^62, and the marks hold. -/
structure State.Quiet (s : State) : Prop where
  counted : s.flash.hostWr = []
  loans : ∀ e ∈ s.cores, e.2.lent = 0 ∧ e.2.reported = false ∧ e.2.borrowGate = 0
  packets : ∀ t ∈ s.net.txConns, t.backlog = [] ∧ t.outstanding = []
  owed : s.net.owed = []
  holes : s.errors.noSpare = []
  numbers : ∀ e ∈ s.net.subs, ∀ a ∈ e.2.tx, a.nextPn ≤ 2 ^ 62
  marks : s.marksHold

/-- The receive context that a packet finds or opens (R434): its connection's own, which one with SYN outside its window replaces; with none, one with SYN
opens it while contexts are left. -/
def State.rxFor (s : State) (p : Nat) (h : FabHdr) : Option RxConn :=
  let syn := bit h.flags.toNat 0
  let start : RxConn := ⟨rxName p h, h.comm.toNat, h.psn.toNat, [], 0, 0, 0⟩
  match s.rx? p h with
  | some x => if syn && x.place h.psn.toNat true = .outside then some start else some x
  | none => if syn && s.contexts < 16384 then some start else none

/-- The page that a row of shadow commits names (R10). -/
def commitRow : Instr → Option Nat
  | .shadowCommit page => some page
  | .streamListCommit p => some (pgFNL p.val)
  | .portModeCommit q => some (pgPORT q.val)
  | .textSlotCommit e => some (pgMDL e.val)
  | _ => none

/-- The operation number and the request of a row of R430. -/
def mgmtRow : Instr → Option (Nat × MgmtReq)
  | .mgmtReadReg r => some (0x01, r)
  | .mgmtWriteReg r => some (0x02, r)
  | .mgmtReadMem r => some (0x03, r)
  | .mgmtWriteMem r => some (0x04, r)
  | .qpSet r => some (0x05, r)
  | .qpGet r => some (0x06, r)
  | .fabricSet r => some (0x07, r)
  | .commSet r => some (0x08, r)
  | .saSet r => some (0x09, r)
  | .identify r => some (0x0A, r)
  | _ => none

/-- The header of a row that a fabric packet with a PSN makes (R433). -/
def fabricRow : Instr → Option FabHdr
  | .fabricData h _ => some h
  | .fabricSemop h _ _ => some h
  | .fabricSemReply h _ => some h
  | .fabricRelease h => some h
  | .fabricLag h _ _ => some h
  | .cancelNotice h _ => some h
  | .cancelAck h _ => some h
  | .cancelConfirm h _ => some h
  | .cancelDefer h _ => some h
  | _ => none

end Sys2Proof.Machine
end

