-- ==== Sys2Proof/Certificates/Slice0/Obligations.lean ====
section
/-! DEFINITION. The statements for the provers. Settling, which follows every command, is `State.settle`; `SettleQuiet` and `SettleKeeps` say
what it does. -/

open Sys2Proof Sys2Proof.Machine

/-- A step runs the front command; an empty queue idles (the model's choice, log entry 4). -/
def Obligations.StepRunsFront : Prop :=
  (∀ (c : Instr) (rest : List Instr) (s : State),
    step { s with pending := c :: rest } = exec c { s with pending := rest }) ∧
  (∀ s : State, s.pending = [] → step s = .next s)

/-- No command stops the block, and what every command leaves is settled. -/
def Obligations.EveryCommandAnswersNext : Prop :=
  ∀ (i : Instr) (s : State), ∃ u : State, exec i s = .next u.settle

/-- The PEAK fields of INFLIGHT, CANCEL_USE, TRY_PEAK and CONN_USE never stand below what they mark. The model's choices in it: log entries 86 and 101. -/
def Obligations.MarksHold : Prop :=
  ∀ s t : State, s.marksHold → step s = .next t → t.marksHold

/-- The marks hold at reset. -/
def Obligations.MarksHoldAtReset : Prop := State.reset.marksHold

/-- R485: an uncovered frame without a reserve frame is a hole after every command. The model's choices in it: log entry 7. -/
def Obligations.UncoveredFramesAreHoles : Prop :=
  ∀ (i : Instr) (s t : State), exec i s = .next t →
    (∀ a, ErrSite.hbm a ∈ t.errors.noSpare → t.hbmPageOf (a / pageBytes) ∈ t.errors.hbmHoles ∨ t.frameCovered false (t.hbmPageOf (a / pageBytes)) = true) ∧
    (∀ a, ErrSite.ddr a ∈ t.errors.noSpare → t.ddrPageOf (a / pageBytes) ∈ t.errors.ddrHoles ∨ t.frameCovered true (t.ddrPageOf (a / pageBytes)) = true)

/-- What `State.settle` does where nothing is left for it: the frame of the per-command statements. -/
def Obligations.SettleQuiet : Prop :=
  ∀ s : State, s.Quiet → s.settle = { s with freeCtr := s.freeCtr + 1 }

/-- The parts of the state that settling leaves alone in every state. -/
def Obligations.SettleKeeps : Prop :=
  ∀ s : State,
    s.settle.pending = s.pending ∧ s.settle.fitted = s.fitted ∧ s.settle.start = s.start ∧ s.settle.strobes = s.strobes ∧
    s.settle.tiers = s.tiers ∧ s.settle.dies = s.dies ∧ s.settle.rails = s.rails ∧ s.settle.nextSeq = s.nextSeq ∧
    s.settle.texts = s.texts ∧ s.settle.arbs = s.arbs ∧ s.settle.sec = s.sec ∧ s.settle.cal = s.cal ∧ s.settle.i3cAddr = s.i3cAddr ∧
    ((∀ t ∈ s.net.txConns, t.down = true → t.backlog = []) → s.settle.tables = s.tables ∧ s.settle.indexes = s.indexes)

/-- What reset leaves (the empty memory is the model's choice, log entry 6). The model's choices in it: log entries 2, 3 and 6. -/
def Obligations.ResetState : Prop :=
  (∀ k, State.reset.sem k = ⟨0, 0, false, false, false⟩) ∧
  (∀ i, State.reset.meas i = List.replicate 32 0#8) ∧
  (∀ i, (State.reset.table i).ptr = 0 ∧ (State.reset.table i).version = 0 ∧ (State.reset.index i).ptr = 0) ∧
  State.reset.cal.valid = false ∧ State.reset.start.stage = 0 ∧ State.reset.start.ready = false ∧
  (∀ p, (State.reset.part p).st = .free) ∧ State.reset.cmds = [] ∧ State.reset.lists = [] ∧ State.reset.pending = [] ∧
  State.reset.mem = [] ∧
  (∀ p, p < 16 → State.reset.rerunLimit p = 15) ∧
  State.reset.stored pgTRV oHDR_EVENT_EN 0 = 0x3F#32 ∧ State.reset.stored pgTRV oHDR_CONTROL 0 = 1#32

/-- The canonical form of memory is kept by what writes it. -/
def Obligations.MemoryKeepsForm : Prop :=
  State.reset.memWf = true ∧
  ∀ s : State, s.memWf = true →
    (∀ k bs, (s.putPhysList k bs).memWf = true) ∧ (∀ k n, (s.zeroPhys k n).memWf = true) ∧
    (∀ a b n, (s.copyPhys a b n).memWf = true) ∧
    (∀ p d a bs t, s.writeFor p d a bs = .ok t → t.memWf = true)

/-- Read after write in the HBM zone, and the frame of the write. The model's choices in it: log entry 6. -/
def Obligations.HbmReadsBack : Prop :=
  ∀ (s t : State) (p a : Nat) (bs : List Byte), s.memWf = true → s.errors.poison = [] → s.cmds = [] →
    a + bs.length ≤ hbmSize → a % 4096 + bs.length ≤ 4096 → (∀ i, i < bs.length → s.backed (a + i) = true) →
    s.writeFor p none a bs = .ok t →
      t.readBytes p a bs.length = .ok bs ∧
      ∀ k, (k < s.hbmPhys a ∨ s.hbmPhys a + bs.length ≤ k) → t.physByte k = s.physByte k

/-- Acceptance of each opcode row, with its frame. The model's choices in it: log entry 9. -/
def Obligations.CapsuleAccepted : Prop :=
  ∀ (i : Instr) (s : State) (p : Fin 16) (op : Nat) (h : CapHdr) (body : List Byte),
    capsuleRow i = some (p, op, h, body) → hIsList h = false →
    ((s.part p).st = .active ∨ (s.part p).st = .resuming) → s.listWaits p = false → s.room p = true →
    s.checks p op h body false false = none →
      let t : State := { s with
        nextSeq := s.nextSeq + 1
        cmds := s.cmds ++ [newCmd ⟨s.nextSeq, 0⟩ p op h body] }
      ((∀ e ∈ hWaits h, entKind e ≠ 0 → (s.sem (entSem e)).poison = false) → exec i s = .next t.settle) ∧
      ((∃ e ∈ hWaits h, entKind e ≠ 0 ∧ (s.sem (entSem e)).poison = true) →
        exec i s = .next (t.endCmd (newCmd ⟨s.nextSeq, 0⟩ p op h body) stDATA_ERROR 0).settle)

/-- Backpressure on each opcode row. The model's choices in it: log entries 5 and 105. -/
def Obligations.CapsuleWaits : Prop :=
  ∀ (i : Instr) (s : State) (p : Fin 16) (op : Nat) (h : CapHdr) (body : List Byte),
    capsuleRow i = some (p, op, h, body) →
    (((s.part p).st ≠ .active ∧ (s.part p).st ≠ .resuming) ∨ s.listWaits p = true ∨ (hIsList h = false ∧ s.room p = false) ∨
      (hIsList h = true ∧ 64 ≤ (s.listsOf p).length)) →
      exec i s = .next s.settle

/-- Rejection of each opcode row. The model's choices in it: log entries 44, 45 and 46. -/
def Obligations.CapsuleRejected : Prop :=
  ∀ (i : Instr) (s : State) (p : Fin 16) (op : Nat) (h : CapHdr) (body : List Byte) (r : Reject),
    capsuleRow i = some (p, op, h, body) → hIsList h = false →
    ((s.part p).st = .active ∨ (s.part p).st = .resuming) → s.listWaits p = false → s.room p = true →
    s.checks p op h body false false = some r →
      exec i s = .next (State.settle
        (({ s with nextSeq := s.nextSeq + 1 } : State).rejectCmd (newCmd ⟨s.nextSeq, 0⟩ p op h body) r))

/-- Checks 1 and 2 of R147 in table order. -/
def Obligations.ChecksReportFirst : Prop :=
  ∀ (s : State) (p op : Nat) (h : CapHdr) (body : List Byte),
    (h.version ≠ 1#8 → s.checks p op h body false false = some ⟨stBAD_HEADER, 0x00, 0, 0xFF, none⟩) ∧
    (h.version = 1#8 → hIsList h = false → h.length.toNat ≠ 64 + body.length →
      s.checks p op h body false false = some ⟨stBAD_HEADER, 0x02, 0, 0xFF, none⟩) ∧
    (0x10 < op → h.version = 1#8 → h.length.toNat = 64 + body.length → body.length ≤ 4032 → h.flags.toNat < 0x80 → hIsList h = false →
      hRnd h < 2 → h.energy.toNat < 16 → h.rsv ≠ 0#8 →
      s.checks p op h body false false = some ⟨stBAD_HEADER, 0x07, 0, 0xFF, none⟩) ∧
    (0x10 < op → headerBad op h body.length none false = none → hIsList h = false →
      s.checks p op h body false false = some ⟨stBAD_OPCODE, 0, 0, 0xFF, none⟩)

/-- LIST_CAPSULE accepted. The model's choices in it: log entry 9. -/
def Obligations.ListCapsuleAccepted : Prop :=
  ∀ (s : State) (p : Fin 16) (h : CapHdr) (body : List Byte),
    ((s.part p).st = .active ∨ (s.part p).st = .resuming) → s.listWaits p = false → (s.listsOf p).length < 64 →
    s.listBad p 0x00 { h with flags := h.flags ||| 1#16 } body = none →
      exec (.listCapsule p h body) s = .next (State.settle { s with
        nextSeq := s.nextSeq + 1
        lists := s.lists ++ [⟨s.nextSeq, p, h.tag.toNat, hQuiet h, fld body 0 8, 0, fld body 8 4⟩] })

/-- SEND_CAPSULE. The model's choices in it: log entries 5, 79 and 105. -/
def Obligations.SendCapsule : Prop :=
  ∀ (s : State) (qp : Fin 4096) (psn : BitVec 24) (bytes : List Byte) (p : Nat),
    let i := (s.qp qp.val).subport
    let n := (s.qp qp.val).packets bytes.length
    let r : State := (s.rxFrame i false).count (pgPORT (i / 4)) oNETP_RX_FRAMES (n - 1)
    (s.linked i = false → exec (.sendCapsule qp psn false bytes) s = .next s.settle) ∧
    (s.linked i = true → s.qpLive qp.val = some p → (s.qp qp.val).order psn.toNat = 0 →
      ((bytes.length < 64 ∨ 4096 < bytes.length) →
        exec (.sendCapsule qp psn false bytes) s = .next (r.nakError qp.val psn.toNat nakInvalid).settle) ∧
      (64 ≤ bytes.length → bytes.length ≤ 4096 → s.intakeFull p bytes = true →
        exec (.sendCapsule qp psn false bytes) s = .next (State.settle
          ((r.count pgFRONT oNETF_RNR_NAKS 1).qpFrames qp.val 1 (.roceAck qp.val psn.toNat nakRnr)))) ∧
      (64 ≤ bytes.length → bytes.length ≤ 4096 → s.intakeFull p bytes = false →
        exec (.sendCapsule qp psn false bytes) s = .next (State.settle
          ((r.taken qp.val psn.toNat n).acceptBytes p bytes false))))

/-- INTAKE_ENTRY. The model's choices in it: log entries 47 and 105. -/
def Obligations.IntakeEntry : Prop :=
  ∀ (s : State) (p : Fin 16) (e : List Byte),
    s.takes p.val = true → s.listWaits p.val = false → s.room p.val = true →
    s.readBytes p.val ((s.part p.val).intakeBase + 16 * (s.part p.val).intakePos) 16 = .ok e →
    let a := fld e 0 8
    let n := fld e 8 2
    let reject := fun (d : Nat) => exec (.intakeEntry p) s = .next (((s.consumeEntry p.val).rejectEntry p.val [] stBAD_HEADER d).settle)
    (bit (fld e 0xF 1) 7 ≠ (s.part p.val).intakePhase → exec (.intakeEntry p) s = .next (s.reportIntake p.val).settle) ∧
    (bit (fld e 0xF 1) 7 = (s.part p.val).intakePhase →
      ((fld e 0xA 5 ≠ 0 ∨ fld e 0xF 1 % 128 ≠ 0) → reject 0xF0) ∧
      (fld e 0xA 5 = 0 → fld e 0xF 1 % 128 = 0 → (n < 64 ∨ 4096 < n) → reject 0xF1) ∧
      (fld e 0xA 5 = 0 → fld e 0xF 1 % 128 = 0 → 64 ≤ n → n ≤ 4096 →
        (a % 64 ≠ 0 → reject 0xF2) ∧
        (a % 64 = 0 → s.inWindow p.val false a n = false → reject 0xF3) ∧
        (∀ b, a % 64 = 0 → s.inWindow p.val false a n = true → s.readBytes p.val a n = .ok b → fld b 2 2 = n → hIsList (hdrOf b) = false →
          exec (.intakeEntry p) s = .next ((s.consumeEntry p.val).acceptBytes p.val b false).settle)))

/-- `State.consumeEntry`. The model's choices in it: log entry 47. -/
def Obligations.ConsumeEntry : Prop :=
  ∀ (s : State) (p : Nat),
    let x := s.part p
    let y : Part := { x with
      intakePos := (x.intakePos + 1) % 2 ^ x.intakeLog2
      intakePhase := if (x.intakePos + 1) % 2 ^ x.intakeLog2 = 0 then !x.intakePhase else x.intakePhase
      intakeCount := (x.intakeCount + 1) % 2 ^ 32 }
    ((x.intakeCount + 1) % 2 ^ 32 % 16 ≠ 0 → s.consumeEntry p = s.setPart p y) ∧
    ((x.intakeCount + 1) % 2 ^ 32 % 16 = 0 → s.consumeEntry p = (s.setPart p y).reportIntake p)

/-- LIST_RECORD_ACCEPT. The model's choices in it: log entries 5, 45 and 66. -/
def Obligations.ListRecord : Prop :=
  ∀ (s : State) (p : Fin 16), s.takes p.val = true → s.room p.val = true →
    ((s.listsOf p.val).find? (fun l => l.accepted < l.total) = none → exec (.listRecordAccept p) s = .next s.settle) ∧
    (∀ (l : ListCap) (h : List Byte), (s.listsOf p.val).find? (fun l => l.accepted < l.total) = some l →
      s.inWindow l.part false l.next 64 = true → s.readBytes l.part l.next 64 = .ok h →
      let n := fld h 2 2
      let m : ListCap := { l with next := l.next + roundUp n 64, accepted := l.accepted + 1 }
      let u : State := { s with lists := s.lists.map (fun k => if k.seq = l.seq then m else k) }
      ((n < 64 ∨ 4096 < n) → exec (.listRecordAccept p) s = .next (s.failList l n).settle) ∧
      (∀ b, 64 ≤ n → n ≤ 4096 → s.inWindow l.part false l.next n = true → s.readBytes l.part l.next n = .ok b →
        (l.accepted + 1 ≠ l.total → exec (.listRecordAccept p) s = .next (u.acceptBytes l.part b true).settle) ∧
        (l.accepted + 1 = l.total → exec (.listRecordAccept p) s = .next ((u.acceptBytes l.part b true).endList m stOK).settle)))

/-- COMMAND_ISSUE. The model's choices in it: log entries 5, 32, 33 and 48. -/
def Obligations.CommandIssue : Prop :=
  ∀ (s : State) (r : CmdRef) (c : Cmd),
    (s.cmd? r = none → exec (.commandIssue r) s = .next s.settle) ∧
    (s.cmd? r = some c →
      let poisoned := c.phase = .waiting ∧ c.carried = false ∧ ∃ e ∈ hWaits c.hdr, entKind e ≠ 0 ∧ (s.sem (entSem e)).poison = true
      (poisoned → exec (.commandIssue r) s = .next (s.endCmd c stDATA_ERROR 0).settle) ∧
      (¬ poisoned →
        ((s.canIssue c = false ∨ s.earlierReady c = true) → exec (.commandIssue r) s = .next s.settle) ∧
        (s.canIssue c = true → s.earlierReady c = false →
          (s.stagingFor c = none → exec (.commandIssue r) s = .next (s.holdStaging c).settle) ∧
          (s.stagingFor c ≠ none → s.energyCheck c = none → exec (.commandIssue r) s = .next (s.holdEnergy c).settle) ∧
          (s.stagingFor c ≠ none → s.energyCheck c = some false →
            exec (.commandIssue r) s = .next (if c.opcode = opSTEP then s.issueStep c false else s.issueCmd c false).settle) ∧
          (s.stagingFor c ≠ none → s.energyCheck c = some true →
            exec (.commandIssue r) s = .next (if c.opcode = opSTEP then (s.count pgTRV oTRV_BORROWS 1).issueStep c true
              else (s.count pgTRV oTRV_BORROWS 1).issueCmd c true).settle))))

/-- The issue of a NOP. -/
def Obligations.NopIssues : Prop :=
  ∀ (s : State) (r : CmdRef) (c : Cmd), s.cmd? r = some c → c.opcode = opNOP → c.phase = .waiting → (s.part c.part).st = .active →
    (∀ e ∈ hWaits c.hdr, entKind e ≠ 0 → (s.sem (entSem e)).poison = false) → s.waitsMet c = true → s.earlierReady c = false →
    ∃ (u : State) (d : Cmd), exec (.commandIssue r) s = .next u.settle ∧
      d.ref = c.ref ∧ d.part = c.part ∧ d.hdr = c.hdr ∧ d.phase = .issued ∧ d.spans = [] ∧ d.outs = [] ∧ (∀ x ∈ d.ranges, x.lo = x.hi) ∧ d.takes = c.takeEntries ∧
      u.cmds = s.cmds.map (fun k => if k.ref = c.ref then d else k) ∧
      u.sems = (c.takeEntries.foldl (fun (t : State) e => t.semReserve e.1 e.2) s).sems ∧
      u.mem = s.mem ∧ u.pages = s.pages ∧ u.regs = s.regs ∧ u.tx = s.tx

/-- COMMAND_COMMIT. The model's choices in it: log entries 5, 49 and 91. -/
def Obligations.CommandCommit : Prop :=
  ∀ (s : State) (r : CmdRef) (c : Cmd),
    (s.cmd? r = none → exec (.commandCommit r) s = .next s.settle) ∧
    (s.cmd? r = some c →
      (s.workDone c = true → exec (.commandCommit r) s = .next (s.commitCmd c).settle) ∧
      (c.phase = .applying → (s.energyDies c).all (fun q => !((s.die q).inReset)) = true →
        exec (.commandCommit r) s = .next (s.scatterApply c).settle) ∧
      (s.workDone c = false → c.phase = .issued → c.opcode = opMIGRATE →
        exec (.commandCommit r) s = .next ((s.copiesLeft c).foldl (fun t g => t.startCopy c g) s).settle) ∧
      (s.workDone c = false → c.phase ≠ .applying → (c.phase = .issued → c.opcode ≠ opMIGRATE) →
        exec (.commandCommit r) s = .next s.settle))

/-- The commit of a NOP with one signal. -/
def Obligations.NopCommits : Prop :=
  ∀ (s : State) (r : CmdRef) (c : Cmd), s.cmd? r = some c → r.sub = 0 → c.opcode = opNOP → c.phase = .issued → hQuiet c.hdr = true →
    (∀ x ∈ c.ranges, x.lo = x.hi) → c.landing = [] → c.halo = [] → c.landSems = [] → c.fills = [] → c.takes = [] → c.spoiled = [] → c.outs = [] → c.status = stOK →
    s.unacked r = false → (s.part c.part).ring.waiting = [] → (s.part c.part).ring.heldFull = none →
    entKind c.hdr.signal0.toNat = 1 → entKind c.hdr.signal1.toNat = 0 → entKind c.hdr.signal2.toNat = 0 → entKind c.hdr.signal3.toNat = 0 →
    let k := entSem c.hdr.signal0.toNat
    let n := entN c.hdr.signal0.toNat
    (s.sem k).poison = false → (s.sem k).value + n ≤ 0xFFFFFFFF →
    ∃ u : State, exec (.commandCommit r) s = .next u.settle ∧
      u.cmds = s.cmds.filter (fun d => d.ref ≠ r) ∧
      u.sems = (s.setSem k { s.sem k with value := (s.sem k).value + n }).sems ∧
      u.mem = s.mem ∧ u.pages = s.pages ∧ u.regs = s.regs ∧ u.tx = s.tx

/-- TABLE_SWITCH_DRAIN. The model's choices in it: log entries 5 and 93. -/
def Obligations.SwitchDrains : Prop :=
  ∀ (s : State) (r : CmdRef) (c : Cmd),
    (s.cmd? r = none → exec (.tableSwitchDrain r) s = .next s.settle) ∧
    (s.cmd? r = some c →
      (c.phase = .draining → s.draining c = false → exec (.tableSwitchDrain r) s = .next (s.lastOrders c []).settle) ∧
      ((c.phase ≠ .draining ∨ s.draining c = true) → exec (.tableSwitchDrain r) s = .next s.settle))

/-- RECORD_WRITE. The model's choices in it: log entries 5 and 40. -/
def Obligations.RecordWrite : Prop :=
  ∀ (s : State) (p : Fin 16),
    exec (.recordWrite p) s = .next ((s.drainRing p.val).releaseGoOn p.val).settle ∧
    ((s.part p.val).ring.heldFull = none → (s.part p.val).ring.waiting = [] → (s.part p.val).changing ≠ some (31, 3) →
      exec (.recordWrite p) s = .next s.settle) ∧
    (∀ (r : Rec) (rest : List Rec), (s.part p.val).ring.heldFull = none → (s.part p.val).ring.waiting = r :: rest →
      (s.complRts p.val = false ∨ (s.part p.val).ringFree < r.slots.length) → exec (.recordWrite p) s = .next s.settle) ∧
    (∀ (r : Rec) (rest : List Rec), s.complRts p.val = true → r.slots.length ≤ (s.part p.val).ringFree →
      let t := match r.frees with
        | some c => (s.writeRec p.val r.slots).freeSlot c
        | none => s.writeRec p.val r.slots
      drainRecs p.val (r :: rest) s = drainRecs p.val rest (t.setPart p.val { t.part p.val with ring := { (t.part p.val).ring with waiting := rest } })) ∧
    (∀ (r : Rec) (c : CmdRef), (s.part p.val).changing = none → (s.part p.val).ring.heldFull = none → (s.part p.val).ring.waiting = [r] →
      r.frees = some c → s.complRts p.val = true →
      r.slots.length ≤ (s.part p.val).ringFree →
      ∃ u : State, exec (.recordWrite p) s = .next u.settle ∧
        u.cmds = s.cmds.filter (fun d => d.ref ≠ c) ∧ u.lists = s.lists.filter (fun l => l.seq ≠ c.seq) ∧
        (u.part p.val).ring.waiting = [] ∧ u.mem = s.mem ∧ u.sems = s.sems)

/-- CANCEL. The model's choices in it: log entries 7 and 11. -/
def Obligations.Cancel : Prop :=
  ∀ (s : State) (p : Fin 16),
    let g := pgCMD p.val
    let tag := s.field g oCMD_CANCEL_TAG_LO 31 0 + 2 ^ 32 * s.field g oCMD_CANCEL_TAG_HI 31 0
    (s.i3cAnswers g = false → exec (.cancel p) s = .next s.settle) ∧
    (s.i3cAnswers g = true → s.lists.filter (fun l => l.part = p.val && l.tag = tag) = [] →
      (s.cmds.filter (fun c => c.part = p.val && c.ref.sub = 0 && c.hdr.tag.toNat = tag) = [] →
        exec (.cancel p) s = .next (s.setField g oCMD_CANCEL_CTRL 3 2 3).settle) ∧
      (∀ c, s.cmds.filter (fun c => c.part = p.val && c.ref.sub = 0 && c.hdr.tag.toNat = tag) = [c] → s.cmd? ⟨c.ref.seq, 0⟩ = some c →
        (∀ l ∈ s.lists, ¬ (l.part = p.val ∧ l.tag = tag)) →
        ((c.phase = .waiting ∨ c.phase = .issued) →
          exec (.cancel p) s = .next ((s.endCmd c stCANCELLED 0).setField g oCMD_CANCEL_CTRL 3 2 1).settle) ∧
        (c.phase ≠ .waiting → c.phase ≠ .issued → exec (.cancel p) s = .next (s.setField g oCMD_CANCEL_CTRL 3 2 2).settle)))

/-- TAKE_UNIT. The model's choices in it: log entries 5, 50 and 91. -/
def Obligations.TakeUnit : Prop :=
  ∀ (s : State) (core : Fin 208) (g : Fin 4),
    let c := core.val
    let x := s.core c
    let h := s.held c g.val
    let mine := h.2.or h.1
    let stands := match mine with | some u => s.unitWaits u | none => false
    let atHalo := match mine with | some u => stands && !u.landing | none => false
    let busy := (x.hand.zipIdx.filter (fun e => e.2 ≠ g.val && e.1.isSome)).length
    let able := x.st = .enabled ∧ x.owner < 16 ∧ g.val ∉ x.stopped ∧ (s.die (c / 52)).held = false ∧ (s.die (c / 52)).inReset = false
    (¬ able → exec (.takeUnit core g) s = .next s.settle) ∧
    (able →
      ((atHalo = true ∨ s.openGriddles c ≤ busy) → exec (.takeUnit core g) s = .next (s.rest c g.val stands).settle) ∧
      (atHalo = false → busy < s.openGriddles c →
        (∀ u d, s.firstUnit c mine (s.dealt x.owner) = some (u, d) → exec (.takeUnit core g) s = .next (s.gain c g.val u d stands).settle) ∧
        (s.firstUnit c mine (s.dealt x.owner) = none →
          (stands = true → exec (.takeUnit core g) s = .next (s.rest c g.val true).settle) ∧
          (stands = false → ∀ u d, s.standUnit c (s.dealt x.owner) = some (u, d) →
            exec (.takeUnit core g) s = .next (s.gain c g.val u d false).settle) ∧
          (stands = false → s.standUnit c (s.dealt x.owner) = none → exec (.takeUnit core g) s = .next (s.rest c g.val false).settle)))) ∧
    (∀ u d, h = (none, none) → ∀ stood, s.gain c g.val u d stood = ((s.setCmd d).setHeld c g.val (some u) none).drawTray c) ∧
    (∀ u d v, h = (some v, none) → s.gain c g.val u d false = ((s.setCmd d).setHeld c g.val (some v) (some u)).drawTray c) ∧
    (∀ u v, h = (some v, some u) → u ≠ v → s.rest c g.val false = (s.setHeld c g.val (some u) none).freeSlots c (some v))

/-- HALO_COPY and PASS_WATCHDOG. The model's choices in it: log entries 5 and 62. -/
def Obligations.HaloAndWatchdog : Prop :=
  (∀ (s : State) (r : CmdRef) (c : Cmd) (entry stripe k : Nat), s.cmd? r = some c →
    let t := s.tilingOf c.part c.opcode c.hdr c.body
    let i := (t.units.take entry).sum + stripe
    let on := c.phase = .issued ∧ stripe + 1 < nth 0 t.units entry ∧ ∀ x ∈ c.ranges, ¬ (x.lo ≤ i ∧ i < x.hi)
    (¬ on → exec (.haloCopy r entry stripe) s = .next s.settle) ∧
    (on → c.halo.find? (fun h => h.2 = i + 1) = some (k, i + 1) → (s.sem k).poison = false →
      ((s.sem k).value = 0 → exec (.haloCopy r entry stripe) s = .next (((s.setCmd { c with haloRows := insertNat c.haloRows (i + 1) }).setSem k
        { s.sem k with value := 1 }).settle)) ∧
      (1 ≤ (s.sem k).value → exec (.haloCopy r entry stripe) s = .next s.settle))) ∧
  (∀ (s : State) (core : Fin 208) (g : Fin 4),
    let mine := (s.held core.val g.val).1
    let beyond := (s.held core.val g.val).2
    (mine = none → exec (.passWatchdog core g) s = .next s.settle) ∧
    (∀ u, mine = some u →
      (s.unitWaits u = true → exec (.passWatchdog core g) s = .next s.settle) ∧
      (s.unitWaits u = false → exec (.passWatchdog core g) s = .next
        ((((s.quiesce (.griddle core g)).setErr (pgGRD core.val) 2).killWhere
          (fun c => c.ref = u.cmd || beyond.any (fun v => v.cmd = c.ref)) causePass).beginTest
          (.griddle core g) 2).settle)))

/-- SEM_VALUE_WRITE, add and subtract. The model's choices in it: log entries 11 and 41. -/
def Obligations.SemaphoreOperations : Prop :=
  (∀ (s : State) (die : Fin 4) (v : Word),
    let k := die.val * 0x4000 + s.field (pgSEM die.val) oSEM_SEM_SEL 13 0
    ((s.i3cAnswers (pgSEM die.val) = false ∨ (s.die die.val).inReset = true) → exec (.semValueWrite die v) s = .next s.settle) ∧
    (s.i3cAnswers (pgSEM die.val) = true → (s.die die.val).inReset = false →
      exec (.semValueWrite die v) s = .next (s.setSem k ⟨v.toNat, (s.sem k).resv, false, false, false⟩).settle)) ∧
  (∀ (s : State) (k n m : Nat) (tag : Option (Nat × Nat)),
    let x := s.sem k
    (x.poison = true → s.semAdd k n m tag = (s.count (pgSEM (k / 0x4000)) oSEM_FAULTS 1, false) ∧
      s.semSub k n m tag = (s.count (pgSEM (k / 0x4000)) oSEM_FAULTS 1, false)) ∧
    (x.poison = false →
      (x.value + n ≤ 0xFFFFFFFF → s.semAdd k n m tag = (s.setSem k { x with value := x.value + n }, false)) ∧
      (0xFFFFFFFF < x.value + n →
        s.semAdd k n m tag = ((s.setSem k { x with value := 0xFFFFFFFF, satHi := true }).semSat k m 0xFFFFFFFF tag, true)) ∧
      (n ≤ x.value → s.semSub k n m tag = (s.setSem k { x with value := x.value - n }, false)) ∧
      (x.value < n → s.semSub k n m tag = ((s.setSem k { x with value := 0, satLo := true }).semSat k m 0 tag, true))))

/-- LEND and LONG_WAIT. The model's choices in it: log entries 5, 51 and 92. -/
def Obligations.LendAndReport : Prop :=
  (∀ (s : State) (core : Fin 208),
    let c := core.val
    let on := s.coreWaiting c = true ∧ (s.core c).lent = 0 ∧ s.field (pgSEM (c / 52)) oSEM_LEND_TICKS 31 0 ≠ 0
    (on → exec (.lend core) s = .next ((s.setCore c { s.core c with lent := 4 }).count (pgSEM (c / 52)) oSEM_LENDS 1).settle) ∧
    (¬ on → exec (.lend core) s = .next s.settle)) ∧
  (∀ (s : State) (core : Fin 208),
    let c := core.val
    let on := s.coreWaiting c = true ∧ (s.core c).reported = false ∧ s.field (pgSEM (c / 52)) oSEM_REPORT_TICKS 31 0 ≠ 0
    (¬ on → exec (.longWait core) s = .next s.settle) ∧
    (on → ∀ (u : UnitRef) (d : Cmd), ((s.core c).hand.filterMap id).head? = some u → s.cmd? u.cmd = some d → u.landing = true →
      let k := nth 0 d.landSems u.index
      exec (.longWait core) s = .next ((s.setCore c { s.core c with reported := true }).raise (pgSEM (c / 52)) none 4
        (semInfo k c (s.sem k).read) (some (d.hdr.tag.toNat, d.part))).settle) ∧
    (on → ∀ (u : UnitRef) (d : Cmd) (h : Nat × Nat), ((s.core c).hand.filterMap id).head? = some u → s.cmd? u.cmd = some d → u.landing = false →
      d.halo.find? (fun h => h.2 = u.index) = some h →
      exec (.longWait core) s = .next ((s.setCore c { s.core c with reported := true }).raise (pgSEM (c / 52)) none 4
        (semInfo h.1 c (s.sem h.1).read) (some (d.hdr.tag.toNat, d.part))).settle))

/-- The four rows of commits. The model's choices in it: log entries 11 and 87. -/
def Obligations.ShadowCommits : Prop :=
  ∀ (i : Instr) (page : Nat) (s : State) (k : PageKind) (n : Nat), commitRow i = some page → pageOf page = some (k, n) →
    ((s.i3cAnswers page = false ∨ s.pendingCm page = []) → exec i s = .next s.settle) ∧
    (s.i3cAnswers page = true → s.pendingCm page ≠ [] →
      let ps := s.pendingCm page
      let t : State := { s with shadow := s.shadow.filter (fun e => (shadowName e.1).1 ≠ page) }
      (k = .mdl → exec i s = .next (t.commitSlots n ps).settle) ∧
      (k ≠ .mdl → exec i s = .next ((((t.applyCm k page ps).hdrCount page oHDR_COMMITS).commitAction k n (ps.map (·.1)) t).settle)))

/-- COUNTER_CLEAR and HEADER_COUNTER_CLEAR. The model's choices in it: log entries 11 and 86. -/
def Obligations.CounterClears : Prop :=
  (∀ (s : State) (core : Fin 208),
    (s.i3cAnswers (pgGRD core.val) = true → (s.die (core.val / 52)).inReset = false →
      exec (.counterClear core) s =
        .next (State.settle ((List.range 8).foldl (fun t i => t.setStored (pgGRD core.val) (0x050 + 4 * i) 0 0#32) s))) ∧
    ((s.i3cAnswers (pgGRD core.val) = false ∨ (s.die (core.val / 52)).inReset = true) → exec (.counterClear core) s = .next s.settle)) ∧
  (∀ (s : State) (page : Nat) (k : PageKind × Nat), pageOf page = some k →
    (s.i3cAnswers page = true → exec (.headerCounterClear page) s =
        .next (State.settle ((List.range 6).foldl (fun t i => t.setStored page (0x028 + 4 * i) 0 0#32) s))) ∧
    (s.i3cAnswers page = false → exec (.headerCounterClear page) s = .next s.settle))

/-- REGISTER_WRITE. The model's choices in it: log entries 11 and 42. -/
def Obligations.RegisterWrites : Prop :=
  ∀ (s : State) (m : RegMaster) (page off : Nat) (v : Word),
    ((s.heard m page = false ∨ off % 4 ≠ 0 ∨ 0x1000 ≤ off ∨ 0x580 ≤ page) → exec (.registerWrite m page off v) s = .next s.settle) ∧
    (s.heard m page = true → off % 4 = 0 → off < 0x1000 → page < 0x580 → exec (.registerWrite m page off v) s = .next (s.regWrite m page off v).settle) ∧
    (s.heard m page = true → off % 4 = 0 → off < 0x1000 → page < 0x580 → (m = .mgmt ∨ m = .i3c) →
      (pageOf page = none → exec (.registerWrite m page off v) s = .next s.settle) ∧
      (∀ k n, pageOf page = some (k, n) →
        (off < 0x40 → exec (.registerWrite m page off v) s = .next (s.writeHeader k page off v).settle) ∧
        (off = oHDR_ERR_STATUS → exec (.registerWrite m page off v) s =
          .next (s.setStored page off 0 (s.stored page off 0 &&& ~~~ v)).settle) ∧
        ((off = oHDR_ERR_MASK ∨ off = oHDR_EVENT_EN) →
          exec (.registerWrite m page off v) s = .next (s.setStored page off 0 (v &&& errMask k)).settle) ∧
        (0x40 ≤ off → m = .mgmt → i3cOnly k off = true → exec (.registerWrite m page off v) s = .next (s.regDenied m page off).settle) ∧
        (0x40 ≤ off → (m = .i3c ∨ i3cOnly k off = false) →
          exec (.registerWrite m page off v) s = .next (s.writeBlock k n page off v).settle)))

/-- The three I3C rows. The model's choices in it: log entry 11. -/
def Obligations.I3cTarget : Prop :=
  (∀ (s : State) (a : BitVec 7),
    (s.alive = true → exec (.i3cEntdaa a) s = .next (State.settle { s with i3cAddr := some a })) ∧
    (s.alive = false → exec (.i3cEntdaa a) s = .next s.settle)) ∧
  (∀ (s : State) (bytes : List Byte) (words : Nat), (s.alive = false ∨ s.i3cAddr = none) →
    exec (.i3cPrivateWrite bytes) s = .next s.settle ∧ exec (.i3cPrivateRead words) s = .next s.settle) ∧
  (∀ (s : State) (a7 : BitVec 7), s.alive = true → s.i3cAddr = some a7 →
    (∀ bytes : List Byte, (bytes.length < 8 ∨ (bytes.length - 8) % 4 ≠ 0 ∨ 264 < bytes.length ∨ regSpan (fld bytes 0 8) ((bytes.length - 8) / 4) = false ∨
        s.i3cAnswers ((fld bytes 0 8 - regBase) / 0x1000) = false) →
      exec (.i3cPrivateWrite bytes) s = .next (s.send .i3cNack).settle) ∧
    (∀ (ad : List Byte) (b0 b1 b2 b3 : Byte), ad.length = 8 → regSpan (leNat ad) 1 = true → s.i3cAnswers ((leNat ad - regBase) / 0x1000) = true →
      exec (.i3cPrivateWrite (ad ++ [b0, b1, b2, b3])) s = .next (State.settle (({ s with i3cPtr := leNat ad } : State).regWrite .i3c
        ((leNat ad - regBase) / 0x1000) (leNat ad % 0x1000) (BitVec.ofNat 32 (leNat [b0, b1, b2, b3]))))) ∧
    (∀ words, (64 < words ∨ regSpan s.i3cPtr words = false ∨ s.i3cAnswers ((s.i3cPtr - regBase) / 0x1000) = false) →
      exec (.i3cPrivateRead words) s = .next (s.send .i3cNack).settle) ∧
    (regSpan s.i3cPtr 1 = true → s.i3cAnswers ((s.i3cPtr - regBase) / 0x1000) = true →
      let r := s.regRead .i3c ((s.i3cPtr - regBase) / 0x1000) (s.i3cPtr % 0x1000)
      exec (.i3cPrivateRead 1) s = .next (r.1.send (.i3cData [r.2])).settle))

/-- STEP_BOUNDARY, PREFILL_PASS_START and PREFILL_PASS_COMMIT. The model's choices in it: log entries 5, 67, 68 and 70. -/
def Obligations.ServingProgress : Prop :=
  (∀ (s : State) (p : Fin 16) (mod : Nat),
    (((s.srv p.val).steps.find? (fun t => t.model = mod) = none ∨ s.model? p.val mod = none) → exec (.stepBoundary p mod) s = .next s.settle) ∧
    (∀ (t : StepRun) (m : Model) (c : Cmd), (s.srv p.val).steps.find? (fun t => t.model = mod) = some t → s.model? p.val mod = some m →
      s.cmd? t.cmd = some c →
      ((s.recordsLeft t.cmd.seq = true ∨ c.phase ≠ .issued) → exec (.stepBoundary p mod) s = .next s.settle) ∧
      (s.recordsLeft t.cmd.seq = false → c.phase = .issued →
        (∀ e, s.contextRead p.val m t = .error e → exec (.stepBoundary p mod) s = .next (s.failCmd c e.1 e.2).settle) ∧
        (s.contextRead p.val m t = .ok () →
          (∀ e, mapE (s.fateOf p.val m t) t.batch = .error e → exec (.stepBoundary p mod) s = .next (s.failCmd c e.1 e.2).settle) ∧
          (∀ fates, mapE (s.fateOf p.val m t) t.batch = .ok fates →
            exec (.stepBoundary p mod) s = .next (s.stepBoundary p.val m t fates).settle))))) ∧
  (∀ (s : State) (p : Fin 16) (r : Nat),
    ((s.srv p.val).passes.find? (fun t => t.chunk.req = r) = none → exec (.prefillPassCommit p r) s = .next s.settle) ∧
    (∀ t : PassRun, (s.srv p.val).passes.find? (fun t => t.chunk.req = r) = some t →
      (s.recordsLeft t.cmd.seq = true → exec (.prefillPassCommit p r) s = .next s.settle) ∧
      (s.recordsLeft t.cmd.seq = false → exec (.prefillPassCommit p r) s = .next (State.settle
        ((((s.setRequest p.val r { s.request p.val r with length := t.chunk.start + t.chunk.len }).keepTaken p.val t.taken).count (pgSTP p.val)
          oSTP_PREFILL_ROWS t.chunk.len).modSrv p.val (fun v => { v with passes := v.passes.filter (fun u => u.cmd ≠ t.cmd) })))))) ∧
  (∀ (s : State) (p : Fin 16) (r : Nat), let q := s.request p.val r
    let on := (s.srv p.val).enabled = true ∧ r < 2 ^ s.reqLog2 p.val ∧ (s.part p.val).st = .active ∧ s.chunkLen p.val = 0 ∧
      (q.st = rqPREFILL ∨ q.st = rqDRAINING) ∧ q.length + 1 < q.prompt ∧ (∀ t ∈ (s.srv p.val).passes, t.model ≠ q.model) ∧
      s.passTurn p.val q.model = some r
    ((¬ on ∨ s.model? p.val q.model = none) → exec (.prefillPassStart p r) s = .next s.settle) ∧
    (∀ m : Model, on → s.model? p.val q.model = some m →
      let c := s.nextChunk p.val r m q
      (∀ u, s.pagesFor p.val r q.model m q c.start c.len = (u, none) → exec (.prefillPassStart p r) s = .next s.settle) ∧
      (∀ (u : State) (k : Taken), s.pagesFor p.val r q.model m q c.start c.len = (u, some k) →
        let w := (u.srvReads p.val [u.srvTable p.val, dirRange m q.dir]).modSrv p.val (fun x => { x with
          passes := x.passes ++ [⟨q.model, ⟨passSeq p.val q.model, 0⟩, c, k⟩]
          filling := (q.model, r) :: x.filling.filter (fun e => e.1 ≠ q.model) })
        let v := w.writeContext p.val (m.layout m.pfCtx m.pfRows) (w.chunkTokens p.val q c ⟨passSeq p.val q.model, 0⟩) (List.range' c.start c.len)
          [ctxEntry q (c.start + c.len) c.start]
        (∀ x, v.spawn p.val (passSeq p.val q.model) m.pf m.pfCount = .ok x → exec (.prefillPassStart p r) s = .next x.settle) ∧
        (∀ e, v.spawn p.val (passSeq p.val q.model) m.pf m.pfCount = .error e →
          exec (.prefillPassStart p r) s = .next (v.dropPass p.val (passSeq p.val q.model) true).settle))))

/-- SERVING_ENABLE, SERVING_DISABLE and HANDLE_DROP. The model's choices in it: log entries 5, 11, 71 and 102. -/
def Obligations.ServingSwitches : Prop :=
  ∀ (s : State) (p : Fin 16),
    let zeroed := fun (u : State) => u.zeroRange p.val (u.entryAddr p.val 0) (128 * 2 ^ u.reqLog2 p.val + 32 * 2 ^ u.handleLog2 p.val)
    (s.i3cAnswers (pgSRV p.val) = false → exec (.servingEnable p) s = .next s.settle ∧ exec (.servingDisable p) s = .next s.settle ∧
      exec (.handleDrop p) s = .next s.settle) ∧
    (s.i3cAnswers (pgSRV p.val) = true →
      ((s.srv p.val).enabled = true → exec (.servingEnable p) s = .next s.settle) ∧
      ((s.srv p.val).enabled = false → s.servingBad p.val = true →
        exec (.servingEnable p) s = .next (s.setErr (pgSRV p.val) 7).settle) ∧
      ((s.srv p.val).enabled = false → s.servingBad p.val = false →
        let t := zeroed s
        exec (.servingEnable p) s = .next (t.modSrv p.val (fun _ => { servingOff with
          enabled := true
          admitted := (t.srv p.val).admitted
          config := [oSRV_SRV_CFG, oSRV_HBM_POOL_LO, oSRV_HBM_POOL_HI, oSRV_HBM_FRAMES, oSRV_DDR_POOL_LO, oSRV_DDR_POOL_HI, oSRV_DDR_FRAMES].map
            (fun o => (o, t.field (pgSRV p.val) o 31 0)) })).settle) ∧
      ((s.srv p.val).enabled = false → s.servingBad p.val = false →
        ∃ u : State, exec (.servingEnable p) s = .next u.settle ∧ (u.srv p.val).enabled = true ∧ (u.srv p.val).hbmUsed = [] ∧
          (u.srv p.val).admitted = (s.srv p.val).admitted ∧ u.mem = (zeroed s).mem ∧ u.cmds = s.cmds ∧ u.regs = s.regs) ∧
      ((s.srv p.val).enabled = false → exec (.servingDisable p) s = .next s.settle) ∧
      ((s.srv p.val).enabled = true →
        let a := s.endWhere (fun c => c.part = p.val && c.opcode = opSTEP && c.ref.sub = 0 && c.phase = .issued) stCANCELLED 0
        let b := (a.srv p.val).passes.foldl (fun u t => u.dropPass p.val t.cmd.seq true) a
        let live := byAdmission (b.liveRequests p.val)
        let off := (zeroed (b.count (pgSRV p.val) oSRV_ENDS live.length)).modSrv p.val (fun v => { servingOff with admitted := v.admitted })
        (live = [] → exec (.servingDisable p) s = .next off.settle) ∧
        (live ≠ [] → exec (.servingDisable p) s =
          .next (off.postRecs p.val (live.map (fun e => b.endRecord e.2 endCANCELLED 0xFF))).settle)) ∧
      let h := s.field (pgSRV p.val) oSRV_HANDLE_LO 31 0 + 2 ^ 32 * s.field (pgSRV p.val) oSRV_HANDLE_HI 31 0
      ((s.srv p.val).enabled = false → exec (.handleDrop p) s = .next (s.setField (pgSRV p.val) oSRV_HANDLE_CTRL 2 1 3).settle) ∧
      ((s.srv p.val).enabled = true →
        let w := s.srvReads p.val ((s.probed p.val h).map (fun k => (s.handleAddr p.val k, 32)))
        (w.findHandle p.val h = none → exec (.handleDrop p) s = .next (w.setField (pgSRV p.val) oSRV_HANDLE_CTRL 2 1 3).settle) ∧
        (∀ k, w.findHandle p.val h = some k →
          let e := w.handleAt p.val k
          exec (.handleDrop p) s = .next (State.settle (((w.setHandle p.val k { e with st := 2 }).modSrv p.val
            (fun v => { v with drops := v.drops ++ [(e.dir, e.len, e.model)] })).setField (pgSRV p.val) oSRV_HANDLE_CTRL 2 1 1)))))

/-- PRT_RUN, PRT_SUSPEND, PRT_RELEASE. The model's choices in it: log entries 11 and 73. -/
def Obligations.PartitionChanges : Prop :=
  ∀ (s : State) (p : Fin 16),
    let g := pgPRT p.val
    let op := fun (n : Nat) => s.setField g oPRT_PRT_CTRL 2 1 n
    let from' := fun (n : Nat) => (op n).field g oPRT_PRT_CTRL 8 4
    (s.i3cAnswers g = false → exec (.prtRun p) s = .next s.settle ∧ exec (.prtSuspend p) s = .next s.settle ∧ exec (.prtRelease p) s = .next s.settle) ∧
    (s.i3cAnswers g = true → (∀ q ∈ partIds, (s.part q).changing = none) → s.changeQueue = [] → s.start.ready = true →
      ((s.part p.val).st ≠ .active → exec (.prtSuspend p) s = .next ((op 2).prtResult p.val runBAD_STATE 0).settle) ∧
      ((s.part p.val).st ≠ .suspended → exec (.prtRelease p) s = .next ((op 3).prtResult p.val runBAD_STATE 0).settle) ∧
      ((s.part p.val).st = .active → exec (.prtSuspend p) s = .next (State.settle
        ((((op 2).setPart p.val { s.part p.val with changing := some (31, 2) }).prtResult p.val 15 0).suspendStart p.val).moreChanges)) ∧
      ((s.part p.val).st = .suspended →
        let r := (op 3).releaseStart p.val
        (r.2 = true → exec (.prtRelease p) s = .next (r.1.releaseEnd p.val).moreChanges.settle) ∧
        (r.2 = false → exec (.prtRelease p) s =
          .next ((r.1.setPart p.val { r.1.part p.val with changing := some (31, 3) }).prtResult p.val 15 0).moreChanges.settle)) ∧
      (((s.part p.val).st = .free ∨ (s.part p.val).st = .suspended) → from' 1 = 31 →
        let t := ((op 1).setPart p.val { s.part p.val with changing := some (31, 1) }).prtResult p.val 15 0
        exec (.prtRun p) s = .next (State.settle
          (if (t.runStart p.val).2 then (t.runStart p.val).1 else (t.runStart p.val).1.changeOver p.val).moreChanges)) ∧
      (((s.part p.val).st = .free ∨ (s.part p.val).st = .suspended) → from' 1 < 16 → from' 1 ≠ p.val → (s.part (from' 1)).st = .active →
        exec (.prtRun p) s = .next (State.settle
          ((((op 1).setPart p.val { s.part p.val with changing := some (from' 1, 1) }).prtResult p.val 15 0).suspendStart (from' 1)).moreChanges)) ∧
      ((((s.part p.val).st ≠ .free ∧ (s.part p.val).st ≠ .suspended) ∨ (from' 1 ≠ 31 ∧ ¬ (from' 1 < 16 ∧ from' 1 ≠ p.val ∧ (s.part (from' 1)).st = .active))) →
        exec (.prtRun p) s = .next ((op 1).runFail p.val runBAD_STATE 0).moreChanges.settle)) ∧
    (s.i3cAnswers g = true → (s.part p.val).changing = none → (∃ q ∈ partIds, (s.part q).changing ≠ none) →
      let wait := fun (n : Nat) => ({ ((op n).prtResult p.val 15 0) with
        changeQueue := s.changeQueue.filter (fun e => e.1 ≠ p.val) ++ [(p.val, n, from' n)] } : State)
      exec (.prtRun p) s = .next (wait 1).settle ∧ exec (.prtSuspend p) s = .next (wait 2).settle ∧ exec (.prtRelease p) s = .next (wait 3).settle) ∧
    (∀ u : State, ((u.releaseEnd p.val).part p.val) = partFree)

/-- SUSPEND_COMMITS_DONE, WRITEBACK_DONE, PRELOAD_DONE. The model's choices in it: log entries 5, 37, 73 and 74. -/
def Obligations.PartitionChangesEnd : Prop :=
  ∀ (s : State) (p : Fin 16),
    let x := s.part p.val
    let flash := x.flsShare.2 ≠ 0 ∨ (x.shared.1 ≠ 0 ∧ zoneOf x.shared.1 = .fls)
    let past := ∃ c ∈ s.cmds, c.part = p.val ∧ (c.phase = .applying ∨ c.phase = .answering ∨ c.phase = .draining)
    (x.st = .suspending → x.stage = 0 → ¬ past → exec (.suspendCommitsDone p) s = .next (s.suspendClear p.val).settle) ∧
    ((x.st ≠ .suspending ∨ x.stage ≠ 0 ∨ past) → exec (.suspendCommitsDone p) s = .next s.settle) ∧
    (x.st = .suspending → x.stage = 1 → s.coresUnderTest (s.coresOf p.val) = false →
      exec (.writebackDone p) s = .next ((s.suspendEnd p.val).suspended p.val).settle) ∧
    ((x.st ≠ .suspending ∨ x.stage ≠ 1 ∨ s.coresUnderTest (s.coresOf p.val) = true) → exec (.writebackDone p) s = .next s.settle) ∧
    (s.runWaiting = some p.val → exec (.preloadDone p) s = .next (s.runGoOn p.val).settle) ∧
    (s.runWaiting ≠ some p.val → x.st ≠ .resuming → exec (.preloadDone p) s = .next s.settle) ∧
    (x.st = .resuming → (∃ g ∈ s.preloadPages p.val, (s.page g).own p.val = none) →
      exec (.preloadDone p) s = .next (s.startPreload p.val).settle) ∧
    (x.st = .resuming → (∀ g ∈ s.preloadPages p.val, (s.page g).own p.val ≠ none) → flash → s.flash.mapState ≠ 3 →
      exec (.preloadDone p) s = .next s.settle) ∧
    (x.st = .resuming → (∀ g ∈ s.preloadPages p.val, (s.page g).own p.val ≠ none) → (¬ flash ∨ s.flash.mapState = 3) →
      let us := s.choose 0xE8 (2 ^ 32)
      let from' := match x.changing with | some c => c.1 | none => 31
      exec (.preloadDone p) s = .next (State.settle (((((((s.setPart p.val { x with st := .active }).changeOver p.val).setStored (pgPRT p.val) oPRT_SWITCH_US 0
        (BitVec.ofNat 32 us)).count (pgPRT p.val) oPRT_SWITCHES 1).prtResult p.val runOK 0).flagEvent (pgPRT p.val) 0 1
          (from' + us * 2 ^ 32) none).moreChanges)))

/-- FUNNEL_FILL_START, PAGE_COPY_DONE, OLD_FRAME_RELEASE. The model's choices in it: log entries 5, 74 and 75. -/
def Obligations.PageMoves : Prop :=
  (∀ (s : State) (p : Fin 16),
    let q := (s.part p.val).fillQueue.filter (fun g => ((s.page g).own p.val).isNone && !((s.page g).moves.any (fun m => m.part = p.val)))
    (q = [] → exec (.funnelFillStart p) s = .next (s.setPart p.val { s.part p.val with fillQueue := [] }).settle) ∧
    (∀ g rest, q = g :: rest →
      ∀ t : State,
        (s.startFill p.val g none [] = (t, false) →
          exec (.funnelFillStart p) s = .next (t.setPart p.val { t.part p.val with fillQueue := q }).settle) ∧
        (s.startFill p.val g none [] = (t, true) →
          exec (.funnelFillStart p) s = .next (t.setPart p.val { t.part p.val with fillQueue := rest }).settle))) ∧
  (∀ (s : State) (g : Nat),
    (pageZone g = .fls → s.flash.mapState ≠ 3 → exec (.pageCopyDone g) s = .next s.settle) ∧
    ((pageZone g ≠ .fls ∨ s.flash.mapState = 3) →
      exec (.pageCopyDone g) s = .next (((s.copyDone g).applyStalls g).resumeScatters).settle ∧
      ((s.page g).moves = [] → s.stalls = [] → (∀ c ∈ s.cmds, c.phase ≠ .applying) → exec (.pageCopyDone g) s = .next s.settle))) ∧
  (∀ (s : State) (g : Nat),
    let free := fun (e : Nat × List CmdRef) => ∀ c ∈ s.cmds, c.running = true → c.ref ∉ e.2
    ((∀ e ∈ (s.page g).old, ¬ free e) → exec (.oldFrameRelease g) s = .next s.settle) ∧
    (∀ (before after : List (Nat × List CmdRef)) (f : Nat) (rs : List CmdRef), (s.page g).old = before ++ (f, rs) :: after →
      (∀ e ∈ before, ¬ free e) → free (f, rs) →
        let t := s.setPage g { s.page g with old := before ++ after }
        (pageZone g ≠ .hbm → f < ddrBase / pageBytes → exec (.oldFrameRelease g) s = .next t.settle) ∧
        ((pageZone g = .hbm ∨ ddrBase / pageBytes ≤ f) →
          let site : ErrSite := if pageZone g = .hbm then t.pprSite true f else t.pprSite false (f - ddrBase / pageBytes)
          exec (.oldFrameRelease g) s = .next (State.settle
            { t with errors := { t.errors with tests := t.errors.tests ++ [⟨site, [], true, false, true⟩] } }))))

/-- ARB_REQUEST and ARB_GRANT_DONE. The model's choices in it: log entries 5, 32 and 77. -/
def Obligations.ArbiterGrants : Prop :=
  ∀ (s : State) (arb : Fin 36) (cycles : Nat),
    (s.alive = false → exec (.arbGrantDone arb cycles) s = .next s.settle ∧
      ∀ port req, exec (.arbRequest arb port req cycles) s = .next s.settle) ∧
    (s.alive = true →
      let b := s.refill arb.val cycles (s.arb arb.val)
      exec (.arbGrantDone arb cycles) s =
        .next (((((s.setArb arb.val { b with grant := none }).arbNext arb.val).countThrottled arb.val)).settle) ∧
      ∀ (port : Fin 32) (req : ArbReq), arbPortValid arb.val port.val = true → (b.port port.val).out = false →
        ((32 ≤ (b.port port.val).queue.length ∨ 0 < (b.port port.val).backoff) →
          exec (.arbRequest arb port req cycles) s = .next (s.setArb arb.val b).settle) ∧
        ((b.port port.val).queue.length < 32 → (b.port port.val).backoff = 0 → b.grant.isSome = true →
          let x := b.port port.val
          let c : Arb := { b.setPort port.val { x with queue := x.queue ++ [⟨req, 0, b.arrivals, false⟩] } with arrivals := b.arrivals + 1 }
          let late := c.pick.isSome && c.pickSpare && !c.stale && x.queue = [] && c.eligible req
          exec (.arbRequest arb port req cycles) s = .next (State.settle
            ((if late then (((s.setArb arb.val b).setArb arb.val c).setArb arb.val { c with stale := true }).count (pgARB arb.val) oARB_STALE 1
              else (s.setArb arb.val b).setArb arb.val c).countThrottled arb.val))) ∧
        ((b.port port.val).queue.length < 32 → (b.port port.val).backoff = 0 → b.grant = none → b.pick = none →
          let x := b.port port.val
          let c : Arb := { b.setPort port.val { x with queue := x.queue ++ [⟨req, 0, b.arrivals, false⟩] } with arrivals := b.arrivals + 1 }
          let t := (s.setArb arb.val b).setArb arb.val c
          (t.candidates arb.val c).1 ≠ [] → exec (.arbRequest arb port req cycles) s = .next (State.settle
            ((if c.heads.length = 1 ∧ x.queue = [] then (t.startGrant arb.val port.val).count (pgARB arb.val) oARB_BYPASS 1
              else t.arbNext arb.val).countThrottled arb.val))))

/-- R383: ARB_WATCHDOG's second bite, a refused ARB_REQUEST, PORT_RESTORE. The model's choices in it: log entries 5 and 77. -/
def Obligations.PortOutOfService : Prop :=
  (∀ (s : State) (arb : Fin 36) (ticks p : Nat) (q : Queued),
    let a := arb.val
    let b := s.arb a
    (b.grant = none → exec (.arbWatchdog arb ticks) s = .next s.settle) ∧
    (b.grant = some (p, q) →
      (ticks < b.limit → exec (.arbWatchdog arb ticks) s = .next s.settle) ∧
      (b.limit ≤ ticks →
        let again := match (b.port p).lastBite with | some t => decide (s.strobes ≤ t + 1024) | none => false
        let c : Arb := { b.setPort p { arbPortIdle with out := (b.port p).out || again, lastBite := some s.strobes } with
          grant := none
          pick := if b.pick = some p then none else b.pick }
        let tag := (q.req.cmd.bind s.cmd?).bind Cmd.evTag
        let t := ((((s.setArb a c).arbKill (q.req :: (b.port p).queue.map (·.req))).count (pgARB a) oARB_BITES 1).flagEvent (pgARB a) 1 1
          (p + q.req.cls.val * 2 ^ 5 + q.req.master.toNat * 2 ^ 16 + ticks % 2 ^ 32 * 2 ^ 32) tag)
        (again = false → exec (.arbWatchdog arb ticks) s = .next (t.arbNext a).settle) ∧
        (again = true → exec (.arbWatchdog arb ticks) s = .next
          ((((t.flagEvent (pgARB a) 2 2 (p + q.req.master.toNat * 2 ^ 16) tag).beginTest (.arbQueue arb (Fin.ofNat 32 p)) 2).arbNext a).settle))))) ∧
  (∀ (s : State) (arb : Fin 36) (port : Fin 32) (req : ArbReq) (cycles : Nat), s.alive = true → arbPortValid arb.val port.val = true →
    let b := s.refill arb.val cycles (s.arb arb.val)
    (b.port port.val).out = true →
      exec (.arbRequest arb port req cycles) s = .next ((s.setArb arb.val b).arbKill [req]).settle) ∧
  (∀ (s : State) (arb : Fin 36),
    let p := s.field (pgARB arb.val) oARB_PORT_SEL 4 0
    (s.i3cAnswers (pgARB arb.val) = true → exec (.portRestore arb) s =
      .next (s.setArb arb.val ((s.arb arb.val).setPort p { (s.arb arb.val).port p with out := false })).settle) ∧
    (s.i3cAnswers (pgARB arb.val) = false → exec (.portRestore arb) s = .next s.settle))

/-- WORD_LINE_PROGRAMMED, WRITE_BUFFER_TIMEOUT, FLASH_FLUSH, FLASH_SHUTDOWN, and FLASH_FORMAT where it has no effect. The model's choices in it: log entries 5, 11 and 78. -/
def Obligations.FlashWrites : Prop :=
  (∀ (s : State) (ch : Fin 32) (die : Fin 16),
    (die.val ∈ s.liveDies ch.val → s.lineFull ch.val die.val = true →
      exec (.wordLineProgrammed ch die) s = .next (s.programLine ch.val die.val).settle) ∧
    ((die.val ∉ s.liveDies ch.val ∨ s.lineFull ch.val die.val = false) → exec (.wordLineProgrammed ch die) s = .next s.settle) ∧
    (die.val ∈ s.liveDies ch.val → (s.chan ch.val).buffer ≠ [] →
      exec (.writeBufferTimeout ch die) s = .next (s.programLine ch.val die.val).settle) ∧
    ((die.val ∉ s.liveDies ch.val ∨ (s.chan ch.val).buffer = []) → exec (.writeBufferTimeout ch die) s = .next s.settle)) ∧
  (∀ s : State,
    let t := (List.range 32).foldl (fun u ch => State.drainBuffer ch (u.chan ch).buffer.length u) s
    let saved : State := { t with flash := { t.flash with patrolSaved := (t.flash.patrolPos, t.cal.seconds) } }
    (s.i3cAnswers pgFLS = false → exec .flashFlush s = .next s.settle ∧ exec .flashShutdown s = .next s.settle ∧
      exec .flashFormat s = .next s.settle) ∧
    (s.i3cAnswers pgFLS = true →
      exec .flashFlush s = .next t.settle ∧
      ((t.flash.formatted = true ∧ ∀ ch, ch < 32 → (t.chan ch).buffer = []) →
        exec .flashShutdown s = .next (State.settle { saved with flash := { saved.flash with marker := some (t.flash.seq - 1) } })) ∧
      ((t.flash.formatted = false ∨ ∃ ch, ch < 32 ∧ (t.chan ch).buffer ≠ []) → exec .flashShutdown s = .next saved.settle) ∧
      (((∃ p ∈ partIds, (s.part p).nonFree = true ∧ (s.part p).flsShare.2 ≠ 0) ∨ (s.chan 0).dies = []) → exec .flashFormat s = .next s.settle)))

/-- FLASH_FORMAT where it acts. The model's choices in it: log entries 11 and 78. -/
def Obligations.FlashFormats : Prop :=
  ∀ s : State, s.i3cAnswers pgFLS = true → (∀ p ∈ partIds, (s.part p).nonFree = true → (s.part p).flsShare.2 = 0) → (s.chan 0).dies ≠ [] →
    ∃ u : State, exec .flashFormat s = .next u.settle ∧
      u.flash.formatted = true ∧ u.flash.mapState = 3 ∧ u.flash.marker = none ∧ u.flash.map = [] ∧ u.flash.lostUnits = [] ∧
      u.flash.patrolPos = 0 ∧ u.flash.patrolElapsed = 0 ∧ u.flash.logical = u.goodRawBytes * 7 / 8 / pageBytes ∧
      u.mem = s.mem ∧ u.sems = s.sems ∧ u.cmds = s.cmds ∧ (∀ p, (u.part p).setup = (s.part p).setup)

/-- RECLAIM, WEAR_LEVEL, FOLD, REFRESH. The model's choices in it: log entries 5 and 78. -/
def Obligations.BlocksAreLeft : Prop :=
  ∀ (s : State) (ch : Fin 32),
    let c := ch.val
    let es := (s.goodBlocks c).map (fun k => (s.blk k).erases)
    let lo := es.foldl min (es.headD 0)
    let first := fun (b : Blk) => match b.units.head? with | some u => u.seq | none => 0
    let reclaim := s.bestBlock c (fun _ b => b.st = .closed && b.mode = 0 && b.leaving = 0)
      (fun x y => s.liveCount x.1 < s.liveCount y.1 || (s.liveCount x.1 = s.liveCount y.1 && x.2.erases < y.2.erases))
    let level := s.bestBlock c (fun _ b => b.st = .closed && b.data && b.leaving = 0 && b.erases = lo) (fun _ _ => false)
    let fold := s.bestBlock c (fun _ b => b.st = .closed && b.mode = 1 && b.leaving = 0) (fun x y => first x.2 < first y.2)
    let refresh := s.bestBlock c (fun _ b => b.st = .closed && b.refresh && b.leaving = 0) (fun _ _ => false)
    (s.flash.mapState ≠ 3 → exec (.reclaim ch) s = .next s.settle ∧ exec (.wearLevel ch) s = .next s.settle ∧
      exec (.fold ch) s = .next s.settle ∧ exec (.refresh ch) s = .next s.settle) ∧
    (s.flash.mapState = 3 →
      (∀ k, 50 * (s.freeBlocks c).length < (s.goodBlocks c).length → reclaim = some k → exec (.reclaim ch) s = .next (s.startLeaving k 1).settle) ∧
      ((s.goodBlocks c).length ≤ 50 * (s.freeBlocks c).length → exec (.reclaim ch) s = .next s.settle) ∧
      (∀ k, lo + max 16 (s.field pgFLS oFLS_WL_CFG 11 0) < es.foldl max 0 → (∀ e ∈ s.flash.blocks, keyCh e.1 = c → e.2.leaving ≠ 2) →
        level = some k → exec (.wearLevel ch) s = .next (s.startLeaving k 2).settle) ∧
      (∀ k, s.slcTarget ≤ s.slcHeld * 4096 → fold = some k → exec (.fold ch) s = .next (s.startLeaving k 3).settle) ∧
      (s.slcHeld * 4096 < s.slcTarget → exec (.fold ch) s = .next s.settle) ∧
      (∀ k, refresh = some k → exec (.refresh ch) s = .next ((s.startLeaving k 4).count pgFLS oFLS_REFRESHES 1).settle) ∧
      (es.foldl max 0 ≤ lo + max 16 (s.field pgFLS oFLS_WL_CFG 11 0) → exec (.wearLevel ch) s = .next s.settle) ∧
      (reclaim = none → exec (.reclaim ch) s = .next s.settle) ∧ (level = none → exec (.wearLevel ch) s = .next s.settle) ∧
      (fold = none → exec (.fold ch) s = .next s.settle) ∧ (refresh = none → exec (.refresh ch) s = .next s.settle))

/-- OLD_BLOCK_ERASE, ERASE_FAILURE, RELOCATION_DONE, READ_VERIFY, PROGRAM_FAILURE, PATROL_STEP, UNIT_LOST, DIE_LOST. The model's choices in it: log entries 5, 39 and 78. -/
def Obligations.BlocksChange : Prop :=
  (∀ (s : State) (b : BlockId), let k := blkKey b
    (s.erasable k = true →
      exec (.oldBlockErase b) s = .next ((s.setBlk k { blkFree with erases := (s.blk k).erases + 1 }).checkLife).settle ∧
      exec (.eraseFailure b) s = .next ((s.setBlk k { s.blk k with units := [], leaving := 0 }).retireBlk k).settle) ∧
    (s.erasable k = false → exec (.oldBlockErase b) s = .next s.settle ∧ exec (.eraseFailure b) s = .next s.settle) ∧
    ((s.blk k).st ≠ .open → exec (.programFailure b) s = .next s.settle) ∧
    ((s.blk k).st = .open → ((s.blk k).data && s.parityStands b.ch (s.blk k).band) = false →
      exec (.programFailure b) s = .next ((s.startLeaving k 5).retireBlk k).settle) ∧
    ((s.blk k).st = .open → ((s.blk k).data && s.parityStands b.ch (s.blk k).band) = true →
      exec (.programFailure b) s =
        .next (((s.startLeaving k 5).retireBlk k).count pgFLS oFLS_PARITY_RECOV (ceilDiv (s.blk k).units.length 4)).settle)) ∧
  (∀ (s : State) (ch : Fin 32) (lua : Nat),
    ((s.chan ch.val).relocs.find? (fun r => r.unit.lua = lua) = none → exec (.relocationDone ch lua) s = .next s.settle) ∧
    ((∀ d ∈ s.liveDies ch.val, s.openBlock ch.val d true = none) → exec (.relocationDone ch lua) s = .next s.settle) ∧
    (∀ (r : Reloc) (d k : Nat) (t : State), (s.chan ch.val).relocs.find? (fun r => r.unit.lua = lua) = some r →
      ((s.liveDies ch.val).filter (fun d => (s.openBlock ch.val d true).isSome))[s.choose 1
        ((s.liveDies ch.val).filter (fun d => (s.openBlock ch.val d true).isSome)).length]? = some d →
      s.openBlock ch.val d true = some (t, k) →
      let v := (t.program k [r.unit]).countBytes pgFLS oFLS_RELOCATED 4096
      let x := v.setChan ch.val { v.chan ch.val with relocs := (v.chan ch.val).relocs.filter (fun x => x ≠ r) }
      let w : State := if r.unit.kind = 0 ∧ tabFind x.flash.map lua = some (r.blk, r.index)
        then { x with flash := { x.flash with map := tabSet x.flash.map lua (k, (t.blk k).units.length) } } else x
      exec (.relocationDone ch lua) s =
        .next (w.setBlk r.blk { w.blk r.blk with readers := (w.blk r.blk).readers ++ w.homeReaders lua }).settle)) ∧
  (∀ (s : State) (ch : Fin 32) (band : Nat),
    let mine := (s.flash.blocks.filter (fun e => keyCh e.1 = ch.val && e.2.data && e.2.band = band && e.2.st ≠ .free)).map (·.1)
    (mine ≠ [] → (∀ k ∈ mine, (s.blk k).st ≠ .open) → s.parityStands ch.val band = true →
      ∀ failed : List BlockId, let bad := mine.filter (fun k => failed.any (fun b => blkKey b = k))
        (bad = [] → exec (.readVerify ch band failed) s = .next (s.releaseParity ch.val band).settle) ∧
        (bad ≠ [] → exec (.readVerify ch band failed) s = .next
          ((bad.foldl (fun u k => u.retireBlk k) (mine.foldl (fun u k => u.startLeaving k 5) s)).releaseParity ch.val band).settle)) ∧
    ((mine = [] ∨ (∃ k ∈ mine, (s.blk k).st = .open) ∨ s.parityStands ch.val band = false) →
      ∀ failed, exec (.readVerify ch band failed) s = .next s.settle)) ∧
  (∀ (s : State) (x : PatrolSample),
    (s.flash.mapState ≠ 3 → exec (.patrolStep x) s = .next s.settle) ∧
    (s.flash.mapState = 3 →
      let el := s.flash.patrolElapsed + x.seconds
      let again := s.patrolTotal ≤ s.flash.patrolPos ∧ s.patrolPeriod ≤ el
      let pos := if again then 0 else s.flash.patrolPos
      let t : State := { s with flash := { s.flash with
        patrolPos := pos
        patrolElapsed := if again then el - s.patrolPeriod else el } }
      (patrolAt t.patrolPages pos = none → exec (.patrolStep x) s = .next t.settle) ∧
      ∀ k, patrolAt t.patrolPages pos = some k →
      let v := t.setBlk k { t.blk k with
        reads := (t.blk k).reads + 1
        refresh := (t.blk k).refresh || (x.retry || x.high || decide (t.readLimit < (t.blk k).reads + 1)) }
      let w : State := { v with flash := { v.flash with
        patrolPos := pos + 1
        patrolDone := s.flash.patrolDone + 1 } }
      exec (.patrolStep x) s = .next (if (s.flash.patrolDone + 1) % 100 = 0 then w.savePatrol else w).settle)) ∧
  (∀ (s : State) (lua : Nat),
    (tabFind s.flash.map lua = none → exec (.unitLost lua) s = .next s.settle) ∧
    (∀ k i, tabFind s.flash.map lua = some (k, i) →
      ((s.blk k).st ≠ .closed → exec (.unitLost lua) s = .next s.settle) ∧
      ((s.blk k).st = .closed → exec (.unitLost lua) s = .next (((((s.loseUnit lua).flagEvent pgFLS 4 3 lua none).startLeaving k 5).retireBlk k).endWhere
        (fun c => (s.homeReaders lua).contains c.ref) stDATA_ERROR 0).settle))) ∧
  (∀ (s : State) (ch : Fin 32) (die : Fin 16),
    (die.val ∉ s.liveDies ch.val → exec (.dieLost ch die) s = .next s.settle) ∧
    (die.val ∈ s.liveDies ch.val →
      let ks := (s.flash.blocks.filter (fun e => keyCh e.1 = ch.val && keyDie e.1 = die.val && e.2.st ≠ .free)).map (·.1)
      let lose := fun (u : State) (k : Nat) =>
        let b := u.blk k
        if b.data = false then u.setBlk k { b with st := .retired }
        else if u.parityStands ch.val b.band = true then
          ((u.startLeaving k 5).count pgFLS oFLS_PARITY_RECOV (ceilDiv b.units.length 4)).setBlk k { b with
            st := .retired
            leaving := 5 }
        else ((((b.units.zipIdx).filter (fun x => u.unitLive k x.2 x.1)).map (fun x => x.1.lua)).foldl (fun w l => w.loseUnit l) u).setBlk k
          { b with st := .retired }
      exec (.dieLost ch die) s = .next (((ks.foldl lose
        (s.setChan ch.val { s.chan ch.val with lost := insertNat (s.chan ch.val).lost die.val })).flagEvent pgFLS 5 4
          (ch.val + die.val * 2 ^ 8) none).checkLife).settle))

/-- LINK_UP, LINK_DOWN, ARP_REQUEST, NEIGHBOR_SOLICITATION, ICMP_ECHO, PFC_FRAME. The model's choices in it: log entries 5, 80 and 88. -/
def Obligations.Links : Prop :=
  (∀ (s : State) (sub : Fin 32), let i := sub.val
    (∀ ls, (s.sub i).up = false → s.alive = true → s.start.halted = false → 2 ≤ s.start.stage → i % 4 < modeSubs (s.portMode (i / 4)) →
      (s.rail 9).down = false → (if i < 16 then 1 else 2) ∉ s.start.clocksLost → s.goodLanes i = some ls →
      exec (.linkUp sub) s = .next ((s.setSub i { s.sub i with up := true, lanes := ls.length }).flagEvent (pgPORT (i / 4)) 1 1 (i + 2 ^ 8) none).settle) ∧
    (((s.sub i).up = true ∨ s.alive = false ∨ (s.rail 9).down = true ∨ s.goodLanes i = none) → exec (.linkUp sub) s = .next s.settle) ∧
    ((s.sub i).up = true → exec (.linkDown sub) s = .next ((s.setSub i { s.sub i with up := false }).flagEvent (pgPORT (i / 4)) 1 1 i none).settle) ∧
    ((s.sub i).up = false → exec (.linkDown sub) s = .next s.settle)) ∧
  (∀ (s : State) (sub : Fin 32) (q : ArpQuery) (n : NsQuery) (e : EchoQuery), let i := sub.val
    (s.linked i = true →
      (s.ownV4 i q.targetIp.toNat = true → exec (.arpRequest sub q) s =
        .next (((s.rxFrame i false).txFrames i 1).send (.arpReply i (BitVec.ofNat 48 (s.macOf i)) q.targetIp)).settle) ∧
      (s.ownV4 i q.targetIp.toNat = false → exec (.arpRequest sub q) s = .next (s.rxFrame i false).settle) ∧
      (s.ownV6 i n.target.toNat = true → exec (.neighborSolicitation sub n) s =
        .next (((s.rxFrame i false).txFrames i 1).send (.neighborAdvert i n.target)).settle) ∧
      (s.ownV6 i n.target.toNat = false → s.solicited i n.target.toNat = true →
        exec (.neighborSolicitation sub n) s = .next (s.rxFrame i false).settle) ∧
      (s.ownV6 i n.target.toNat = false → s.solicited i n.target.toNat = false →
        exec (.neighborSolicitation sub n) s = .next (s.count (pgPORT (i / 4)) oNETP_RX_DROP 1).settle) ∧
      ((if e.v6 then s.ownV6 i e.dst.toNat else s.ownV4 i e.dst.toNat) = true → exec (.icmpEcho sub e) s =
        .next (((s.rxFrame i false).txFrames i 1).send (.echoReply i e.v6 e.src e.payload)).settle) ∧
      ((if e.v6 then s.ownV6 i e.dst.toNat else s.ownV4 i e.dst.toNat) = false → exec (.icmpEcho sub e) s = .next (s.rxFrame i false).settle)) ∧
    (s.linked i = false → exec (.arpRequest sub q) s = .next s.settle ∧ exec (.neighborSolicitation sub n) s = .next s.settle ∧
      exec (.icmpEcho sub e) s = .next s.settle)) ∧
  (∀ (s : State) (port prio : Fin 8) (quanta : Half),
    let on := port.val < 4 ∧ s.alive = true ∧ s.field (pgPORT port.val) oNETP_PORT_CFG 3 3 = 1 ∧ s.field (pgPORT port.val) oNETP_PORT_CFG 6 4 = prio.val
    (on → exec (.pfcFrame port prio quanta) s = .next (State.settle ([0, 1, 2, 3].foldl (fun (t : State) j =>
      if (t.sub (4 * port.val + j)).up then t.setSub (4 * port.val + j) { t.sub (4 * port.val + j) with paused := decide (quanta ≠ 0#16) } else t) s))) ∧
    (¬ on → exec (.pfcFrame port prio quanta) s = .next s.settle))

/-- ROCE_RDMA_WRITE, ROCE_RDMA_READ, INVALID_REQUEST. The model's choices in it: log entries 5, 27 and 79. -/
def Obligations.RdmaRequests : Prop :=
  ∀ (s : State) (qp : Fin 4096) (psn : BitVec 24) (rkey : Word) (va : Dword) (data : List Byte) (len : Word),
    let i := qp.val
    let a := va.toNat
    let port := (s.qp i).subport
    let n := (s.qp i).packets data.length
    let r : State := s.rxFrame port false
    let w := r.count (pgPORT (port / 4)) oNETP_RX_FRAMES (n - 1)
    let d := r.count (pgPORT (port / 4)) oNETP_RX_FRAMES 0
    (s.linked port = false → s.flashWaits a = false → exec (.roceRdmaWrite qp psn false rkey va data) s = .next s.settle ∧
      exec (.roceRdmaRead qp psn false rkey va len) s = .next s.settle ∧ exec (.invalidRequest qp psn) s = .next s.settle) ∧
    (s.linked port = true → s.qpLive i = none → s.flashWaits a = false →
      exec (.roceRdmaWrite qp psn false rkey va data) s = .next (s.count pgFRONT oNETF_STRAY 1).settle ∧
      exec (.roceRdmaRead qp psn false rkey va len) s = .next (s.count pgFRONT oNETF_STRAY 1).settle ∧
      exec (.invalidRequest qp psn) s = .next (s.count pgFRONT oNETF_STRAY 1).settle) ∧
    (∀ p, s.linked port = true → s.qpLive i = some p →
      exec (.invalidRequest qp psn) s = .next (r.nakError i psn.toNat nakInvalid).settle ∧
      ((s.qp i).order psn.toNat = 0 → s.flashWaits a = false → data.length ≤ 2 ^ 31 → len.toNat ≤ 2 ^ 31 →
        (fldBe (s.qp i).ctx 0x10 4 ≠ rkey.toNat →
          exec (.roceRdmaWrite qp psn false rkey va data) s = .next (w.nakError i psn.toNat nakAccess).settle ∧
          exec (.roceRdmaRead qp psn false rkey va len) s = .next (d.nakError i psn.toNat nakAccess).settle) ∧
        (fldBe (s.qp i).ctx 0x10 4 = rkey.toNat →
          (data ≠ [] → w.rdmaWindow p true a data.length = false →
            exec (.roceRdmaWrite qp psn false rkey va data) s = .next (w.rdmaDenied i psn.toNat p a).settle) ∧
          (len ≠ 0#32 → d.rdmaWindow p false a len.toNat = false →
            exec (.roceRdmaRead qp psn false rkey va len) s = .next (d.rdmaDenied i psn.toNat p a).settle) ∧
          (∀ t : State, w.rdmaWindow p true a data.length = true → w.writeFor p none a data = .ok t →
            exec (.roceRdmaWrite qp psn false rkey va data) s = .next ((w.taken i psn.toNat n).rdmaPlace p a data).settle) ∧
          (∀ bs, d.rdmaWindow p false a len.toNat = true → d.readBytes p a len.toNat = .ok bs →
            exec (.roceRdmaRead qp psn false rkey va len) s = .next ((((d.refPages p a len.toNat).qpAdvance i ((d.qp i).packets len.toNat))).qpFrames i
              ((d.qp i).packets len.toNat) (.readResponse i psn.toNat bs)).settle))))

/-- ROCE_ACK, ROCE_RNR_NAK, ROCE_ACK_TIMEOUT, CNP_RECEIVED, STRAY. The model's choices in it: log entries 5 and 79. -/
def Obligations.RequesterAnswers : Prop :=
  (∀ (s : State) (qp : Fin 4096) (psn : BitVec 24) (p : Nat), let i := qp.val
    s.linked (s.qp i).subport = true → s.qpLive i = some p →
    let r := s.rxFrame (s.qp i).subport false
    let before := (psn.toNat + 2 ^ 24 - 1) % 2 ^ 24
    exec (.roceAck qp psn none) s = .next (r.qpAcked i psn.toNat).settle ∧
    exec (.roceAck qp psn (some 0#5)) s = .next ((r.qpAcked i before).resendQp i).settle ∧
    (∀ c : BitVec 5, c ≠ 0#5 → exec (.roceAck qp psn (some c)) s = .next ((r.qpAcked i before).qpError i (0x60 + c.toNat)).settle) ∧
    (((r.qpAcked i before).qp i).unacked = [] → exec (.roceRnrNak qp psn) s = .next (r.qpAcked i before).settle) ∧
    (((r.qpAcked i before).qp i).unacked ≠ [] →
      let x := (r.qpAcked i before).qp i
      ((fldBe x.ctx 0x16 1 < 7 ∧ fldBe x.ctx 0x16 1 ≤ x.rnr) → exec (.roceRnrNak qp psn) s = .next ((r.qpAcked i before).qpError i 0xFF).settle) ∧
      (¬ (fldBe x.ctx 0x16 1 < 7 ∧ fldBe x.ctx 0x16 1 ≤ x.rnr) → exec (.roceRnrNak qp psn) s =
        .next ((((r.qpAcked i before).setQp i { x with rnr := x.rnr + 1 }).resendQp i)).settle)) ∧
    ((∀ q ∈ partIds, ¬ ((s.part q).nonFree = true ∧ (s.part q).complQp = i)) →
      exec (.cnpReceived qp) s = .next (r.count pgFRONT oNETF_CNP_RECV 1).settle) ∧
    ((∃ q ∈ partIds, (s.part q).nonFree = true ∧ (s.part q).complQp = i) →
      let t := r.count pgFRONT oNETF_CNP_RECV 1
      let a := (t.qp i).alpha + (1 - (t.qp i).alpha) / 16
      exec (.cnpReceived qp) s = .next (t.setQp i { t.qp i with
        alpha := a
        throttle := (t.qp i).throttle * (1 - a / 2) }).settle)) ∧
  (∀ (s : State) (qp : Fin 4096), let i := qp.val
    ((s.qp i).unacked = [] → exec (.roceAckTimeout qp) s = .next s.settle) ∧
    (∀ p, (s.qp i).unacked ≠ [] → s.qpLive i = some p →
      (fldBe (s.qp i).ctx 0x15 1 ≤ (s.qp i).retries → exec (.roceAckTimeout qp) s = .next (s.qpError i 0xFF).settle) ∧
      ((s.qp i).retries < fldBe (s.qp i).ctx 0x15 1 → exec (.roceAckTimeout qp) s =
        .next ((s.setQp i { s.qp i with retries := (s.qp i).retries + 1 }).resendQp i).settle))) ∧
  (∀ (s : State) (sub : Fin 32), let i := sub.val
    (s.linked i = false → ∀ why, exec (.stray sub why) s = .next s.settle) ∧
    (s.linked i = true →
      exec (.stray sub .wrongMac) s = .next (s.count (pgPORT (i / 4)) oNETP_RX_DROP 1).settle ∧
      (∀ n, s.subMtu i < n → exec (.stray sub (.oversize n)) s = .next (s.count (pgPORT (i / 4)) oNETP_RX_DROP 1).settle) ∧
      exec (.stray sub .wrongPort) s = .next ((s.rxFrame i false).count pgFRONT oNETF_STRAY 1).settle ∧
      (∀ n, n ≤ s.subMtu i → exec (.stray sub (.oversize n)) s = .next s.settle) ∧
      (∀ a b, s.field (pgPORT (i / 4)) oNETP_PORT_CFG 8 8 = 1 →
        exec (.stray sub (.macsec a b)) s = .next (s.count (pgPORT (i / 4)) oNETP_MACSEC_DROP 1).settle) ∧
      (∀ a b, s.field (pgPORT (i / 4)) oNETP_PORT_CFG 8 8 ≠ 1 → exec (.stray sub (.macsec a b)) s = .next s.settle) ∧
      (∀ q : Fin 4096, s.qpLive q.val = none →
        exec (.stray sub (.badQp q)) s = .next ((s.rxFrame i false).count pgFRONT oNETF_STRAY 1).settle) ∧
      (∀ q : Fin 4096, s.qpLive q.val ≠ none → exec (.stray sub (.badQp q)) s = .next s.settle) ∧
      exec (.stray sub .noContext) s = .next (s.rxFrame i false).settle ∧
      exec (.stray sub .wrongNetwork) s = .next ((s.rxFrame i false).count pgFRONT oNETF_STRAY 1).settle))

/-- R431, for every management row. The model's choices in it: log entries 21 and 23. -/
def Obligations.KeptResponses : Prop :=
  ∀ (i : Instr) (op : Nat) (r : MgmtReq) (s : State) (key : List Byte), mgmtRow i = some (op, r) → s.mgmtHears r = true → s.mgmtKey op r = some key →
    let old := (s.keySlot r.keyId.toNat).kept
    (∀ e, old.find? (fun e => e.1 = r.reqId.toNat) = some e →
      exec i s = .next (State.settle (((s.mgmtTake r).txFrames s.mgmtPort 1).send (.mgmt s.mgmtPort r.src e.2)))) ∧
    (old.find? (fun e => e.1 = r.reqId.toNat) = none → ((op = 0x03 ∨ op = 0x04) → s.tierWaits r.addr.toNat = false) →
      ∃ (u : State) (m : List Byte), exec i s = .next (State.settle
        (((u.setKeySlot r.keyId.toNat { u.keySlot r.keyId.toNat with kept := ((r.reqId.toNat, m) :: old).take 16 }).txFrames s.mgmtPort 1).send
          (.mgmt s.mgmtPort r.src m))))

/-- The ten operations of R430. The model's choices in it: log entries 5 and 21 to 27. -/
def Obligations.ManagementActs : Prop :=
  (∀ (i : Instr) (op : Nat) (r : MgmtReq) (s : State), mgmtRow i = some (op, r) →
    (s.mgmtHears r = false → exec i s = .next s.settle) ∧
    (s.mgmtHears r = true → s.mgmtKey op r = none → exec i s = .next ((s.rxFrame s.mgmtPort false).mgmtDropped r).settle)) ∧
  (∀ (r : MgmtReq) (s : State) (key : List Byte), s.mgmtHears r = true →
    (s.keySlot r.keyId.toNat).kept.find? (fun e => e.1 = r.reqId.toNat) = none →
    let t := s.mgmtTake r
    let a := r.addr.toNat
    let ans := fun (op : Nat) (u : State) (status : Nat) (body : List Byte) =>
      (State.settle (u.mgmtReply s.mgmtPort r (s.keySlot r.keyId.toNat).kept (mgmtResponse key op r status body)))
    (s.mgmtKey 0x01 r = some key → r.body.length = 4 → regRangeBad a (beNat r.body) = none →
      let v := t.readWords .mgmt ((a - regBase) / 0x1000) (a % 0x1000) (beNat r.body)
      exec (.mgmtReadReg r) s = .next (ans 0x01 v.1 0 (v.2.flatMap (fun w => leBytes 4 w.toNat)))) ∧
    (s.mgmtKey 0x01 r = some key →
      (r.body.length ≠ 4 → exec (.mgmtReadReg r) s = .next (ans 0x01 t 3 [])) ∧
      (∀ e, r.body.length = 4 → regRangeBad a (beNat r.body) = some e → exec (.mgmtReadReg r) s = .next (ans 0x01 t e.status e.body))) ∧
    (s.mgmtKey 0x02 r = some key →
      (r.body.length % 4 ≠ 0 → exec (.mgmtWriteReg r) s = .next (ans 0x02 t 3 [])) ∧
      (∀ e, r.body.length % 4 = 0 → regRangeBad a (r.body.length / 4) = some e → exec (.mgmtWriteReg r) s = .next (ans 0x02 t e.status e.body))) ∧
    (s.mgmtKey 0x03 r = some key → s.tierWaits a = false → (r.body.length ≠ 4 ∨ beNat r.body = 0 ∨ 1024 < beNat r.body) →
      exec (.mgmtReadMem r) s = .next (ans 0x03 t 3 [])) ∧
    (s.mgmtKey 0x04 r = some key → s.tierWaits a = false → r.body = [] → exec (.mgmtWriteMem r) s = .next (ans 0x04 t 3 [])) ∧
    (s.mgmtKey 0x05 r = some key →
      (r.body.length ≠ 64 → exec (.qpSet r) s = .next (ans 0x05 t 3 [])) ∧
      (r.body.length = 64 → 4096 ≤ a → exec (.qpSet r) s = .next (ans 0x05 t 2 []))) ∧
    (s.mgmtKey 0x06 r = some key →
      (r.body ≠ [] → exec (.qpGet r) s = .next (ans 0x06 t 3 [])) ∧
      (r.body = [] → 4096 ≤ a → exec (.qpGet r) s = .next (ans 0x06 t 2 []))) ∧
    (s.mgmtKey 0x0A r = some key → r.body ≠ [] → exec (.identify r) s = .next (ans 0x0A t 3 [])) ∧
    (s.mgmtKey 0x02 r = some key → r.body.length % 4 = 0 → regRangeBad a (r.body.length / 4) = none →
      exec (.mgmtWriteReg r) s = .next (ans 0x02 (mgmtWrites ((a - regBase) / 0x1000) (a % 0x1000) r.body t) 0 [])) ∧
    (s.mgmtKey 0x03 r = some key → s.tierWaits a = false → r.body.length = 4 → 1 ≤ beNat r.body → beNat r.body ≤ 1024 →
      (∀ bs, t.readBytes mgmtPart a (beNat r.body) = .ok bs → exec (.mgmtReadMem r) s = .next (ans 0x03 t 0 bs)) ∧
      (∀ d, t.readBytes mgmtPart a (beNat r.body) = .error (.access d) → exec (.mgmtReadMem r) s = .next (ans 0x03 t 2 [])) ∧
      (∀ d, t.readBytes mgmtPart a (beNat r.body) = .error (.data d) → exec (.mgmtReadMem r) s = .next (ans 0x03 t 4 []))) ∧
    (s.mgmtKey 0x04 r = some key → s.tierWaits a = false → r.body ≠ [] →
      (∀ u, t.writeFor mgmtPart none a r.body = .ok u →
        exec (.mgmtWriteMem r) s = .next (ans 0x04 (u.cloudOver none (fun _ => false) [(a, a + r.body.length)]) 0 [])) ∧
      (∀ d, t.writeFor mgmtPart none a r.body = .error (.data d) → exec (.mgmtWriteMem r) s = .next (ans 0x04 t 4 [])) ∧
      (∀ d, t.writeFor mgmtPart none a r.body = .error (.access d) → exec (.mgmtWriteMem r) s = .next (ans 0x04 t 2 []))) ∧
    (s.mgmtKey 0x05 r = some key → r.body.length = 64 → a < 4096 →
      let busy := (t.qp a).state = 1 ∧ fldBe r.body 0 1 ≠ 0 ∧ fldBe r.body 0 1 ≠ 2
      (busy → exec (.qpSet r) s = .next (ans 0x05 t 5 [])) ∧
      (¬ busy → exec (.qpSet r) s = .next (ans 0x05 (t.qpSet a r.body) 0 []))) ∧
    (s.mgmtKey 0x06 r = some key → r.body = [] → a < 4096 → exec (.qpGet r) s = .next (ans 0x06 t 0 (padTo 64 (t.qp a).ctx))) ∧
    (s.mgmtKey 0x07 r = some key →
      let k := fabKey (fldBe r.body 0 2) (fldBe r.body 2 1)
      let put := fun (n : Nat) => ({ t with net := { t.net with fabric := tabPut 0 t.net.fabric k n } } : State)
      let full := tabGet 0 t.net.fabric k = 0 ∧ 16384 ≤ t.net.fabric.length
      (r.body.length ≠ 5 → exec (.fabricSet r) s = .next (ans 0x07 t 3 [])) ∧
      (r.body.length = 5 → fldBe r.body 4 1 = 0 → exec (.fabricSet r) s = .next (ans 0x07 (put 0) 0 [])) ∧
      (r.body.length = 5 → fldBe r.body 4 1 ≠ 0 → 16 ≤ fldBe r.body 3 1 → exec (.fabricSet r) s = .next (ans 0x07 t 2 [])) ∧
      (r.body.length = 5 → fldBe r.body 4 1 ≠ 0 → fldBe r.body 3 1 < 16 →
        (full → exec (.fabricSet r) s = .next (ans 0x07 t 5 [])) ∧
        (¬ full → exec (.fabricSet r) s = .next (ans 0x07 (put (fldBe r.body 3 1 + 1)) 0 [])))) ∧
    (s.mgmtKey 0x08 r = some key → r.body.length ≠ 18 → exec (.commSet r) s = .next (ans 0x08 t 3 [])) ∧
    (s.mgmtKey 0x08 r = some key → r.body.length = 18 →
      let p := fldBe r.body 0 1
      let n := fldBe r.body 1 4
      let rank := fldBe r.body 5 4
      let list := fldBe r.body 9 8
      let good := a < 1024 ∧ p < 16 ∧ (t.part p).nonFree = true ∧ within a 1 (t.part p).commsRange.1 (t.part p).commsRange.2 = true ∧ 2 ≤ n ∧
        n ≤ 4096 ∧ rank < n ∧ within list (4 * n) (t.part p).resBase (t.part p).resBytes = true
      (¬ good → exec (.commSet r) s = .next (ans 0x08 t 2 [])) ∧
      (good → exec (.commSet r) s = .next (ans 0x08 { t with net := { t.net with
        comms := tabPut commNone t.net.comms a ⟨p, n, rank, list, decide (fldBe r.body 17 1 ≠ 0), 0, 0, [], 0, 0⟩ } } 0 []))) ∧
    (s.mgmtKey 0x09 r = some key →
      (r.body.length ≠ 74 → exec (.saSet r) s = .next (ans 0x09 t 3 [])) ∧
      (r.body.length = 74 → (32 ≤ a ∨ 1 < fldBe r.body 0 1 ∨ 3 < fldBe r.body 1 1) → exec (.saSet r) s = .next (ans 0x09 t 2 []))) ∧
    (s.mgmtKey 0x09 r = some key → r.body.length = 74 → a < 32 → fldBe r.body 0 1 ≤ 1 → fldBe r.body 1 1 ≤ 3 →
      exec (.saSet r) s = .next (match keyUnwrap key (r.body.drop 34) with
        | none => ans 0x09 t 3 []
        | some sak =>
          let sa : Sa := ⟨fldBe r.body 1 1, BitVec.ofNat 32 (fldBe r.body 2 4), (r.body.drop 6).take 12, fldBe r.body 18 8,
            BitVec.ofNat 64 (fldBe r.body 26 8), sak, false⟩
          ans 0x09 (t.setSub a (if fldBe r.body 0 1 = 0
            then { t.sub a with tx := putSa (t.sub a).tx sa, txAn := fldBe r.body 1 1 }
            else { t.sub a with rx := putSa (t.sub a).rx sa })) 0 [])) ∧
    (s.mgmtKey 0x0A r = some key → r.body = [] →
      exec (.identify r) s = .next (ans 0x0A t 0 (leBytes 4 0x4816B100 ++ leBytes 8 t.fitted.serial ++ leBytes 4 t.deviceId))))

/-- The rows of bring-up, READY_RISE and READY_MESSAGE. The model's choices in it: log entries 5, 15 to 21, and 28. -/
def Obligations.BringUp : Prop :=
  ∀ s : State,
    (∀ a b : Option (List Byte), let pb := decide (s.field pgMGT oMGT_BOOT_CFG 0 0 = 1)
      let first := if pb then b else a
      let second := if pb then a else b
      let m := s.extend 0 (sha256 s.otpBytes)
      let info := m.slotFail first % 16 * 2 ^ 12 + b2n pb * 2 ^ 16
      ((s.alive = false ∨ s.start.halted = true ∨ s.start.stage ≠ 0) → exec (.bootVerified a b) s = .next s.settle) ∧
      (s.alive = true → s.start.halted = false → s.start.stage = 0 →
        (m.slotFail first = 0 → exec (.bootVerified a b) s = .next
          (State.settle ((({ m with start := { m.start with slotB := pb } } : State).measureSlot (first.getD [])).runFirmware))) ∧
        (m.slotFail first ≠ 0 → m.slotFail second = 0 →
          let v := (m.flagEvent pgMGT 1 1 info none).logMgmt 0x0201 pgMGT info
          exec (.bootVerified a b) s = .next
            (State.settle ((({ v with start := { v.start with slotB := !pb } } : State).measureSlot (second.getD [])).runFirmware))) ∧
        (m.slotFail first ≠ 0 → m.slotFail second ≠ 0 → exec (.bootVerified a b) s = .next
          (State.settle (({ m with start := { m.start with fail := m.slotFail first } } : State).halt info))))) ∧
    (s.bringUp = false → (∀ l, exec (.hbmTrained l) s = .next s.settle) ∧ (∀ l, exec (.ddrTrained l) s = .next s.settle) ∧
      (∀ d, exec (.tierClearDone d) s = .next s.settle) ∧ (∀ l, exec (.flashChannelsTrained l) s = .next s.settle) ∧
      exec .mapLoadDone s = .next s.settle ∧ (∀ n, exec (.mapRebuildDone n) s = .next s.settle) ∧ (∀ n, exec (.readyRise n) s = .next s.settle)) ∧
    (s.bringUp = true →
      (∀ l : List HbmTrain, s.start.hbmDone = false → (s.rail 7).down = false →
        ((l.length ≠ 8 ∨ HbmTrain.failed ∈ l) → exec (.hbmTrained l) s = .next
          (s.halt (((List.range 8).map (fun i => if nth .failed l i = .failed then 2 ^ i else 0)).sum * 2 ^ 32)).settle) ∧
        (l.length = 8 → (∀ x ∈ l, x = HbmTrain.full) → exec (.hbmTrained l) s = .next (State.settle { s with
          start := { s.start with hbmDone := true }
          tiers := { s.tiers with
            hbmTrained := List.replicate 8 true
            hbmFallback := List.replicate 8 false } }))) ∧
      (∀ l : List (Option Spd), s.start.ddrDone = false → (s.rail 8).down = false →
        let k := (List.range 24).map (fun c => nth none l c)
        (ddrBad k ≠ [] → exec (.ddrTrained l) s = .next (State.settle (({ s with
          start := { s.start with ddrDone := true }
          tiers := { s.tiers with ddrSpds := k } } : State).flagEvent (pgDDR 0) 2 2 ((ddrBad k).map (fun c => 2 ^ c)).sum none))) ∧
        (ddrBad k = [] → exec (.ddrTrained l) s = .next (State.settle { s with
          start := { s.start with
            ddrDone := true
            reused := decide (s.start.cause = 0x0211 ∧ s.tiers.ddrSpds = k) }
          tiers := { s.tiers with
            ddrSpds := k
            ddrTrained := true
            ddrRate := if k.all (fun m => match m with | some d => 12800 ≤ d.rate | none => true) then 12800 else 8800 } }))) ∧
      (s.start.hbmDone = true → s.start.hbmCleared = false → exec (.tierClearDone false) s = .next (State.settle { s with
        mem := s.mem.filter (fun c => ddrBase ≤ c.1)
        errors := { s.errors with poison := s.errors.poison.filter (fun g => ddrBase ≤ g) }
        start := { s.start with hbmCleared := true } })) ∧
      (s.tiers.ddrTrained = true → s.start.ddrCleared = false → exec (.tierClearDone true) s = .next (State.settle { s with
        mem := s.mem.filter (fun c => c.1 < ddrBase || potBase ≤ c.1)
        errors := { s.errors with poison := s.errors.poison.filter (fun g => g < ddrBase || potBase ≤ g) }
        start := { s.start with ddrCleared := true } })) ∧
      (∀ l, s.start.flashDone = false → s.flash.mapState = 0 → (s.rail 10).down = false →
        exec (.flashChannelsTrained l) s = .next (s.flashTrained l).settle) ∧
      (s.flash.mapState = 1 → exec .mapLoadDone s = .next (State.settle { s with
        flash := { s.flash with mapState := 3 }
        start := { s.start with flashDone := true } })) ∧
      (s.flash.mapState ≠ 1 → exec .mapLoadDone s = .next s.settle) ∧
      (∀ n, (s.flash.mapState = 1 ∨ s.flash.mapState = 2) → exec (.mapRebuildDone n) s = .next (s.mapRebuilt n).settle) ∧
      (∀ n, s.flash.mapState ≠ 1 → s.flash.mapState ≠ 2 → exec (.mapRebuildDone n) s = .next s.settle) ∧
      (∀ ms, s.readyDue = true → s.start.ready = false → exec (.readyRise ms) s = .next (State.settle ((({ s with start := { s.start with
        ready := true
        bootMs := ms % 2 ^ 32
        answered := false } } : State).send (.ibi 0x01#8)).moreChanges))) ∧
      (∀ ms, (s.readyDue = false ∨ s.start.ready = true) → exec (.readyRise ms) s = .next s.settle)) ∧
    (
      let k := s.field pgMGT oMGT_READY_CFG 2 1
      let on := s.alive = true ∧ s.start.ready = true ∧ s.start.answered = false ∧ s.field pgMGT oMGT_READY_CFG 0 0 = 1 ∧
        ∃ j ∈ [0, 1, 2, 3, 4], (s.frontAddr j).isSome = true
      ((¬ on ∨ (s.keySlot k).key = none) → exec .readyMessage s = .next s.settle) ∧
      (∀ key, on → (s.keySlot k).key = some key →
        let m := mgmtHeader 0x0B 1 k 0 0 0 32 0 ++ s.readyBody
        exec .readyMessage s = .next (State.settle
          (s.frontUp.foldl (fun t i => (t.txFrames i 1).send (.mgmt i s.readyTo (m ++ mgmtTag key m))) s))))

/-- FABRIC_DATA, FABRIC_SEMOP, FABRIC_SEM_REPLY, FABRIC_RELEASE, FABRIC_LAG, CANCEL_NOTICE, CANCEL_ACK, CANCEL_CONFIRM, CANCEL_DEFER. The model's choices in it: log entries 5, 81 and 83. -/
def Obligations.FabricReceives : Prop :=
  (∀ (i : Instr) (h : FabHdr) (s : State), fabricRow i = some h →
    let r := s.rxBack h.ce
    let syn := bit h.flags.toNat 0
    ((r.deviceId = 0xFFFF ∨ h.dstDev.toNat ≠ r.deviceId) → exec i s = .next r.settle) ∧
    (r.deviceId ≠ 0xFFFF → h.dstDev.toNat = r.deviceId →
      (r.mapPacket h = none → exec i s = .next (r.nack 0 h 3).settle) ∧
      (∀ p, r.mapPacket h = some p → r.deaf p = true → (∀ res, i ≠ .fabricSemReply h res) → exec i s = .next r.settle) ∧
      (∀ p, r.mapPacket h = some p → r.deaf p = false →
        ((r.peerUp p h).rxFor p h = none → exec i s = .next (r.peerUp p h).settle) ∧
        (∀ x, (r.peerUp p h).rxFor p h = some x →
          (x.place h.psn.toNat syn = .outside → exec i s = .next (r.peerUp p h).settle) ∧
          (x.place h.psn.toNat syn = .duplicate →
            exec i s = .next ((((r.peerUp p h).count pgFABRIC oNETB_DUPS 1).noteRx x h false)).settle))))) ∧
  (∀ (h : FabHdr) (s : State) (p : Nat) (x : RxConn),
    let r := s.rxBack h.ce
    let t := (r.peerUp p h).setRx x
    let taken := fun (u : State) => (State.settle (u.noteRx x h true))
    let turned := fun (u : State) (k : Nat) => State.settle (if k = 2 ∨ k = 4 then u.nack p h k else (u.nack p h k).noteRx x h true)
    r.deviceId ≠ 0xFFFF → h.dstDev.toNat = r.deviceId → r.mapPacket h = some p → (r.peerUp p h).rxFor p h = some x →
      x.place h.psn.toNat (bit h.flags.toNat 0) = .fresh →
    (∀ res, exec (.fabricSemReply h res) s = .next (taken (t.semReply h res.toNat p))) ∧
    (r.deaf p = false →
      (∀ bs u, h.comm = 0xFFFF#16 → t.copyData h bs p = (u, none) → exec (.fabricData h bs) s = .next (taken u)) ∧
      (∀ bs u, h.comm ≠ 0xFFFF#16 → t.collData h bs = (u, none) → exec (.fabricData h bs) s = .next (taken u)) ∧
      (∀ bs u k, (if h.comm = 0xFFFF#16 then t.copyData h bs p else t.collData h bs) = (u, some k) →
        exec (.fabricData h bs) s = .next (turned u k)) ∧
      (∀ op n u, t.remoteOp h op.toNat n.toNat p = (u, none) → exec (.fabricSemop h op n) s = .next (taken u)) ∧
      (∀ op n u k, t.remoteOp h op.toNat n.toNat p = (u, some k) → exec (.fabricSemop h op n) s = .next (turned u k)) ∧
      exec (.fabricRelease h) s = .next (taken { t with net := { t.net with items := t.net.items.filter (fun i =>
        !(i.dev = h.srcDev.toNat && i.part = h.srcPart.toNat && i.accSeq = h.accSeq.toNat)) } }) ∧
      (∀ l n, exec (.fabricLag h l n) s = .next (taken (t.lagNotice h l n.toNat))) ∧
      (∀ g, exec (.cancelNotice h g) s = .next (taken (t.cancelNotice h p))) ∧
      (∀ g, exec (.cancelAck h g) s = .next (taken (t.modSrv p (fun v => { v with cancels := v.cancels.map (fun e =>
        if !e.notified && e.tag = h.tag.toNat then { e with acks := insertNat e.acks g.toNat } else e) })))) ∧
      (∀ g, exec (.cancelConfirm h g) s = .next (taken (t.modSrv p (fun v => { v with cancels := v.cancels.map (fun e =>
        if e.notified && e.tag = h.tag.toNat then { e with confirmed := true } else e) })))) ∧
      (∀ g, exec (.cancelDefer h g) s = .next (taken (t.modSrv p (fun v => { v with cancels := v.cancels.map (fun e =>
        if e.notified && e.tag = h.tag.toNat then { e with deferred := true } else e) }))))))

/-- FABRIC_ACK, FABRIC_NACK, FABRIC_RTO, NACK_RESEND_TIMER, ACK_DELAY_TIMER, CONNECTION_IDLE, RATE_UPDATE. The model's choices in it: log entries 5 and 82. -/
def Obligations.FabricSends : Prop :=
  (∀ (h : FabHdr) (s : State) (a : AckBody) (rtt : Nat) (psn : Word) (code : Byte),
    let r := s.rxBack h.ce
    ((r.deviceId = 0xFFFF ∨ h.dstDev.toNat ≠ r.deviceId) → exec (.fabricAck h a rtt) s = .next r.settle ∧ exec (.fabricNack h psn code) s = .next r.settle) ∧
    (r.deviceId ≠ 0xFFFF → h.dstDev.toNat = r.deviceId →
      let mine := fun (t : TxConn) => t.conn.dev = h.srcDev && (t.conn.peer = 16) = (h.comm = 0xFFFF#16)
        && t.outstanding.any (fun k => k.psn % 2 ^ 32 = psn.toNat && k.hdr.comm = h.comm)
      (r.net.txConns.find? mine = none → exec (.fabricNack h psn 3#8) s = .next r.settle) ∧
      (∀ t, r.net.txConns.find? mine = some t → exec (.fabricNack h psn 3#8) s =
        .next (r.fabNack { h with srcPart := BitVec.ofNat 4 t.conn.peer.val } psn.toNat 3 t.conn.part.val).settle)) ∧
    (∀ p, r.deviceId ≠ 0xFFFF → h.dstDev.toNat = r.deviceId → r.mapPacket h = some p →
      exec (.fabricAck h a rtt) s = .next ((r.peerUp p h).fabAck h a rtt p).settle ∧
      (code ≠ 3#8 → exec (.fabricNack h psn code) s = .next ((r.peerUp p h).fabNack h psn.toNat code.toNat p).settle))) ∧
  (∀ (s : State) (conn : ConnId) (psn : Word),
    (s.txConn? conn = none → exec (.fabricRto conn psn) s = .next s.settle ∧ exec (.nackResendTimer conn psn) s = .next s.settle ∧
      exec (.rateUpdate conn) s = .next s.settle) ∧
    (∀ t, s.txConn? conn = some t →
      (∀ k, t.outstanding.find? (fun k => k.psn % 2 ^ 32 = psn.toNat && !k.waiting) = some k →
        (s.fabRetry ≤ t.rtos + 1 → exec (.fabricRto conn psn) s = .next (s.peerDown conn).settle) ∧
        (t.rtos + 1 < s.fabRetry → exec (.fabricRto conn psn) s = .next ((s.setTxConn { t with rtos := t.rtos + 1 }).resend conn k true).settle)) ∧
      (t.outstanding.find? (fun k => k.psn % 2 ^ 32 = psn.toNat && !k.waiting) = none → exec (.fabricRto conn psn) s = .next s.settle) ∧
      (∀ k, t.outstanding.find? (fun k => k.psn % 2 ^ 32 = psn.toNat && k.waiting) = some k →
        exec (.nackResendTimer conn psn) s = .next (s.resend conn k false).settle) ∧
      (t.outstanding.find? (fun k => k.psn % 2 ^ 32 = psn.toNat && k.waiting) = none → exec (.nackResendTimer conn psn) s = .next s.settle) ∧
      (t.winAcked = 0 → exec (.rateUpdate conn) s = .next s.settle) ∧
      (t.winAcked ≠ 0 →
        let top : Rat := 1600 * ((min 4096 (s.field (pgPRT conn.part.val) oPRT_REG_BACK 12 0) : Nat) : Rat) / 4096
        let low : Rat := ((max 1 (s.field pgFABRIC oNETB_FAB_RATE 23 16) : Nat) : Rat)
        let ai : Rat := ((s.field pgFABRIC oNETB_FAB_RATE 15 0 : Nat) : Rat) / 10
        let alpha := t.alpha + ((t.winCe : Rat) / (t.winAcked : Rat) - t.alpha) / 16
        let now := if t.rate = 0 then top else t.rate
        exec (.rateUpdate conn) s = .next (s.setTxConn { t with
          rate := if 0 < (t.winCe : Rat) / (t.winAcked : Rat) then max (now * (1 - alpha / 2)) low else min (now + ai) top
          alpha := alpha
          winCe := 0
          winAcked := 0 }).settle)) ∧
    exec (.ackDelayTimer conn) s = .next (State.settle
      ((s.net.rxConns.filter (fun x => x.conn = conn && 0 < x.pkts && !(s.deaf conn.part.val))).foldl (fun s x => s.sendAck x) s)) ∧
    (
      let t : State := { s with net := { s.net with
        txConns := s.net.txConns.filter (fun t => !(t.conn = conn && t.outstanding = [] && t.backlog = [] && !t.down))
        rxConns := s.net.rxConns.filter (fun x => !(x.conn = conn && x.pkts = 0)) } }
      exec (.connectionIdle conn) s = .next (State.settle
        ((t.net.txConns.filter (fun x => x.backlog ≠ [])).foldl (fun u x => State.fabPump x.conn x.backlog.length u) t))) ∧
    (s.net.txConns = [] → exec (.connectionIdle conn) s = .next (State.settle { s with net := { s.net with
      rxConns := s.net.rxConns.filter (fun x => !(x.conn = conn && x.pkts = 0)) } })) ∧
    (∀ t, s.net.txConns = [t] → t.conn = conn → t.outstanding = [] → t.backlog = [] → t.down = false →
      exec (.connectionIdle conn) s = .next (State.settle { s with net := { s.net with
        txConns := []
        rxConns := s.net.rxConns.filter (fun x => !(x.conn = conn && x.pkts = 0)) } })))

/-- STROBE_EDGE, PACE_CAL_TIMEOUT, LAGGARD_CHECK. The model's choices in it: log entries 11, 32, 34 and 90. -/
def Obligations.StrobePeriod : Prop :=
  ∀ s : State,
    (∀ x : StrobeSample,
      let t := ({ s with
        strobes := s.strobes + 1
        eventOnce := [] } : State).calendarTicks
      (s.alive = false → exec (.strobeEdge x) s = .next t.settle) ∧
      (s.alive = true →
        let a := (x.cores.zipIdx).foldl (fun u e => if e.2 < 208 then u.latchCore e.2 e.1 else u) t
        let b := (List.range 12).foldl (fun u r => u.meterRail r (nth 0 x.energy r)) a
        let c := (List.range 4).foldl (fun u q => u.readDie q (nth 0 x.dieTemp q)) b
        let d := (List.range 8).foldl (fun u i => u.readStack i (nth 0 x.stackTemp i)) c
        let e := (x.regulators.zipIdx).foldl (fun u e => if e.2 < 4 then u.readRegulator e.2 e.1 else u) (d.thermPin x.dieTemp x.stackTemp)
        let f := (List.range 4).foldl (fun u q => u.adjustDie q (railWatt (nth 0 x.energy q)) (nth true x.ran q)
          (decide (105 * 16 ≤ nth 0 x.dieTemp q))) e
        let g := f.setBudgets.returnQuarters.readmit
        exec (.strobeEdge x) s = .next (State.settle { g with cmds := g.cmds.map (fun c =>
          if c.unissued && 0 < c.heldPeriods then { c with heldPeriods := c.heldPeriods + 1 } else c) }))) ∧
    (∀ core : Fin 208,
      (s.alive = true → exec (.paceCalTimeout core) s = .next (s.setField (pgGRD core.val) oGRD_PACE_CAL 31 31 0).settle) ∧
      (s.alive = false → exec (.paceCalTimeout core) s = .next s.settle)) ∧
    (s.alive = false → exec (.laggardCheck ()) s = .next s.settle) ∧
    (s.alive = true → s.strobes / 128 ≤ s.lagChecked → exec (.laggardCheck ()) s = .next s.settle) ∧
    (s.alive = true → s.lagChecked < s.strobes / 128 →
      let on := fun (q : Nat) => ((dieCores q).filter (fun c => (s.core c).st = .enabled)).filterMap s.coreRate
      let dies := ([0, 1, 2, 3].map (fun q => (q, on q))).filter (fun e => e.2 ≠ [])
      let med := median (dies.map (fun e => mean e.2))
      let t : State := { s with
        medianRate := med
        lagChecked := s.strobes / 128 }
      let u := (List.range 208).foldl (fun u c => if (s.core c).st = .enabled then u.keepRates c else u) t
      let v := dies.foldl (fun u e => u.count pgTRV oTRV_LAGGARDS (e.2.filter (fun r => r < median e.2 * 95 / 100)).length) u
      exec (.laggardCheck ()) s = .next (State.settle ((dies.filter (fun e => mean e.2 < med * 97 / 100)).foldl (fun u e =>
        ((u.count pgTRV oTRV_LAGGARDS 1).flagEvent pgTRV 0 1 (e.1 + (f32OfRat (mean e.2 / med)).toNat * 2 ^ 32) none).adjustLaggard e.1
          (1 - mean e.2 / med)) v))) ∧
    (∀ (q : Nat) (short : Rat), (s.die q).adjusted = s.strobes / 128 + 1 → s.adjustLaggard q short = s)

/-- SUPPLY_WARNING, SUPPLY_RECOVER, CORE_RAIL_RESET, ISLAND_RAIL_RESET, CLOCK_LOST, CLOCK_RESTORED, RETRAIN. The model's choices in it: log entries 5, 11, 35 and 88. -/
def Obligations.RailsAndClocks : Prop :=
  (∀ (s : State) (rail : Fin 12) (mv low ticks : Nat), let r := rail.val
    let x := s.rail r
    let marked := fun (u : State) => (u.setRail r { u.rail r with
      warn := true
      down := true })
    ((x.warn = true ∨ x.warnMv ≤ mv) → exec (.supplyWarning rail mv) s = .next s.settle) ∧
    (x.warn = false → mv < x.warnMv →
      let t := s.setRail r { x with warn := true }
      (s.alive = false → exec (.supplyWarning rail mv) s = .next t.settle) ∧
      (s.alive = true → exec (.supplyWarning rail mv) s = .next (State.settle
        (((if r < 4 then (t.minMv r mv).setDie r { (t.minMv r mv).die r with held := true } else t.minMv r mv).countBank pgSUP oSUP_WARNINGS r 1).flagEvent
          pgSUP 0 1 (r + mv % 2 ^ 16 * 2 ^ 16) none)))) ∧
    (x.warn = false → exec (.supplyRecover rail low ticks) s = .next s.settle) ∧
    (x.warn = true →
      let t := s.setRail r { x with
        warn := false
        down := false }
      let rejoin := fun (u : State) => if r < 4 then u.setDie r { u.die r with
        held := false
        inReset := false } else u
      (s.alive = false → exec (.supplyRecover rail low ticks) s = .next (rejoin t).settle) ∧
      (s.alive = true → exec (.supplyRecover rail low ticks) s =
        .next ((rejoin ((t.minMv r low).countBank pgSUP oSUP_WARN_TICKS r ticks)).startTests).settle)) ∧
    ((railIslands r = 0 ∨ railResetMv r < mv) → exec (.islandRailReset rail mv) s = .next s.settle) ∧
    (railIslands r ≠ 0 → mv ≤ railResetMv r →
      (s.alive = false → exec (.islandRailReset rail mv) s = .next (marked s).settle) ∧
      (s.alive = true →
        let t := (railArbs r).foldl (fun u a => u.islandArb a) (((marked s).minMv r mv).countBank pgSUP oSUP_RESETS r 1)
        let u := if r = 10 then t.flashIslands else t
        let v := if r = 9 then (List.range 32).foldl (fun w i => w.linkFall i) u else u
        exec (.islandRailReset rail mv) s = .next ((((v.resetUnits (onRailPage r)).abandonTests (fun e => match e with
          | .hbm _ => r = 7
          | .ddr _ => r = 8
          | .lane _ _ => r = 9
          | _ => false)).flagEvent pgSUP 2 3 (r + railIslands r * 2 ^ 16) none).settle)))) ∧
  (∀ (s : State) (die : Fin 4) (mv : Nat), let q := die.val
    (railResetMv q < mv → exec (.coreRailReset die mv) s = .next s.settle) ∧
    (mv ≤ railResetMv q →
      let t := s.setRail q { s.rail q with
        warn := true
        down := true }
      (s.alive = false → exec (.coreRailReset die mv) s = .next (t.setDie q { t.die q with
        inReset := true
        held := true }).settle) ∧
      (s.alive = true → exec (.coreRailReset die mv) s = .next (State.settle
        (((((t.minMv q mv).countBank pgSUP oSUP_RESETS q 1).dieReset q).flagEvent pgSUP 1 2 (q + s.partsOn q * 2 ^ 16) none)))))) ∧
  (∀ s : State,
    (∀ clk : Fin 3, clk.val ∉ s.start.clocksLost → exec (.clockRestored clk) s = .next s.settle) ∧
    (∀ clk : Fin 3,
      let t : State := { s with start := { s.start with clocksLost := insertNat s.start.clocksLost clk.val } }
      let u := (List.range 32).foldl (fun v i => if (clk.val = 1 ∧ i < 16) ∨ (clk.val = 2 ∧ 16 ≤ i) then v.linkFall i else v) t
      (s.alive = true → exec (.clockLost clk) s = .next (u.flagEvent pgMGT 4 3 (2 ^ clk.val) none).settle) ∧
      (s.alive = false → exec (.clockLost clk) s = .next u.settle) ∧
      (clk.val ∈ s.start.clocksLost →
        let w : State := { s with start := { s.start with clocksLost := s.start.clocksLost.filter (· ≠ clk.val) } }
        (clk.val = 0 → s.alive = true → exec (.clockRestored clk) s = .next (State.settle
          ((((((List.range 32).foldl (fun v a => v.islandArb a) w).flashIslands).resetUnits (fun k n => onRailPage 7 k n || onRailPage 8 k n)).abandonTests
            (fun e => match e with
              | .hbm _ | .ddr _ => true
              | _ => false)).startTests))) ∧
        ((clk.val ≠ 0 ∨ s.alive = false) → exec (.clockRestored clk) s = .next w.settle))) ∧
    (s.alive = false → ∀ i, exec (.retrain i) s = .next s.settle) ∧
    (s.alive = true →
      (∀ i, exec (.retrain (.hbm i)) s = .next ((s.count (pgHBM i.val) oHBM_HBM_RETRAIN 1).flagEvent (pgHBM i.val) 3 1 i.val none).settle) ∧
      (∀ i, exec (.retrain (.ddr i)) s = .next ((s.count (pgDDR i.val) oDDR_DDR_RETRAIN 1).flagEvent (pgDDR i.val) 3 1 i.val none).settle) ∧
      (∀ i, exec (.retrain (.eth i)) s = .next (s.count (pgPORT i.val) oNETP_RETRAIN 1).settle) ∧
      (∀ i, exec (.retrain (.flash i)) s = .next s.settle)))

/-- POR_N_ASSERT, WARM_N_ASSERT, RESET_RELEASE, DEVICE_RAIL_RESET, THERMAL_TRIP. The model's choices in it: log entries 12, 13 and 14. -/
def Obligations.ResetPins : Prop :=
  ∀ s : State,
    let low : State := { s with start := { s.start with
      porLow := true
      tripped := false } }
    (s.start.tripped = false → exec .porNAssert s = .next (low.deviceReset false 0x0210 0).settle) ∧
    (s.start.tripped = true → exec .porNAssert s = .next (low.deviceReset false 0x0213 s.start.causeInfo).settle) ∧
    (
      let warm : State := { s with start := { s.start with warmLow := true } }
      ((s.start.porLow = true ∨ s.start.tripped = true) → exec .warmNAssert s = .next s.settle) ∧
      (s.start.porLow = false → s.start.tripped = false → s.start.inReset = true → exec .warmNAssert s = .next warm.settle) ∧
      (s.start.porLow = false → s.start.tripped = false → s.start.inReset = false →
        exec .warmNAssert s = .next (warm.deviceReset true 0x0211 0).settle)) ∧
    (
      let held := s.start.inReset = false ∨ s.start.tripped = true ∨ ∃ r ∈ [4, 5, 6, 11], (s.rail r).down = true
      (held → exec .resetRelease s = .next s.settle) ∧
      (¬ held → exec .resetRelease s = .next (State.settle { s with start := { s.start with
        porLow := false
        warmLow := false
        inReset := false } }))) ∧
    (∀ rail : Fin 12, (rail.val ∉ [4, 5, 6, 11] → exec (.deviceRailReset rail) s = .next s.settle) ∧
      (rail.val ∈ [4, 5, 6, 11] →
        let t := s.setRail rail.val { s.rail rail.val with
          warn := true
          down := true }
        ((s.start.porLow = true ∨ s.start.tripped = true) → exec (.deviceRailReset rail) s = .next t.settle) ∧
        (s.start.porLow = false → s.start.tripped = false → exec (.deviceRailReset rail) s = .next (t.deviceReset false 0x0212 rail.val).settle))) ∧
    ((s.alive = false ∨ s.tripInfo = none) → exec .thermalTrip s = .next s.settle) ∧
    (∀ info, s.alive = true → s.tripInfo = some info →
      let l := s.logMgmt 0x0606 pgTRV info
      let t := ({ l with start := { l.start with tripped := true } } : State).deviceReset true 0x0213 info
      exec .thermalTrip s = .next (State.settle (({ t with start := { t.start with faultLow := true } } : State).send (.ibi 0x03#8)))) ∧
    (∀ w c n, let t := s.deviceReset w c n
      t.start.inReset = true ∧ t.start.cause = c ∧ t.start.causeInfo = n ∧ t.start.ready = false ∧ t.cmds = [] ∧ t.parts = State.reset.parts ∧
      t.sems = State.reset.sems ∧ t.errors.hist = s.errors.hist ∧ t.cal.seconds = s.cal.seconds ∧ t.cal.fraction = s.cal.fraction ∧
      t.cal.valid = s.cal.valid ∧ t.flash.map = s.flash.map ∧ t.regs = s.regs.filter (fun e => keptReg e.1) ∧
      t.sec.leafNext = s.sec.leafNext ∧ t.sec.svnFloor = s.sec.svnFloor ∧
      t.errors.log = (if w then s.errors.log else []) ∧ t.sec.slots = (if w then s.sec.slots else []) ∧
      t.sec.debugOpen = (w && s.sec.debugOpen) ∧ t.sec.meas = (if w then s.sec.meas.filter (fun e => e.1 = 6) else []))

/-- CORRECTED_ERROR, UNCORRECTED_ERROR, SELF_TEST_DONE. The model's choices in it: log entries 5, 37, 38 and 104. -/
def Obligations.ErrorsAndTests : Prop :=
  (∀ (s : State) (site : ErrSite) (users : List CmdRef),
    let g := s.sitePage site
    let use := fun (c : Cmd) => users.contains c.ref && c.running
    (s.alive = false → exec (.correctedError site) s = .next s.settle ∧ exec (.uncorrectedError site users) s = .next s.settle) ∧
    (s.alive = true →
      exec (.correctedError site) s = .next ((((s.setCe g).countCorrected g).beginTest site
        (match site with | .lane _ _ | .bridge _ _ => 3 | _ => 0))).settle ∧
      (∀ a, site = .hbm a →
        let u := (s.setUe g).poisonKey a
        let hit := fun (m : Move) => m.kind ≠ 1 && within a 1 (u.hbmPhys (m.frame * pageBytes)) pageBytes
        let moved := (u.pages.filter (fun e => e.2.moves.any hit)).map (·.1)
        exec (.uncorrectedError site users) s = .next
          ((((u.abandonMoves hit).endWhere (fun c => use c || readsAny moved c) stDATA_ERROR 0).beginTest site 1)).settle) ∧
      (∀ a, site = .ddr a →
        let u := (s.setUe g).poisonKey (ddrBase + a)
        let page := ddrBase / pageBytes + u.ddrPageOf (a / pageBytes)
        let moved := if (u.page page).moves.any (fun m => m.kind ≠ 1) then [page] else []
        exec (.uncorrectedError site users) s = .next
          ((((u.abandonMove page (fun m => m.kind ≠ 1)).endWhere (fun c => use c || readsAny moved c) stDATA_ERROR 0).beginTest site 1)).settle) ∧
      (∀ p n, site = .sram p n →
        exec (.uncorrectedError site users) s = .next (((((s.setUe g).sramEvent g).killWhere use causeError).beginTest site 1)).settle) ∧
      (∀ c, site = .coreUnit c → exec (.uncorrectedError site users) s = .next ((((s.setUe g).killWhere use causeError).beginTest site 1)).settle) ∧
      (∀ q o, site = .stockpot q o → exec (.uncorrectedError site users) s =
        .next (((((s.setUe g).poisonKey (potBase + q.val * potStep + o)).killWhere use causeError).beginTest site 1)).settle) ∧
      (∀ k, site = .semWord k → exec (.uncorrectedError site users) s =
        .next ((((s.semPoison k.toNat (s.choose 0xEA 4096)).endWhere
          (fun c => c.unissued && !c.carried && (hWaits c.hdr).any (fun e => entKind e ≠ 0 && entSem e = k.toNat)) stDATA_ERROR 0).beginTest site 1)).settle) ∧
      (∀ p k, site = .store p k → exec (.uncorrectedError site users) s =
        .next (((((s.setUe g).setPart p.val { (s.setUe g).part p.val with
          store := ((s.setUe g).part p.val).store.map (fun v => if v.sem = k.toNat then { v with bad := true } else v) }).beginTest site 1))).settle) ∧
      (∀ p l, site = .lane p l →
        let u := (s.setUe g).count (pgPORT p.val) oNETP_FEC_UNCORR 1
        exec (.uncorrectedError site users) s = .next (((u.flagEvent (pgPORT p.val) 3 3
          (4 * p.val + u.laneSub p.val l.val + (u.stored (pgPORT p.val) oNETP_FEC_UNCORR 0).toNat * 2 ^ 32) none).beginTest site 3)).settle) ∧
      (∀ a k, site = .arbQueue a k → exec (.uncorrectedError site users) s = .next ((((s.setUe g).killWhere use causeError).beginTest site 1)).settle) ∧
      (∀ a b, site = .bridge a b → exec (.uncorrectedError site users) s =
        .next ((((s.setUe g).killWhere use causeIsland).beginTest site 3)).settle) ∧
      (∀ c n, site = .griddle c n → exec (.uncorrectedError site users) s = .next ((((s.setUe g).killWhere use causeError).beginTest site 1)).settle))) ∧
  (∀ (s : State) (site : ErrSite) (r : TestResult),
    (s.errors.tests.find? (fun t => t.started && t.site = site) = none → exec (.selfTestDone site r) s = .next s.settle) ∧
    (∀ t, s.errors.tests.find? (fun t => t.started && t.site = site) = some t →
      let u : State := { s with errors := { s.errors with tests := s.errors.tests.filter (fun v => v ≠ t) } }
      let outcome := fun (n : Nat) (v : State) => t.entries.foldl (fun w k => w.setOutcome k n) v
      let most := max 1 (u.field pgERR oERR_ERR_CFG 3 0)
      (t.ppr = true → exec (.selfTestDone site r) s = .next (if r = .pass then u.pprPassed site else u).startTests.runsGoOn.settle) ∧
      (t.ppr = false →
        (r = .pass → u.passCount site < most →
          let v : State := { u with errors := { u.errors with passes := u.errors.passes ++ [⟨site, u.strobes⟩] } }
          exec (.selfTestDone site r) s = .next (((outcome 1 (v.count pgERR oERR_TRANSIENTS 1)).unquiesce site).startTests.runsGoOn).settle) ∧
        (r = .pass → most ≤ u.passCount site →
          exec (.selfTestDone site r) s =
            .next (((outcome 5 ((u.repair site r).1.count pgERR oERR_LASTING 1)).unquiesce site).startTests.runsGoOn).settle) ∧
        (r ≠ .pass →
          exec (.selfTestDone site r) s = .next (((outcome (if (u.repair site r).2 then 2 else 3)
            ((u.repair site r).1.count pgERR oERR_LASTING 1)).unquiesce site).startTests.runsGoOn).settle))))

/-- R503. The model's choices in it: log entry 11. -/
def Obligations.SvnFloor : Prop :=
  ∀ s : State,
    let n := s.sec.burned + (s.sec.runningSvn - s.sec.svnFloor)
    (s.i3cAnswers pgMGT = true →
      (s.sec.svnFloor < s.sec.runningSvn → n ≤ 32 → exec .svnCommit s = .next (State.settle
        { s with sec := { s.sec with
          burned := n
          svnFloor := s.sec.runningSvn } })) ∧
      (s.sec.svnFloor < s.sec.runningSvn → 32 < n → exec .svnCommit s = .next (s.setErr pgMGT 3).settle) ∧
      (s.sec.runningSvn ≤ s.sec.svnFloor → exec .svnCommit s = .next s.settle)) ∧
    (s.i3cAnswers pgMGT = false → exec .svnCommit s = .next s.settle) ∧
    (∀ t, exec .svnCommit s = .next t → s.sec.svnFloor ≤ t.sec.svnFloor)

/-- KEY_LOAD, KEY_LOCK, KEY_CLEAR, MEASUREMENT_EXTEND, DEBUG_OPEN, TAP_INSTRUCTION, ATTESTATION_GO, ATTESTATION_DONE. The model's choices in it: log entries 11, 29, 30 and 42. -/
def Obligations.SecurityRows : Prop :=
  ∀ s : State,
    let k := s.field pgSEC oSEC_KEY_SEL 1 0
    let words := fun (o : Nat) => (List.range 8).flatMap (fun i => leBytes 4 (s.stored pgSEC (o + 4 * i) 0).toNat)
    (s.i3cAnswers pgSEC = false → exec .keyLoad s = .next s.settle ∧ exec .keyLock s = .next s.settle ∧ exec .keyClear s = .next s.settle ∧
      exec .measurementExtend s = .next s.settle ∧ exec .attestationGo s = .next s.settle) ∧
    (s.i3cAnswers pgSEC = true →
      ((s.keySlot k).locked = true → exec .keyLoad s = .next s.settle ∧ exec .keyClear s = .next s.settle) ∧
      ((s.keySlot k).locked = false →
        exec .keyLoad s = .next (s.setKeySlot k ⟨some (s.sec.keyWords.flatMap (fun w => leBytes 4 w.toNat)), false, 0, [], []⟩).settle ∧
        exec .keyClear s = .next (s.setKeySlot k keyEmpty).settle) ∧
      exec .keyLock s = .next (s.setKeySlot k { s.keySlot k with locked := true }).settle ∧
      exec .measurementExtend s = .next (State.settle { s with sec := { s.sec with
        meas := tabPut (List.replicate 32 0#8) s.sec.meas 7 (sha256 (s.meas 7 ++ words oSEC_EXTEND_W0)) } }) ∧
      (s.sec.attResult = 0xF → exec .attestationGo s = .next s.settle) ∧
      (s.sec.attResult ≠ 0xF → exec .attestationGo s = .next (State.settle { s with sec := { s.sec with
        att := some ⟨words oSEC_NONCE_W0, (s.stored pgSEC oSEC_ATT_ADDR_LO 0).toNat + (s.stored pgSEC oSEC_ATT_ADDR_HI 0).toNat * 2 ^ 32⟩
        attResult := 0xF } }))) ∧
    (s.i3cAnswers pgMGT = false → exec .debugOpen s = .next s.settle) ∧
    (s.i3cAnswers pgMGT = true →
      let t : State := { s with sec := { s.sec with
        meas := tabPut (List.replicate 32 0#8) s.sec.meas 6 (sha256 (s.meas 6 ++ sha256 debugText))
        debugOpen := true } }
      exec .debugOpen s = .next ((t.logMgmt 0x0202 pgMGT 0xF02).flagEvent pgMGT 2 2 0xF02 none).settle) ∧
    exec (.tapInstruction .boundaryScan) s = .next (s.send (.tap false)).settle ∧
    (∀ n, exec (.tapInstruction (.other n)) s = .next (s.send (.tap (!s.sec.debugOpen))).settle) ∧
    (s.sec.att = none → exec .attestationDone s = .next s.settle) ∧
    (∀ r, s.sec.att = some r →
      let fin := fun (u : State) (n : Nat) => ({ u with sec := { u.sec with
        att := none
        attResult := n } } : State)
      (s.sec.exhausted = true → exec .attestationDone s = .next ((fin s 3).setErr pgSEC 1).settle) ∧
      (s.sec.exhausted = false → (r.addr % 64 ≠ 0 ∨ (zoneOf r.addr ≠ .hbm ∧ zoneOf r.addr ≠ .ddr)) →
        exec .attestationDone s = .next ((fin s 4).setErr pgSEC 1).settle) ∧
      (∀ t, s.sec.exhausted = false → r.addr % 64 = 0 → (zoneOf r.addr = .hbm ∨ zoneOf r.addr = .ddr) → s.tierWaits r.addr = false →
        s.writeFor mgmtPart none r.addr (s.reportBody r.nonce ++ signature s.sec.leafNext (s.reportBody r.nonce)) = .ok t →
        exec .attestationDone s = .next (fin t.useLeaf 1).settle))

/-- CALENDAR_SET, SEC_LO_LATCH, ENERGY_LO_LATCH, VBAT_LOW, OSC_STOP. The model's choices in it: log entries 11 and 30. -/
def Obligations.CalendarRows : Prop :=
  ∀ s : State,
    (s.i3cAnswers pgRTC = false → exec .calendarSet s = .next s.settle ∧ exec .secLoLatch s = .next s.settle) ∧
    (s.i3cAnswers pgTRV = false → exec .energyLoLatch s = .next s.settle) ∧
    (s.i3cAnswers pgRTC = true →
      exec .secLoLatch s = .next (State.settle { s with cal := { s.cal with
        latchHi := s.cal.seconds / 2 ^ 32
        latchFrac := s.cal.fraction } }) ∧
      (
        let t : State := { s with cal := { s.cal with
          seconds := (s.stored pgRTC oRTC_SET_LO 0).toNat + (s.stored pgRTC oRTC_SET_HI 0).toNat * 2 ^ 32
          fraction := s.field pgRTC oRTC_SET_FRAC 14 0
          valid := true
          vbatLow := false
          oscStop := false } }
        exec .calendarSet s = .next ((t.count pgRTC oRTC_SETS 1).flagEvent pgRTC 2 2 s.cal.seconds none).settle)) ∧
    (s.i3cAnswers pgTRV = true → exec .energyLoLatch s = .next (State.settle
      { s with energyLatch := (s.rail (s.field pgTRV oTRV_RAIL_SEL 3 0)).energy / 2 ^ 32 % 2 ^ 32 })) ∧
    (
      let v : State := { s with cal := { s.cal with
        valid := false
        vbatLow := true
        lossLogged := false } }
      let o : State := { s with cal := { s.cal with
        valid := false
        oscStop := true
        lossLogged := false } }
      (s.alive = true → exec .vbatLow s = .next (v.setErr pgRTC 0).settle ∧ exec .oscStop s = .next (o.setErr pgRTC 1).settle) ∧
      (s.alive = false → exec .vbatLow s = .next v.settle ∧ exec .oscStop s = .next o.settle))
end

