-- ==== Sys2Proof/Decode.lean ====
section
/-! DEFINITION. The command a table word spells. The opcode table gives no row bits: a command is a capsule, a message, a
register access or an event with operands of any size, so no word of the table's kind spells one. The capsule's own
decoding (R139, R142) is in Machine/Capsule.lean. -/

namespace Sys2Proof

/-- The command a word spells by the table's bits: none, for no row has bits. DESIGN CHOICE (log entry 2). -/
def decodeTableWord (_nbits _w : Nat) : Option Instr := none

end Sys2Proof
end

