-- ==== Sys2Proof/Laws/Crypto.lean ====
section
/-! SUPPORT. Lengths of the digests that the security rules use. -/

namespace Sys2Proof.Laws

open Sys2Proof Sys2Proof.Machine

@[simp] theorem leBytes_length (n v : Nat) : (leBytes n v).length = n := by
  induction n generalizing v with
  | zero => rfl
  | succ n ih => simp [leBytes, ih]

@[simp] theorem beBytes_length (n v : Nat) : (beBytes n v).length = n := by simp [beBytes]

theorem shaRound_length (v : List Word) (k : Nat) (w : Word) : v.length = 8 → (shaRound v k w).length = 8 := by
  intro h
  match v, h with
  | [a, b, c, d, e, f, g, i], _ => rfl

theorem shaBlock_length (h : List Word) (b : List Byte) (hh : h.length = 8) : (shaBlock h b).length = 8 := by
  have aux : ∀ (l : List (Nat × Word)) (v : List Word), v.length = 8 → (l.foldl (fun v e => shaRound v e.1 e.2) v).length = 8 := by
    intro l
    induction l with
    | nil => exact fun v hv => hv
    | cons e t ih => exact fun v hv => ih _ (shaRound_length v e.1 e.2 hv)
  simp only [shaBlock, List.length_zipWith, hh, aux _ h hh]
  rfl

theorem shaBlocks_length (n : Nat) (h : List Word) (b : List Byte) (hh : h.length = 8) : (shaBlocks n h b).length = 8 := by
  induction n generalizing h b with
  | zero => exact hh
  | succ n ih => exact ih _ _ (shaBlock_length h _ hh)

/-- A SHA-256 digest has 32 bytes. -/
theorem sha256_length (m : List Byte) : (sha256 m).length = 32 := by
  have flat : ∀ l : List Word, (l.flatMap (fun w => beBytes 4 w.toNat)).length = 4 * l.length := by
    intro l
    induction l with
    | nil => rfl
    | cons w t ih => simp only [List.flatMap_cons, List.length_append, beBytes_length, List.length_cons, ih]; omega
  simp only [sha256, flat, shaBlocks_length _ shaInit _ rfl]

/-- The root that an LMS signature leads to has 32 bytes, as its leaf has. -/
theorem lmsRoot_length (id path : List Byte) (n i node : Nat) (t : List Byte) (h : t.length = 32) : (lmsRoot id path n i node t).length = 32 := by
  induction n generalizing i node t with
  | zero => exact h
  | succ n ih => exact ih _ _ _ (sha256_length _)

end Sys2Proof.Laws
end

