-- ==== Sys2Proof/Laws/Exec.lean ====
section
/-! SUPPORT. The dispatch, one lemma for each command: exec of a command is its meaning. And what the guards of a meaning do. -/

namespace Sys2Proof.Machine

/-- A command guarded by `awake`, where the device is alive. -/
theorem awake_of_alive {s : State} (h : s.alive = true) (o : Host.Outcome State Fault Refusal) : awake s o = o := if_pos h

/-- A command guarded by `awake`, where it is not. -/
theorem awake_of_not_alive {s : State} (h : s.alive = false) (o : Host.Outcome State Fault Refusal) : awake s o = done s :=
  if_neg (by simp [h])

/-- A register command of a page that answers. -/
theorem onPage_of_answers {s : State} {g : Nat} (h : s.i3cAnswers g = true) (o : Host.Outcome State Fault Refusal) :
    onPage s g o = o := if_pos h

/-- A register command of a page that does not answer. -/
theorem onPage_of_silent {s : State} {g : Nat} (h : s.i3cAnswers g = false) (o : Host.Outcome State Fault Refusal) :
    onPage s g o = done s := if_neg (by simp [h])

theorem exec_sendCapsule {s : State} (qp : Fin 4096) (psn : BitVec 24) (ce : Bool) (bytes : List Byte) : exec (.sendCapsule qp psn ce bytes) s = execSendCapsule qp psn ce bytes s := rfl
theorem exec_intakeEntry {s : State} (p : Fin 16) : exec (.intakeEntry p) s = execIntakeEntry p s := rfl
theorem exec_listRecordAccept {s : State} (p : Fin 16) : exec (.listRecordAccept p) s = execListRecordAccept p s := rfl
theorem exec_nop {s : State} (p : Fin 16) (h : CapHdr) (body : List Byte) : exec (.nop p h body) s = execNop p h body s := rfl
theorem exec_product {s : State} (p : Fin 16) (h : CapHdr) (body : List Byte) : exec (.product p h body) s = execProduct p h body s := rfl
theorem exec_attend {s : State} (p : Fin 16) (h : CapHdr) (body : List Byte) : exec (.attend p h body) s = execAttend p h body s := rfl
theorem exec_gather {s : State} (p : Fin 16) (h : CapHdr) (body : List Byte) : exec (.gather p h body) s = execGather p h body s := rfl
theorem exec_scatterAdd {s : State} (p : Fin 16) (h : CapHdr) (body : List Byte) : exec (.scatterAdd p h body) s = execScatterAdd p h body s := rfl
theorem exec_search {s : State} (p : Fin 16) (h : CapHdr) (body : List Byte) : exec (.search p h body) s = execSearch p h body s := rfl
theorem exec_select {s : State} (p : Fin 16) (h : CapHdr) (body : List Byte) : exec (.select p h body) s = execSelect p h body s := rfl
theorem exec_tokenize {s : State} (p : Fin 16) (h : CapHdr) (body : List Byte) : exec (.tokenize p h body) s = execTokenize p h body s := rfl
theorem exec_detokenize {s : State} (p : Fin 16) (h : CapHdr) (body : List Byte) : exec (.detokenize p h body) s = execDetokenize p h body s := rfl
theorem exec_pack {s : State} (p : Fin 16) (h : CapHdr) (body : List Byte) : exec (.pack p h body) s = execPack p h body s := rfl
theorem exec_stepGenerate {s : State} (p : Fin 16) (h : CapHdr) (body : List Byte) : exec (.stepGenerate p h body) s = execStepGenerate p h body s := rfl
theorem exec_stepAdmit {s : State} (p : Fin 16) (h : CapHdr) (body : List Byte) : exec (.stepAdmit p h body) s = execStepAdmit p h body s := rfl
theorem exec_stepCancel {s : State} (p : Fin 16) (h : CapHdr) (body : List Byte) : exec (.stepCancel p h body) s = execStepCancel p h body s := rfl
theorem exec_copy {s : State} (p : Fin 16) (h : CapHdr) (body : List Byte) : exec (.copy p h body) s = execCopy p h body s := rfl
theorem exec_migrate {s : State} (p : Fin 16) (h : CapHdr) (body : List Byte) : exec (.migrate p h body) s = execMigrate p h body s := rfl
theorem exec_collect {s : State} (p : Fin 16) (h : CapHdr) (body : List Byte) : exec (.collect p h body) s = execCollect p h body s := rfl
theorem exec_semop {s : State} (p : Fin 16) (h : CapHdr) (body : List Byte) : exec (.semop p h body) s = execSemop p h body s := rfl
theorem exec_tableSwitch {s : State} (p : Fin 16) (h : CapHdr) (body : List Byte) : exec (.tableSwitch p h body) s = execTableSwitch p h body s := rfl
theorem exec_indexMerge {s : State} (p : Fin 16) (h : CapHdr) (body : List Byte) : exec (.indexMerge p h body) s = execIndexMerge p h body s := rfl
theorem exec_listCapsule {s : State} (p : Fin 16) (h : CapHdr) (body : List Byte) : exec (.listCapsule p h body) s = execListCapsule p h body s := rfl
theorem exec_commandIssue {s : State} (c : CmdRef) : exec (.commandIssue c) s = execCommandIssue c s := rfl
theorem exec_commandCommit {s : State} (c : CmdRef) : exec (.commandCommit c) s = execCommandCommit c s := rfl
theorem exec_tableSwitchDrain {s : State} (c : CmdRef) : exec (.tableSwitchDrain c) s = execTableSwitchDrain c s := rfl
theorem exec_recordWrite {s : State} (p : Fin 16) : exec (.recordWrite p) s = execRecordWrite p s := rfl
theorem exec_cancel {s : State} (p : Fin 16) : exec (.cancel p) s = execCancel p s := rfl
theorem exec_takeUnit {s : State} (core : Fin 208) (griddle : Fin 4) : exec (.takeUnit core griddle) s = execTakeUnit core griddle s := rfl
theorem exec_haloCopy {s : State} (c : CmdRef) (entry stripe : Nat) : exec (.haloCopy c entry stripe) s = execHaloCopy c entry stripe s := rfl
theorem exec_passWatchdog {s : State} (core : Fin 208) (griddle : Fin 4) : exec (.passWatchdog core griddle) s = execPassWatchdog core griddle s := rfl
theorem exec_semValueWrite {s : State} (die : Fin 4) (value : Word) : exec (.semValueWrite die value) s = execSemValueWrite die value s := rfl
theorem exec_lend {s : State} (core : Fin 208) : exec (.lend core) s = execLend core s := rfl
theorem exec_longWait {s : State} (core : Fin 208) : exec (.longWait core) s = execLongWait core s := rfl
theorem exec_textSlotCommit {s : State} (engine : Fin 8) : exec (.textSlotCommit engine) s = execTextSlotCommit engine s := rfl
theorem exec_stepBoundary {s : State} (p : Fin 16) (model : Nat) : exec (.stepBoundary p model) s = execStepBoundary p model s := rfl
theorem exec_prefillPassStart {s : State} (p : Fin 16) (request : Nat) : exec (.prefillPassStart p request) s = execPrefillPassStart p request s := rfl
theorem exec_prefillPassCommit {s : State} (p : Fin 16) (request : Nat) : exec (.prefillPassCommit p request) s = execPrefillPassCommit p request s := rfl
theorem exec_handleDrop {s : State} (p : Fin 16) : exec (.handleDrop p) s = execHandleDrop p s := rfl
theorem exec_servingEnable {s : State} (p : Fin 16) : exec (.servingEnable p) s = execServingEnable p s := rfl
theorem exec_servingDisable {s : State} (p : Fin 16) : exec (.servingDisable p) s = execServingDisable p s := rfl
theorem exec_prtRun {s : State} (p : Fin 16) : exec (.prtRun p) s = execPrtRun p s := rfl
theorem exec_prtSuspend {s : State} (p : Fin 16) : exec (.prtSuspend p) s = execPrtSuspend p s := rfl
theorem exec_prtRelease {s : State} (p : Fin 16) : exec (.prtRelease p) s = execPrtRelease p s := rfl
theorem exec_suspendCommitsDone {s : State} (p : Fin 16) : exec (.suspendCommitsDone p) s = execSuspendCommitsDone p s := rfl
theorem exec_writebackDone {s : State} (p : Fin 16) : exec (.writebackDone p) s = execWritebackDone p s := rfl
theorem exec_preloadDone {s : State} (p : Fin 16) : exec (.preloadDone p) s = execPreloadDone p s := rfl
theorem exec_shadowCommit {s : State} (page : Nat) : exec (.shadowCommit page) s = execShadowCommit page s := rfl
theorem exec_streamListCommit {s : State} (p : Fin 16) : exec (.streamListCommit p) s = execStreamListCommit p s := rfl
theorem exec_portModeCommit {s : State} (port : Fin 8) : exec (.portModeCommit port) s = execPortModeCommit port s := rfl
theorem exec_funnelFillStart {s : State} (p : Fin 16) : exec (.funnelFillStart p) s = execFunnelFillStart p s := rfl
theorem exec_pageCopyDone {s : State} (page : Nat) : exec (.pageCopyDone page) s = execPageCopyDone page s := rfl
theorem exec_oldFrameRelease {s : State} (page : Nat) : exec (.oldFrameRelease page) s = execOldFrameRelease page s := rfl
theorem exec_arbRequest {s : State} (arb : Fin 36) (port : Fin 32) (req : ArbReq) (cycles : Nat) : exec (.arbRequest arb port req cycles) s = execArbRequest arb port req cycles s := rfl
theorem exec_arbGrantDone {s : State} (arb : Fin 36) (cycles : Nat) : exec (.arbGrantDone arb cycles) s = execArbGrantDone arb cycles s := rfl
theorem exec_arbWatchdog {s : State} (arb : Fin 36) (ticks : Nat) : exec (.arbWatchdog arb ticks) s = execArbWatchdog arb ticks s := rfl
theorem exec_portRestore {s : State} (arb : Fin 36) : exec (.portRestore arb) s = execPortRestore arb s := rfl
theorem exec_wordLineProgrammed {s : State} (ch : Fin 32) (die : Fin 16) : exec (.wordLineProgrammed ch die) s = execWordLineProgrammed ch die s := rfl
theorem exec_writeBufferTimeout {s : State} (ch : Fin 32) (die : Fin 16) : exec (.writeBufferTimeout ch die) s = execWriteBufferTimeout ch die s := rfl
theorem exec_flashFlush {s : State} : exec .flashFlush s = execFlashFlush s := rfl
theorem exec_flashShutdown {s : State} : exec .flashShutdown s = execFlashShutdown s := rfl
theorem exec_flashFormat {s : State} : exec .flashFormat s = execFlashFormat s := rfl
theorem exec_mapLoadDone {s : State} : exec .mapLoadDone s = execMapLoadDone s := rfl
theorem exec_mapRebuildDone {s : State} (seconds : Nat) : exec (.mapRebuildDone seconds) s = execMapRebuildDone seconds s := rfl
theorem exec_reclaim {s : State} (ch : Fin 32) : exec (.reclaim ch) s = execReclaim ch s := rfl
theorem exec_wearLevel {s : State} (ch : Fin 32) : exec (.wearLevel ch) s = execWearLevel ch s := rfl
theorem exec_fold {s : State} (ch : Fin 32) : exec (.fold ch) s = execFold ch s := rfl
theorem exec_relocationDone {s : State} (ch : Fin 32) (lua : Nat) : exec (.relocationDone ch lua) s = execRelocationDone ch lua s := rfl
theorem exec_oldBlockErase {s : State} (blk : BlockId) : exec (.oldBlockErase blk) s = execOldBlockErase blk s := rfl
theorem exec_readVerify {s : State} (ch : Fin 32) (band : Nat) (failed : List BlockId) : exec (.readVerify ch band failed) s = execReadVerify ch band failed s := rfl
theorem exec_patrolStep {s : State} (sample : PatrolSample) : exec (.patrolStep sample) s = execPatrolStep sample s := rfl
theorem exec_programFailure {s : State} (blk : BlockId) : exec (.programFailure blk) s = execProgramFailure blk s := rfl
theorem exec_eraseFailure {s : State} (blk : BlockId) : exec (.eraseFailure blk) s = execEraseFailure blk s := rfl
theorem exec_unitLost {s : State} (lua : Nat) : exec (.unitLost lua) s = execUnitLost lua s := rfl
theorem exec_dieLost {s : State} (ch : Fin 32) (die : Fin 16) : exec (.dieLost ch die) s = execDieLost ch die s := rfl
theorem exec_linkUp {s : State} (sub : Fin 32) : exec (.linkUp sub) s = execLinkUp sub s := rfl
theorem exec_linkDown {s : State} (sub : Fin 32) : exec (.linkDown sub) s = execLinkDown sub s := rfl
theorem exec_arpRequest {s : State} (sub : Fin 32) (q : ArpQuery) : exec (.arpRequest sub q) s = execArpRequest sub q s := rfl
theorem exec_neighborSolicitation {s : State} (sub : Fin 32) (q : NsQuery) : exec (.neighborSolicitation sub q) s = execNeighborSolicitation sub q s := rfl
theorem exec_icmpEcho {s : State} (sub : Fin 32) (q : EchoQuery) : exec (.icmpEcho sub q) s = execIcmpEcho sub q s := rfl
theorem exec_pfcFrame {s : State} (port : Fin 8) (prio : Fin 8) (quanta : Half) : exec (.pfcFrame port prio quanta) s = execPfcFrame port prio quanta s := rfl
theorem exec_cnpReceived {s : State} (qp : Fin 4096) : exec (.cnpReceived qp) s = execCnpReceived qp s := rfl
theorem exec_roceRdmaWrite {s : State} (qp : Fin 4096) (psn : BitVec 24) (ce : Bool) (rkey : Word) (va : Dword) (data : List Byte) : exec (.roceRdmaWrite qp psn ce rkey va data) s = execRoceRdmaWrite qp psn ce rkey va data s := rfl
theorem exec_roceRdmaRead {s : State} (qp : Fin 4096) (psn : BitVec 24) (ce : Bool) (rkey : Word) (va : Dword) (len : Word) : exec (.roceRdmaRead qp psn ce rkey va len) s = execRoceRdmaRead qp psn ce rkey va len s := rfl
theorem exec_roceAck {s : State} (qp : Fin 4096) (psn : BitVec 24) (nak : Option (BitVec 5)) : exec (.roceAck qp psn nak) s = execRoceAck qp psn nak s := rfl
theorem exec_roceRnrNak {s : State} (qp : Fin 4096) (psn : BitVec 24) : exec (.roceRnrNak qp psn) s = execRoceRnrNak qp psn s := rfl
theorem exec_roceAckTimeout {s : State} (qp : Fin 4096) : exec (.roceAckTimeout qp) s = execRoceAckTimeout qp s := rfl
theorem exec_mgmtReadReg {s : State} (req : MgmtReq) : exec (.mgmtReadReg req) s = execMgmtReadReg req s := rfl
theorem exec_mgmtWriteReg {s : State} (req : MgmtReq) : exec (.mgmtWriteReg req) s = execMgmtWriteReg req s := rfl
theorem exec_mgmtReadMem {s : State} (req : MgmtReq) : exec (.mgmtReadMem req) s = execMgmtReadMem req s := rfl
theorem exec_mgmtWriteMem {s : State} (req : MgmtReq) : exec (.mgmtWriteMem req) s = execMgmtWriteMem req s := rfl
theorem exec_qpSet {s : State} (req : MgmtReq) : exec (.qpSet req) s = execQpSet req s := rfl
theorem exec_qpGet {s : State} (req : MgmtReq) : exec (.qpGet req) s = execQpGet req s := rfl
theorem exec_fabricSet {s : State} (req : MgmtReq) : exec (.fabricSet req) s = execFabricSet req s := rfl
theorem exec_commSet {s : State} (req : MgmtReq) : exec (.commSet req) s = execCommSet req s := rfl
theorem exec_saSet {s : State} (req : MgmtReq) : exec (.saSet req) s = execSaSet req s := rfl
theorem exec_identify {s : State} (req : MgmtReq) : exec (.identify req) s = execIdentify req s := rfl
theorem exec_readyMessage {s : State} : exec .readyMessage s = execReadyMessage s := rfl
theorem exec_fabricData {s : State} (h : FabHdr) (payload : List Byte) : exec (.fabricData h payload) s = execFabricData h payload s := rfl
theorem exec_fabricAck {s : State} (h : FabHdr) (ack : AckBody) (rtt : Nat) : exec (.fabricAck h ack rtt) s = execFabricAck h ack rtt s := rfl
theorem exec_fabricNack {s : State} (h : FabHdr) (psn : Word) (code : Byte) : exec (.fabricNack h psn code) s = execFabricNack h psn code s := rfl
theorem exec_fabricSemop {s : State} (h : FabHdr) (op : Byte) (n : Word) : exec (.fabricSemop h op n) s = execFabricSemop h op n s := rfl
theorem exec_fabricSemReply {s : State} (h : FabHdr) (result : Byte) : exec (.fabricSemReply h result) s = execFabricSemReply h result s := rfl
theorem exec_cancelNotice {s : State} (h : FabHdr) (stage : Byte) : exec (.cancelNotice h stage) s = execCancelNotice h stage s := rfl
theorem exec_cancelAck {s : State} (h : FabHdr) (stage : Byte) : exec (.cancelAck h stage) s = execCancelAck h stage s := rfl
theorem exec_cancelConfirm {s : State} (h : FabHdr) (stage : Byte) : exec (.cancelConfirm h stage) s = execCancelConfirm h stage s := rfl
theorem exec_cancelDefer {s : State} (h : FabHdr) (stage : Byte) : exec (.cancelDefer h stage) s = execCancelDefer h stage s := rfl
theorem exec_fabricLag {s : State} (h : FabHdr) (lambda : Word) (count : Half) : exec (.fabricLag h lambda count) s = execFabricLag h lambda count s := rfl
theorem exec_fabricRelease {s : State} (h : FabHdr) : exec (.fabricRelease h) s = execFabricRelease h s := rfl
theorem exec_fabricRto {s : State} (conn : ConnId) (psn : Word) : exec (.fabricRto conn psn) s = execFabricRto conn psn s := rfl
theorem exec_ackDelayTimer {s : State} (conn : ConnId) : exec (.ackDelayTimer conn) s = execAckDelayTimer conn s := rfl
theorem exec_nackResendTimer {s : State} (conn : ConnId) (psn : Word) : exec (.nackResendTimer conn psn) s = execNackResendTimer conn psn s := rfl
theorem exec_connectionIdle {s : State} (conn : ConnId) : exec (.connectionIdle conn) s = execConnectionIdle conn s := rfl
theorem exec_rateUpdate {s : State} (conn : ConnId) : exec (.rateUpdate conn) s = execRateUpdate conn s := rfl
theorem exec_strobeEdge {s : State} (sample : StrobeSample) : exec (.strobeEdge sample) s = execStrobeEdge sample s := rfl
theorem exec_paceCalTimeout {s : State} (core : Fin 208) : exec (.paceCalTimeout core) s = execPaceCalTimeout core s := rfl
theorem exec_laggardCheck {s : State} {u : Unit} : exec (.laggardCheck u) s = execLaggardCheck u s := rfl
theorem exec_thermalTrip {s : State} : exec .thermalTrip s = execThermalTrip s := rfl
theorem exec_supplyWarning {s : State} (rail : Fin 12) (mv : Nat) : exec (.supplyWarning rail mv) s = execSupplyWarning rail mv s := rfl
theorem exec_supplyRecover {s : State} (rail : Fin 12) (minMv ticks : Nat) : exec (.supplyRecover rail minMv ticks) s = execSupplyRecover rail minMv ticks s := rfl
theorem exec_coreRailReset {s : State} (die : Fin 4) (mv : Nat) : exec (.coreRailReset die mv) s = execCoreRailReset die mv s := rfl
theorem exec_islandRailReset {s : State} (rail : Fin 12) (mv : Nat) : exec (.islandRailReset rail mv) s = execIslandRailReset rail mv s := rfl
theorem exec_deviceRailReset {s : State} (rail : Fin 12) : exec (.deviceRailReset rail) s = execDeviceRailReset rail s := rfl
theorem exec_clockLost {s : State} (clk : Fin 3) : exec (.clockLost clk) s = execClockLost clk s := rfl
theorem exec_clockRestored {s : State} (clk : Fin 3) : exec (.clockRestored clk) s = execClockRestored clk s := rfl
theorem exec_correctedError {s : State} (site : ErrSite) : exec (.correctedError site) s = execCorrectedError site s := rfl
theorem exec_uncorrectedError {s : State} (site : ErrSite) (users : List CmdRef) : exec (.uncorrectedError site users) s = execUncorrectedError site users s := rfl
theorem exec_selfTestDone {s : State} (site : ErrSite) (result : TestResult) : exec (.selfTestDone site result) s = execSelfTestDone site result s := rfl
theorem exec_keyLoad {s : State} : exec .keyLoad s = execKeyLoad s := rfl
theorem exec_keyLock {s : State} : exec .keyLock s = execKeyLock s := rfl
theorem exec_keyClear {s : State} : exec .keyClear s = execKeyClear s := rfl
theorem exec_attestationGo {s : State} : exec .attestationGo s = execAttestationGo s := rfl
theorem exec_attestationDone {s : State} : exec .attestationDone s = execAttestationDone s := rfl
theorem exec_measurementExtend {s : State} : exec .measurementExtend s = execMeasurementExtend s := rfl
theorem exec_svnCommit {s : State} : exec .svnCommit s = execSvnCommit s := rfl
theorem exec_debugOpen {s : State} : exec .debugOpen s = execDebugOpen s := rfl
theorem exec_calendarSet {s : State} : exec .calendarSet s = execCalendarSet s := rfl
theorem exec_secLoLatch {s : State} : exec .secLoLatch s = execSecLoLatch s := rfl
theorem exec_energyLoLatch {s : State} : exec .energyLoLatch s = execEnergyLoLatch s := rfl
theorem exec_vbatLow {s : State} : exec .vbatLow s = execVbatLow s := rfl
theorem exec_oscStop {s : State} : exec .oscStop s = execOscStop s := rfl
theorem exec_counterClear {s : State} (core : Fin 208) : exec (.counterClear core) s = execCounterClear core s := rfl
theorem exec_headerCounterClear {s : State} (page : Nat) : exec (.headerCounterClear page) s = execHeaderCounterClear page s := rfl
theorem exec_registerWrite {s : State} (m : RegMaster) (page off : Nat) (value : Word) : exec (.registerWrite m page off value) s = execRegisterWrite m page off value s := rfl
theorem exec_i3cEntdaa {s : State} (addr : BitVec 7) : exec (.i3cEntdaa addr) s = execI3cEntdaa addr s := rfl
theorem exec_i3cPrivateWrite {s : State} (bytes : List Byte) : exec (.i3cPrivateWrite bytes) s = execI3cPrivateWrite bytes s := rfl
theorem exec_i3cPrivateRead {s : State} (words : Nat) : exec (.i3cPrivateRead words) s = execI3cPrivateRead words s := rfl
theorem exec_porNAssert {s : State} : exec .porNAssert s = execPorNAssert s := rfl
theorem exec_warmNAssert {s : State} : exec .warmNAssert s = execWarmNAssert s := rfl
theorem exec_resetRelease {s : State} : exec .resetRelease s = execResetRelease s := rfl
theorem exec_bootVerified {s : State} (slotA slotB : Option (List Byte)) : exec (.bootVerified slotA slotB) s = execBootVerified slotA slotB s := rfl
theorem exec_hbmTrained {s : State} (results : List HbmTrain) : exec (.hbmTrained results) s = execHbmTrained results s := rfl
theorem exec_ddrTrained {s : State} (spds : List (Option Spd)) : exec (.ddrTrained spds) s = execDdrTrained spds s := rfl
theorem exec_tierClearDone {s : State} (ddr : Bool) : exec (.tierClearDone ddr) s = execTierClearDone ddr s := rfl
theorem exec_readyRise {s : State} (ms : Nat) : exec (.readyRise ms) s = execReadyRise ms s := rfl
theorem exec_flashChannelsTrained {s : State} (dies : List (List FlashDie)) : exec (.flashChannelsTrained dies) s = execFlashChannelsTrained dies s := rfl
theorem exec_retrain {s : State} (island : Island) : exec (.retrain island) s = execRetrain island s := rfl
theorem exec_refresh {s : State} (ch : Fin 32) : exec (.refresh ch) s = execRefresh ch s := rfl
theorem exec_stray {s : State} (sub : Fin 32) (why : StrayWhy) : exec (.stray sub why) s = execStray sub why s := rfl
theorem exec_invalidRequest {s : State} (qp : Fin 4096) (psn : BitVec 24) : exec (.invalidRequest qp psn) s = execInvalidRequest qp psn s := rfl
theorem exec_tapInstruction {s : State} (ins : TapIns) : exec (.tapInstruction ins) s = execTapInstruction ins s := rfl

end Sys2Proof.Machine
end

