-- ==== Sys2Proof/Laws/State.lean ====
section
/-! SUPPORT. One lemma per field and update of State: what each of the named updates leaves as it was. -/

namespace Sys2Proof.Machine

variable (s : State)

@[simp] theorem State.setSem_pending (k : Nat) (x : Sem) : (s.setSem k x).pending = s.pending := rfl
@[simp] theorem State.setSem_tx (k : Nat) (x : Sem) : (s.setSem k x).tx = s.tx := rfl
@[simp] theorem State.setSem_freeCtr (k : Nat) (x : Sem) : (s.setSem k x).freeCtr = s.freeCtr := rfl
@[simp] theorem State.setSem_fitted (k : Nat) (x : Sem) : (s.setSem k x).fitted = s.fitted := rfl
@[simp] theorem State.setSem_start (k : Nat) (x : Sem) : (s.setSem k x).start = s.start := rfl
@[simp] theorem State.setSem_regs (k : Nat) (x : Sem) : (s.setSem k x).regs = s.regs := rfl
@[simp] theorem State.setSem_shadow (k : Nat) (x : Sem) : (s.setSem k x).shadow = s.shadow := rfl
@[simp] theorem State.setSem_eventOnce (k : Nat) (x : Sem) : (s.setSem k x).eventOnce = s.eventOnce := rfl
@[simp] theorem State.setSem_strobes (k : Nat) (x : Sem) : (s.setSem k x).strobes = s.strobes := rfl
@[simp] theorem State.setSem_mem (k : Nat) (x : Sem) : (s.setSem k x).mem = s.mem := rfl
@[simp] theorem State.setSem_pages (k : Nat) (x : Sem) : (s.setSem k x).pages = s.pages := rfl
@[simp] theorem State.setSem_tiers (k : Nat) (x : Sem) : (s.setSem k x).tiers = s.tiers := rfl
@[simp] theorem State.setSem_cores (k : Nat) (x : Sem) : (s.setSem k x).cores = s.cores := rfl
@[simp] theorem State.setSem_dies (k : Nat) (x : Sem) : (s.setSem k x).dies = s.dies := rfl
@[simp] theorem State.setSem_medianRate (k : Nat) (x : Sem) : (s.setSem k x).medianRate = s.medianRate := rfl
@[simp] theorem State.setSem_rails (k : Nat) (x : Sem) : (s.setSem k x).rails = s.rails := rfl
@[simp] theorem State.setSem_cmds (k : Nat) (x : Sem) : (s.setSem k x).cmds = s.cmds := rfl
@[simp] theorem State.setSem_lists (k : Nat) (x : Sem) : (s.setSem k x).lists = s.lists := rfl
@[simp] theorem State.setSem_nextSeq (k : Nat) (x : Sem) : (s.setSem k x).nextSeq = s.nextSeq := rfl
@[simp] theorem State.setSem_parts (k : Nat) (x : Sem) : (s.setSem k x).parts = s.parts := rfl
@[simp] theorem State.setSem_changeQueue (k : Nat) (x : Sem) : (s.setSem k x).changeQueue = s.changeQueue := rfl
@[simp] theorem State.setSem_tables (k : Nat) (x : Sem) : (s.setSem k x).tables = s.tables := rfl
@[simp] theorem State.setSem_indexes (k : Nat) (x : Sem) : (s.setSem k x).indexes = s.indexes := rfl
@[simp] theorem State.setSem_texts (k : Nat) (x : Sem) : (s.setSem k x).texts = s.texts := rfl
@[simp] theorem State.setSem_stalls (k : Nat) (x : Sem) : (s.setSem k x).stalls = s.stalls := rfl
@[simp] theorem State.setSem_arbs (k : Nat) (x : Sem) : (s.setSem k x).arbs = s.arbs := rfl
@[simp] theorem State.setSem_flash (k : Nat) (x : Sem) : (s.setSem k x).flash = s.flash := rfl
@[simp] theorem State.setSem_net (k : Nat) (x : Sem) : (s.setSem k x).net = s.net := rfl
@[simp] theorem State.setSem_errors (k : Nat) (x : Sem) : (s.setSem k x).errors = s.errors := rfl
@[simp] theorem State.setSem_sec (k : Nat) (x : Sem) : (s.setSem k x).sec = s.sec := rfl
@[simp] theorem State.setSem_cal (k : Nat) (x : Sem) : (s.setSem k x).cal = s.cal := rfl
@[simp] theorem State.setSem_i3cAddr (k : Nat) (x : Sem) : (s.setSem k x).i3cAddr = s.i3cAddr := rfl
@[simp] theorem State.setSem_i3cPtr (k : Nat) (x : Sem) : (s.setSem k x).i3cPtr = s.i3cPtr := rfl
@[simp] theorem State.setSem_energyLatch (k : Nat) (x : Sem) : (s.setSem k x).energyLatch = s.energyLatch := rfl
@[simp] theorem State.setSem_readStamp (k : Nat) (x : Sem) : (s.setSem k x).readStamp = s.readStamp := rfl
@[simp] theorem State.setSem_residue (k : Nat) (x : Sem) : (s.setSem k x).residue = s.residue := rfl

@[simp] theorem State.setCore_pending (k : Nat) (x : Core) : (s.setCore k x).pending = s.pending := rfl
@[simp] theorem State.setCore_tx (k : Nat) (x : Core) : (s.setCore k x).tx = s.tx := rfl
@[simp] theorem State.setCore_freeCtr (k : Nat) (x : Core) : (s.setCore k x).freeCtr = s.freeCtr := rfl
@[simp] theorem State.setCore_fitted (k : Nat) (x : Core) : (s.setCore k x).fitted = s.fitted := rfl
@[simp] theorem State.setCore_start (k : Nat) (x : Core) : (s.setCore k x).start = s.start := rfl
@[simp] theorem State.setCore_regs (k : Nat) (x : Core) : (s.setCore k x).regs = s.regs := rfl
@[simp] theorem State.setCore_shadow (k : Nat) (x : Core) : (s.setCore k x).shadow = s.shadow := rfl
@[simp] theorem State.setCore_eventOnce (k : Nat) (x : Core) : (s.setCore k x).eventOnce = s.eventOnce := rfl
@[simp] theorem State.setCore_strobes (k : Nat) (x : Core) : (s.setCore k x).strobes = s.strobes := rfl
@[simp] theorem State.setCore_mem (k : Nat) (x : Core) : (s.setCore k x).mem = s.mem := rfl
@[simp] theorem State.setCore_pages (k : Nat) (x : Core) : (s.setCore k x).pages = s.pages := rfl
@[simp] theorem State.setCore_tiers (k : Nat) (x : Core) : (s.setCore k x).tiers = s.tiers := rfl
@[simp] theorem State.setCore_sems (k : Nat) (x : Core) : (s.setCore k x).sems = s.sems := rfl
@[simp] theorem State.setCore_dies (k : Nat) (x : Core) : (s.setCore k x).dies = s.dies := rfl
@[simp] theorem State.setCore_medianRate (k : Nat) (x : Core) : (s.setCore k x).medianRate = s.medianRate := rfl
@[simp] theorem State.setCore_rails (k : Nat) (x : Core) : (s.setCore k x).rails = s.rails := rfl
@[simp] theorem State.setCore_cmds (k : Nat) (x : Core) : (s.setCore k x).cmds = s.cmds := rfl
@[simp] theorem State.setCore_lists (k : Nat) (x : Core) : (s.setCore k x).lists = s.lists := rfl
@[simp] theorem State.setCore_nextSeq (k : Nat) (x : Core) : (s.setCore k x).nextSeq = s.nextSeq := rfl
@[simp] theorem State.setCore_parts (k : Nat) (x : Core) : (s.setCore k x).parts = s.parts := rfl
@[simp] theorem State.setCore_changeQueue (k : Nat) (x : Core) : (s.setCore k x).changeQueue = s.changeQueue := rfl
@[simp] theorem State.setCore_tables (k : Nat) (x : Core) : (s.setCore k x).tables = s.tables := rfl
@[simp] theorem State.setCore_indexes (k : Nat) (x : Core) : (s.setCore k x).indexes = s.indexes := rfl
@[simp] theorem State.setCore_texts (k : Nat) (x : Core) : (s.setCore k x).texts = s.texts := rfl
@[simp] theorem State.setCore_stalls (k : Nat) (x : Core) : (s.setCore k x).stalls = s.stalls := rfl
@[simp] theorem State.setCore_arbs (k : Nat) (x : Core) : (s.setCore k x).arbs = s.arbs := rfl
@[simp] theorem State.setCore_flash (k : Nat) (x : Core) : (s.setCore k x).flash = s.flash := rfl
@[simp] theorem State.setCore_net (k : Nat) (x : Core) : (s.setCore k x).net = s.net := rfl
@[simp] theorem State.setCore_errors (k : Nat) (x : Core) : (s.setCore k x).errors = s.errors := rfl
@[simp] theorem State.setCore_sec (k : Nat) (x : Core) : (s.setCore k x).sec = s.sec := rfl
@[simp] theorem State.setCore_cal (k : Nat) (x : Core) : (s.setCore k x).cal = s.cal := rfl
@[simp] theorem State.setCore_i3cAddr (k : Nat) (x : Core) : (s.setCore k x).i3cAddr = s.i3cAddr := rfl
@[simp] theorem State.setCore_i3cPtr (k : Nat) (x : Core) : (s.setCore k x).i3cPtr = s.i3cPtr := rfl
@[simp] theorem State.setCore_energyLatch (k : Nat) (x : Core) : (s.setCore k x).energyLatch = s.energyLatch := rfl
@[simp] theorem State.setCore_readStamp (k : Nat) (x : Core) : (s.setCore k x).readStamp = s.readStamp := rfl
@[simp] theorem State.setCore_residue (k : Nat) (x : Core) : (s.setCore k x).residue = s.residue := rfl

@[simp] theorem State.setDie_pending (k : Nat) (x : Die) : (s.setDie k x).pending = s.pending := rfl
@[simp] theorem State.setDie_tx (k : Nat) (x : Die) : (s.setDie k x).tx = s.tx := rfl
@[simp] theorem State.setDie_freeCtr (k : Nat) (x : Die) : (s.setDie k x).freeCtr = s.freeCtr := rfl
@[simp] theorem State.setDie_fitted (k : Nat) (x : Die) : (s.setDie k x).fitted = s.fitted := rfl
@[simp] theorem State.setDie_start (k : Nat) (x : Die) : (s.setDie k x).start = s.start := rfl
@[simp] theorem State.setDie_regs (k : Nat) (x : Die) : (s.setDie k x).regs = s.regs := rfl
@[simp] theorem State.setDie_shadow (k : Nat) (x : Die) : (s.setDie k x).shadow = s.shadow := rfl
@[simp] theorem State.setDie_eventOnce (k : Nat) (x : Die) : (s.setDie k x).eventOnce = s.eventOnce := rfl
@[simp] theorem State.setDie_strobes (k : Nat) (x : Die) : (s.setDie k x).strobes = s.strobes := rfl
@[simp] theorem State.setDie_mem (k : Nat) (x : Die) : (s.setDie k x).mem = s.mem := rfl
@[simp] theorem State.setDie_pages (k : Nat) (x : Die) : (s.setDie k x).pages = s.pages := rfl
@[simp] theorem State.setDie_tiers (k : Nat) (x : Die) : (s.setDie k x).tiers = s.tiers := rfl
@[simp] theorem State.setDie_sems (k : Nat) (x : Die) : (s.setDie k x).sems = s.sems := rfl
@[simp] theorem State.setDie_cores (k : Nat) (x : Die) : (s.setDie k x).cores = s.cores := rfl
@[simp] theorem State.setDie_medianRate (k : Nat) (x : Die) : (s.setDie k x).medianRate = s.medianRate := rfl
@[simp] theorem State.setDie_rails (k : Nat) (x : Die) : (s.setDie k x).rails = s.rails := rfl
@[simp] theorem State.setDie_cmds (k : Nat) (x : Die) : (s.setDie k x).cmds = s.cmds := rfl
@[simp] theorem State.setDie_lists (k : Nat) (x : Die) : (s.setDie k x).lists = s.lists := rfl
@[simp] theorem State.setDie_nextSeq (k : Nat) (x : Die) : (s.setDie k x).nextSeq = s.nextSeq := rfl
@[simp] theorem State.setDie_parts (k : Nat) (x : Die) : (s.setDie k x).parts = s.parts := rfl
@[simp] theorem State.setDie_changeQueue (k : Nat) (x : Die) : (s.setDie k x).changeQueue = s.changeQueue := rfl
@[simp] theorem State.setDie_tables (k : Nat) (x : Die) : (s.setDie k x).tables = s.tables := rfl
@[simp] theorem State.setDie_indexes (k : Nat) (x : Die) : (s.setDie k x).indexes = s.indexes := rfl
@[simp] theorem State.setDie_texts (k : Nat) (x : Die) : (s.setDie k x).texts = s.texts := rfl
@[simp] theorem State.setDie_stalls (k : Nat) (x : Die) : (s.setDie k x).stalls = s.stalls := rfl
@[simp] theorem State.setDie_arbs (k : Nat) (x : Die) : (s.setDie k x).arbs = s.arbs := rfl
@[simp] theorem State.setDie_flash (k : Nat) (x : Die) : (s.setDie k x).flash = s.flash := rfl
@[simp] theorem State.setDie_net (k : Nat) (x : Die) : (s.setDie k x).net = s.net := rfl
@[simp] theorem State.setDie_errors (k : Nat) (x : Die) : (s.setDie k x).errors = s.errors := rfl
@[simp] theorem State.setDie_sec (k : Nat) (x : Die) : (s.setDie k x).sec = s.sec := rfl
@[simp] theorem State.setDie_cal (k : Nat) (x : Die) : (s.setDie k x).cal = s.cal := rfl
@[simp] theorem State.setDie_i3cAddr (k : Nat) (x : Die) : (s.setDie k x).i3cAddr = s.i3cAddr := rfl
@[simp] theorem State.setDie_i3cPtr (k : Nat) (x : Die) : (s.setDie k x).i3cPtr = s.i3cPtr := rfl
@[simp] theorem State.setDie_energyLatch (k : Nat) (x : Die) : (s.setDie k x).energyLatch = s.energyLatch := rfl
@[simp] theorem State.setDie_readStamp (k : Nat) (x : Die) : (s.setDie k x).readStamp = s.readStamp := rfl
@[simp] theorem State.setDie_residue (k : Nat) (x : Die) : (s.setDie k x).residue = s.residue := rfl

@[simp] theorem State.setRail_pending (k : Nat) (x : Rail) : (s.setRail k x).pending = s.pending := rfl
@[simp] theorem State.setRail_tx (k : Nat) (x : Rail) : (s.setRail k x).tx = s.tx := rfl
@[simp] theorem State.setRail_freeCtr (k : Nat) (x : Rail) : (s.setRail k x).freeCtr = s.freeCtr := rfl
@[simp] theorem State.setRail_fitted (k : Nat) (x : Rail) : (s.setRail k x).fitted = s.fitted := rfl
@[simp] theorem State.setRail_start (k : Nat) (x : Rail) : (s.setRail k x).start = s.start := rfl
@[simp] theorem State.setRail_regs (k : Nat) (x : Rail) : (s.setRail k x).regs = s.regs := rfl
@[simp] theorem State.setRail_shadow (k : Nat) (x : Rail) : (s.setRail k x).shadow = s.shadow := rfl
@[simp] theorem State.setRail_eventOnce (k : Nat) (x : Rail) : (s.setRail k x).eventOnce = s.eventOnce := rfl
@[simp] theorem State.setRail_strobes (k : Nat) (x : Rail) : (s.setRail k x).strobes = s.strobes := rfl
@[simp] theorem State.setRail_mem (k : Nat) (x : Rail) : (s.setRail k x).mem = s.mem := rfl
@[simp] theorem State.setRail_pages (k : Nat) (x : Rail) : (s.setRail k x).pages = s.pages := rfl
@[simp] theorem State.setRail_tiers (k : Nat) (x : Rail) : (s.setRail k x).tiers = s.tiers := rfl
@[simp] theorem State.setRail_sems (k : Nat) (x : Rail) : (s.setRail k x).sems = s.sems := rfl
@[simp] theorem State.setRail_cores (k : Nat) (x : Rail) : (s.setRail k x).cores = s.cores := rfl
@[simp] theorem State.setRail_dies (k : Nat) (x : Rail) : (s.setRail k x).dies = s.dies := rfl
@[simp] theorem State.setRail_medianRate (k : Nat) (x : Rail) : (s.setRail k x).medianRate = s.medianRate := rfl
@[simp] theorem State.setRail_cmds (k : Nat) (x : Rail) : (s.setRail k x).cmds = s.cmds := rfl
@[simp] theorem State.setRail_lists (k : Nat) (x : Rail) : (s.setRail k x).lists = s.lists := rfl
@[simp] theorem State.setRail_nextSeq (k : Nat) (x : Rail) : (s.setRail k x).nextSeq = s.nextSeq := rfl
@[simp] theorem State.setRail_parts (k : Nat) (x : Rail) : (s.setRail k x).parts = s.parts := rfl
@[simp] theorem State.setRail_changeQueue (k : Nat) (x : Rail) : (s.setRail k x).changeQueue = s.changeQueue := rfl
@[simp] theorem State.setRail_tables (k : Nat) (x : Rail) : (s.setRail k x).tables = s.tables := rfl
@[simp] theorem State.setRail_indexes (k : Nat) (x : Rail) : (s.setRail k x).indexes = s.indexes := rfl
@[simp] theorem State.setRail_texts (k : Nat) (x : Rail) : (s.setRail k x).texts = s.texts := rfl
@[simp] theorem State.setRail_stalls (k : Nat) (x : Rail) : (s.setRail k x).stalls = s.stalls := rfl
@[simp] theorem State.setRail_arbs (k : Nat) (x : Rail) : (s.setRail k x).arbs = s.arbs := rfl
@[simp] theorem State.setRail_flash (k : Nat) (x : Rail) : (s.setRail k x).flash = s.flash := rfl
@[simp] theorem State.setRail_net (k : Nat) (x : Rail) : (s.setRail k x).net = s.net := rfl
@[simp] theorem State.setRail_errors (k : Nat) (x : Rail) : (s.setRail k x).errors = s.errors := rfl
@[simp] theorem State.setRail_sec (k : Nat) (x : Rail) : (s.setRail k x).sec = s.sec := rfl
@[simp] theorem State.setRail_cal (k : Nat) (x : Rail) : (s.setRail k x).cal = s.cal := rfl
@[simp] theorem State.setRail_i3cAddr (k : Nat) (x : Rail) : (s.setRail k x).i3cAddr = s.i3cAddr := rfl
@[simp] theorem State.setRail_i3cPtr (k : Nat) (x : Rail) : (s.setRail k x).i3cPtr = s.i3cPtr := rfl
@[simp] theorem State.setRail_energyLatch (k : Nat) (x : Rail) : (s.setRail k x).energyLatch = s.energyLatch := rfl
@[simp] theorem State.setRail_readStamp (k : Nat) (x : Rail) : (s.setRail k x).readStamp = s.readStamp := rfl
@[simp] theorem State.setRail_residue (k : Nat) (x : Rail) : (s.setRail k x).residue = s.residue := rfl

@[simp] theorem State.setPart_pending (k : Nat) (x : Part) : (s.setPart k x).pending = s.pending := rfl
@[simp] theorem State.setPart_tx (k : Nat) (x : Part) : (s.setPart k x).tx = s.tx := rfl
@[simp] theorem State.setPart_freeCtr (k : Nat) (x : Part) : (s.setPart k x).freeCtr = s.freeCtr := rfl
@[simp] theorem State.setPart_fitted (k : Nat) (x : Part) : (s.setPart k x).fitted = s.fitted := rfl
@[simp] theorem State.setPart_start (k : Nat) (x : Part) : (s.setPart k x).start = s.start := rfl
@[simp] theorem State.setPart_regs (k : Nat) (x : Part) : (s.setPart k x).regs = s.regs := rfl
@[simp] theorem State.setPart_shadow (k : Nat) (x : Part) : (s.setPart k x).shadow = s.shadow := rfl
@[simp] theorem State.setPart_eventOnce (k : Nat) (x : Part) : (s.setPart k x).eventOnce = s.eventOnce := rfl
@[simp] theorem State.setPart_strobes (k : Nat) (x : Part) : (s.setPart k x).strobes = s.strobes := rfl
@[simp] theorem State.setPart_mem (k : Nat) (x : Part) : (s.setPart k x).mem = s.mem := rfl
@[simp] theorem State.setPart_pages (k : Nat) (x : Part) : (s.setPart k x).pages = s.pages := rfl
@[simp] theorem State.setPart_tiers (k : Nat) (x : Part) : (s.setPart k x).tiers = s.tiers := rfl
@[simp] theorem State.setPart_sems (k : Nat) (x : Part) : (s.setPart k x).sems = s.sems := rfl
@[simp] theorem State.setPart_cores (k : Nat) (x : Part) : (s.setPart k x).cores = s.cores := rfl
@[simp] theorem State.setPart_dies (k : Nat) (x : Part) : (s.setPart k x).dies = s.dies := rfl
@[simp] theorem State.setPart_medianRate (k : Nat) (x : Part) : (s.setPart k x).medianRate = s.medianRate := rfl
@[simp] theorem State.setPart_rails (k : Nat) (x : Part) : (s.setPart k x).rails = s.rails := rfl
@[simp] theorem State.setPart_cmds (k : Nat) (x : Part) : (s.setPart k x).cmds = s.cmds := rfl
@[simp] theorem State.setPart_lists (k : Nat) (x : Part) : (s.setPart k x).lists = s.lists := rfl
@[simp] theorem State.setPart_nextSeq (k : Nat) (x : Part) : (s.setPart k x).nextSeq = s.nextSeq := rfl
@[simp] theorem State.setPart_changeQueue (k : Nat) (x : Part) : (s.setPart k x).changeQueue = s.changeQueue := rfl
@[simp] theorem State.setPart_tables (k : Nat) (x : Part) : (s.setPart k x).tables = s.tables := rfl
@[simp] theorem State.setPart_indexes (k : Nat) (x : Part) : (s.setPart k x).indexes = s.indexes := rfl
@[simp] theorem State.setPart_texts (k : Nat) (x : Part) : (s.setPart k x).texts = s.texts := rfl
@[simp] theorem State.setPart_stalls (k : Nat) (x : Part) : (s.setPart k x).stalls = s.stalls := rfl
@[simp] theorem State.setPart_arbs (k : Nat) (x : Part) : (s.setPart k x).arbs = s.arbs := rfl
@[simp] theorem State.setPart_flash (k : Nat) (x : Part) : (s.setPart k x).flash = s.flash := rfl
@[simp] theorem State.setPart_net (k : Nat) (x : Part) : (s.setPart k x).net = s.net := rfl
@[simp] theorem State.setPart_errors (k : Nat) (x : Part) : (s.setPart k x).errors = s.errors := rfl
@[simp] theorem State.setPart_sec (k : Nat) (x : Part) : (s.setPart k x).sec = s.sec := rfl
@[simp] theorem State.setPart_cal (k : Nat) (x : Part) : (s.setPart k x).cal = s.cal := rfl
@[simp] theorem State.setPart_i3cAddr (k : Nat) (x : Part) : (s.setPart k x).i3cAddr = s.i3cAddr := rfl
@[simp] theorem State.setPart_i3cPtr (k : Nat) (x : Part) : (s.setPart k x).i3cPtr = s.i3cPtr := rfl
@[simp] theorem State.setPart_energyLatch (k : Nat) (x : Part) : (s.setPart k x).energyLatch = s.energyLatch := rfl
@[simp] theorem State.setPart_readStamp (k : Nat) (x : Part) : (s.setPart k x).readStamp = s.readStamp := rfl
@[simp] theorem State.setPart_residue (k : Nat) (x : Part) : (s.setPart k x).residue = s.residue := rfl

@[simp] theorem State.setPage_pending (k : Nat) (x : Page) : (s.setPage k x).pending = s.pending := rfl
@[simp] theorem State.setPage_tx (k : Nat) (x : Page) : (s.setPage k x).tx = s.tx := rfl
@[simp] theorem State.setPage_freeCtr (k : Nat) (x : Page) : (s.setPage k x).freeCtr = s.freeCtr := rfl
@[simp] theorem State.setPage_fitted (k : Nat) (x : Page) : (s.setPage k x).fitted = s.fitted := rfl
@[simp] theorem State.setPage_start (k : Nat) (x : Page) : (s.setPage k x).start = s.start := rfl
@[simp] theorem State.setPage_regs (k : Nat) (x : Page) : (s.setPage k x).regs = s.regs := rfl
@[simp] theorem State.setPage_shadow (k : Nat) (x : Page) : (s.setPage k x).shadow = s.shadow := rfl
@[simp] theorem State.setPage_eventOnce (k : Nat) (x : Page) : (s.setPage k x).eventOnce = s.eventOnce := rfl
@[simp] theorem State.setPage_strobes (k : Nat) (x : Page) : (s.setPage k x).strobes = s.strobes := rfl
@[simp] theorem State.setPage_mem (k : Nat) (x : Page) : (s.setPage k x).mem = s.mem := rfl
@[simp] theorem State.setPage_tiers (k : Nat) (x : Page) : (s.setPage k x).tiers = s.tiers := rfl
@[simp] theorem State.setPage_sems (k : Nat) (x : Page) : (s.setPage k x).sems = s.sems := rfl
@[simp] theorem State.setPage_cores (k : Nat) (x : Page) : (s.setPage k x).cores = s.cores := rfl
@[simp] theorem State.setPage_dies (k : Nat) (x : Page) : (s.setPage k x).dies = s.dies := rfl
@[simp] theorem State.setPage_medianRate (k : Nat) (x : Page) : (s.setPage k x).medianRate = s.medianRate := rfl
@[simp] theorem State.setPage_rails (k : Nat) (x : Page) : (s.setPage k x).rails = s.rails := rfl
@[simp] theorem State.setPage_cmds (k : Nat) (x : Page) : (s.setPage k x).cmds = s.cmds := rfl
@[simp] theorem State.setPage_lists (k : Nat) (x : Page) : (s.setPage k x).lists = s.lists := rfl
@[simp] theorem State.setPage_nextSeq (k : Nat) (x : Page) : (s.setPage k x).nextSeq = s.nextSeq := rfl
@[simp] theorem State.setPage_parts (k : Nat) (x : Page) : (s.setPage k x).parts = s.parts := rfl
@[simp] theorem State.setPage_changeQueue (k : Nat) (x : Page) : (s.setPage k x).changeQueue = s.changeQueue := rfl
@[simp] theorem State.setPage_tables (k : Nat) (x : Page) : (s.setPage k x).tables = s.tables := rfl
@[simp] theorem State.setPage_indexes (k : Nat) (x : Page) : (s.setPage k x).indexes = s.indexes := rfl
@[simp] theorem State.setPage_texts (k : Nat) (x : Page) : (s.setPage k x).texts = s.texts := rfl
@[simp] theorem State.setPage_stalls (k : Nat) (x : Page) : (s.setPage k x).stalls = s.stalls := rfl
@[simp] theorem State.setPage_arbs (k : Nat) (x : Page) : (s.setPage k x).arbs = s.arbs := rfl
@[simp] theorem State.setPage_flash (k : Nat) (x : Page) : (s.setPage k x).flash = s.flash := rfl
@[simp] theorem State.setPage_net (k : Nat) (x : Page) : (s.setPage k x).net = s.net := rfl
@[simp] theorem State.setPage_errors (k : Nat) (x : Page) : (s.setPage k x).errors = s.errors := rfl
@[simp] theorem State.setPage_sec (k : Nat) (x : Page) : (s.setPage k x).sec = s.sec := rfl
@[simp] theorem State.setPage_cal (k : Nat) (x : Page) : (s.setPage k x).cal = s.cal := rfl
@[simp] theorem State.setPage_i3cAddr (k : Nat) (x : Page) : (s.setPage k x).i3cAddr = s.i3cAddr := rfl
@[simp] theorem State.setPage_i3cPtr (k : Nat) (x : Page) : (s.setPage k x).i3cPtr = s.i3cPtr := rfl
@[simp] theorem State.setPage_energyLatch (k : Nat) (x : Page) : (s.setPage k x).energyLatch = s.energyLatch := rfl
@[simp] theorem State.setPage_readStamp (k : Nat) (x : Page) : (s.setPage k x).readStamp = s.readStamp := rfl
@[simp] theorem State.setPage_residue (k : Nat) (x : Page) : (s.setPage k x).residue = s.residue := rfl

@[simp] theorem State.setTable_pending (k : Nat) (x : Slot) : (s.setTable k x).pending = s.pending := rfl
@[simp] theorem State.setTable_tx (k : Nat) (x : Slot) : (s.setTable k x).tx = s.tx := rfl
@[simp] theorem State.setTable_freeCtr (k : Nat) (x : Slot) : (s.setTable k x).freeCtr = s.freeCtr := rfl
@[simp] theorem State.setTable_fitted (k : Nat) (x : Slot) : (s.setTable k x).fitted = s.fitted := rfl
@[simp] theorem State.setTable_start (k : Nat) (x : Slot) : (s.setTable k x).start = s.start := rfl
@[simp] theorem State.setTable_regs (k : Nat) (x : Slot) : (s.setTable k x).regs = s.regs := rfl
@[simp] theorem State.setTable_shadow (k : Nat) (x : Slot) : (s.setTable k x).shadow = s.shadow := rfl
@[simp] theorem State.setTable_eventOnce (k : Nat) (x : Slot) : (s.setTable k x).eventOnce = s.eventOnce := rfl
@[simp] theorem State.setTable_strobes (k : Nat) (x : Slot) : (s.setTable k x).strobes = s.strobes := rfl
@[simp] theorem State.setTable_mem (k : Nat) (x : Slot) : (s.setTable k x).mem = s.mem := rfl
@[simp] theorem State.setTable_pages (k : Nat) (x : Slot) : (s.setTable k x).pages = s.pages := rfl
@[simp] theorem State.setTable_tiers (k : Nat) (x : Slot) : (s.setTable k x).tiers = s.tiers := rfl
@[simp] theorem State.setTable_sems (k : Nat) (x : Slot) : (s.setTable k x).sems = s.sems := rfl
@[simp] theorem State.setTable_cores (k : Nat) (x : Slot) : (s.setTable k x).cores = s.cores := rfl
@[simp] theorem State.setTable_dies (k : Nat) (x : Slot) : (s.setTable k x).dies = s.dies := rfl
@[simp] theorem State.setTable_medianRate (k : Nat) (x : Slot) : (s.setTable k x).medianRate = s.medianRate := rfl
@[simp] theorem State.setTable_rails (k : Nat) (x : Slot) : (s.setTable k x).rails = s.rails := rfl
@[simp] theorem State.setTable_cmds (k : Nat) (x : Slot) : (s.setTable k x).cmds = s.cmds := rfl
@[simp] theorem State.setTable_lists (k : Nat) (x : Slot) : (s.setTable k x).lists = s.lists := rfl
@[simp] theorem State.setTable_nextSeq (k : Nat) (x : Slot) : (s.setTable k x).nextSeq = s.nextSeq := rfl
@[simp] theorem State.setTable_parts (k : Nat) (x : Slot) : (s.setTable k x).parts = s.parts := rfl
@[simp] theorem State.setTable_changeQueue (k : Nat) (x : Slot) : (s.setTable k x).changeQueue = s.changeQueue := rfl
@[simp] theorem State.setTable_indexes (k : Nat) (x : Slot) : (s.setTable k x).indexes = s.indexes := rfl
@[simp] theorem State.setTable_texts (k : Nat) (x : Slot) : (s.setTable k x).texts = s.texts := rfl
@[simp] theorem State.setTable_stalls (k : Nat) (x : Slot) : (s.setTable k x).stalls = s.stalls := rfl
@[simp] theorem State.setTable_arbs (k : Nat) (x : Slot) : (s.setTable k x).arbs = s.arbs := rfl
@[simp] theorem State.setTable_flash (k : Nat) (x : Slot) : (s.setTable k x).flash = s.flash := rfl
@[simp] theorem State.setTable_net (k : Nat) (x : Slot) : (s.setTable k x).net = s.net := rfl
@[simp] theorem State.setTable_errors (k : Nat) (x : Slot) : (s.setTable k x).errors = s.errors := rfl
@[simp] theorem State.setTable_sec (k : Nat) (x : Slot) : (s.setTable k x).sec = s.sec := rfl
@[simp] theorem State.setTable_cal (k : Nat) (x : Slot) : (s.setTable k x).cal = s.cal := rfl
@[simp] theorem State.setTable_i3cAddr (k : Nat) (x : Slot) : (s.setTable k x).i3cAddr = s.i3cAddr := rfl
@[simp] theorem State.setTable_i3cPtr (k : Nat) (x : Slot) : (s.setTable k x).i3cPtr = s.i3cPtr := rfl
@[simp] theorem State.setTable_energyLatch (k : Nat) (x : Slot) : (s.setTable k x).energyLatch = s.energyLatch := rfl
@[simp] theorem State.setTable_readStamp (k : Nat) (x : Slot) : (s.setTable k x).readStamp = s.readStamp := rfl
@[simp] theorem State.setTable_residue (k : Nat) (x : Slot) : (s.setTable k x).residue = s.residue := rfl

@[simp] theorem State.setIndex_pending (k : Nat) (x : Slot) : (s.setIndex k x).pending = s.pending := rfl
@[simp] theorem State.setIndex_tx (k : Nat) (x : Slot) : (s.setIndex k x).tx = s.tx := rfl
@[simp] theorem State.setIndex_freeCtr (k : Nat) (x : Slot) : (s.setIndex k x).freeCtr = s.freeCtr := rfl
@[simp] theorem State.setIndex_fitted (k : Nat) (x : Slot) : (s.setIndex k x).fitted = s.fitted := rfl
@[simp] theorem State.setIndex_start (k : Nat) (x : Slot) : (s.setIndex k x).start = s.start := rfl
@[simp] theorem State.setIndex_regs (k : Nat) (x : Slot) : (s.setIndex k x).regs = s.regs := rfl
@[simp] theorem State.setIndex_shadow (k : Nat) (x : Slot) : (s.setIndex k x).shadow = s.shadow := rfl
@[simp] theorem State.setIndex_eventOnce (k : Nat) (x : Slot) : (s.setIndex k x).eventOnce = s.eventOnce := rfl
@[simp] theorem State.setIndex_strobes (k : Nat) (x : Slot) : (s.setIndex k x).strobes = s.strobes := rfl
@[simp] theorem State.setIndex_mem (k : Nat) (x : Slot) : (s.setIndex k x).mem = s.mem := rfl
@[simp] theorem State.setIndex_pages (k : Nat) (x : Slot) : (s.setIndex k x).pages = s.pages := rfl
@[simp] theorem State.setIndex_tiers (k : Nat) (x : Slot) : (s.setIndex k x).tiers = s.tiers := rfl
@[simp] theorem State.setIndex_sems (k : Nat) (x : Slot) : (s.setIndex k x).sems = s.sems := rfl
@[simp] theorem State.setIndex_cores (k : Nat) (x : Slot) : (s.setIndex k x).cores = s.cores := rfl
@[simp] theorem State.setIndex_dies (k : Nat) (x : Slot) : (s.setIndex k x).dies = s.dies := rfl
@[simp] theorem State.setIndex_medianRate (k : Nat) (x : Slot) : (s.setIndex k x).medianRate = s.medianRate := rfl
@[simp] theorem State.setIndex_rails (k : Nat) (x : Slot) : (s.setIndex k x).rails = s.rails := rfl
@[simp] theorem State.setIndex_cmds (k : Nat) (x : Slot) : (s.setIndex k x).cmds = s.cmds := rfl
@[simp] theorem State.setIndex_lists (k : Nat) (x : Slot) : (s.setIndex k x).lists = s.lists := rfl
@[simp] theorem State.setIndex_nextSeq (k : Nat) (x : Slot) : (s.setIndex k x).nextSeq = s.nextSeq := rfl
@[simp] theorem State.setIndex_parts (k : Nat) (x : Slot) : (s.setIndex k x).parts = s.parts := rfl
@[simp] theorem State.setIndex_changeQueue (k : Nat) (x : Slot) : (s.setIndex k x).changeQueue = s.changeQueue := rfl
@[simp] theorem State.setIndex_tables (k : Nat) (x : Slot) : (s.setIndex k x).tables = s.tables := rfl
@[simp] theorem State.setIndex_texts (k : Nat) (x : Slot) : (s.setIndex k x).texts = s.texts := rfl
@[simp] theorem State.setIndex_stalls (k : Nat) (x : Slot) : (s.setIndex k x).stalls = s.stalls := rfl
@[simp] theorem State.setIndex_arbs (k : Nat) (x : Slot) : (s.setIndex k x).arbs = s.arbs := rfl
@[simp] theorem State.setIndex_flash (k : Nat) (x : Slot) : (s.setIndex k x).flash = s.flash := rfl
@[simp] theorem State.setIndex_net (k : Nat) (x : Slot) : (s.setIndex k x).net = s.net := rfl
@[simp] theorem State.setIndex_errors (k : Nat) (x : Slot) : (s.setIndex k x).errors = s.errors := rfl
@[simp] theorem State.setIndex_sec (k : Nat) (x : Slot) : (s.setIndex k x).sec = s.sec := rfl
@[simp] theorem State.setIndex_cal (k : Nat) (x : Slot) : (s.setIndex k x).cal = s.cal := rfl
@[simp] theorem State.setIndex_i3cAddr (k : Nat) (x : Slot) : (s.setIndex k x).i3cAddr = s.i3cAddr := rfl
@[simp] theorem State.setIndex_i3cPtr (k : Nat) (x : Slot) : (s.setIndex k x).i3cPtr = s.i3cPtr := rfl
@[simp] theorem State.setIndex_energyLatch (k : Nat) (x : Slot) : (s.setIndex k x).energyLatch = s.energyLatch := rfl
@[simp] theorem State.setIndex_readStamp (k : Nat) (x : Slot) : (s.setIndex k x).readStamp = s.readStamp := rfl
@[simp] theorem State.setIndex_residue (k : Nat) (x : Slot) : (s.setIndex k x).residue = s.residue := rfl

@[simp] theorem State.setText_pending (k : Nat) (x : TextSlot) : (s.setText k x).pending = s.pending := rfl
@[simp] theorem State.setText_tx (k : Nat) (x : TextSlot) : (s.setText k x).tx = s.tx := rfl
@[simp] theorem State.setText_freeCtr (k : Nat) (x : TextSlot) : (s.setText k x).freeCtr = s.freeCtr := rfl
@[simp] theorem State.setText_fitted (k : Nat) (x : TextSlot) : (s.setText k x).fitted = s.fitted := rfl
@[simp] theorem State.setText_start (k : Nat) (x : TextSlot) : (s.setText k x).start = s.start := rfl
@[simp] theorem State.setText_regs (k : Nat) (x : TextSlot) : (s.setText k x).regs = s.regs := rfl
@[simp] theorem State.setText_shadow (k : Nat) (x : TextSlot) : (s.setText k x).shadow = s.shadow := rfl
@[simp] theorem State.setText_eventOnce (k : Nat) (x : TextSlot) : (s.setText k x).eventOnce = s.eventOnce := rfl
@[simp] theorem State.setText_strobes (k : Nat) (x : TextSlot) : (s.setText k x).strobes = s.strobes := rfl
@[simp] theorem State.setText_mem (k : Nat) (x : TextSlot) : (s.setText k x).mem = s.mem := rfl
@[simp] theorem State.setText_pages (k : Nat) (x : TextSlot) : (s.setText k x).pages = s.pages := rfl
@[simp] theorem State.setText_tiers (k : Nat) (x : TextSlot) : (s.setText k x).tiers = s.tiers := rfl
@[simp] theorem State.setText_sems (k : Nat) (x : TextSlot) : (s.setText k x).sems = s.sems := rfl
@[simp] theorem State.setText_cores (k : Nat) (x : TextSlot) : (s.setText k x).cores = s.cores := rfl
@[simp] theorem State.setText_dies (k : Nat) (x : TextSlot) : (s.setText k x).dies = s.dies := rfl
@[simp] theorem State.setText_medianRate (k : Nat) (x : TextSlot) : (s.setText k x).medianRate = s.medianRate := rfl
@[simp] theorem State.setText_rails (k : Nat) (x : TextSlot) : (s.setText k x).rails = s.rails := rfl
@[simp] theorem State.setText_cmds (k : Nat) (x : TextSlot) : (s.setText k x).cmds = s.cmds := rfl
@[simp] theorem State.setText_lists (k : Nat) (x : TextSlot) : (s.setText k x).lists = s.lists := rfl
@[simp] theorem State.setText_nextSeq (k : Nat) (x : TextSlot) : (s.setText k x).nextSeq = s.nextSeq := rfl
@[simp] theorem State.setText_parts (k : Nat) (x : TextSlot) : (s.setText k x).parts = s.parts := rfl
@[simp] theorem State.setText_changeQueue (k : Nat) (x : TextSlot) : (s.setText k x).changeQueue = s.changeQueue := rfl
@[simp] theorem State.setText_tables (k : Nat) (x : TextSlot) : (s.setText k x).tables = s.tables := rfl
@[simp] theorem State.setText_indexes (k : Nat) (x : TextSlot) : (s.setText k x).indexes = s.indexes := rfl
@[simp] theorem State.setText_stalls (k : Nat) (x : TextSlot) : (s.setText k x).stalls = s.stalls := rfl
@[simp] theorem State.setText_arbs (k : Nat) (x : TextSlot) : (s.setText k x).arbs = s.arbs := rfl
@[simp] theorem State.setText_flash (k : Nat) (x : TextSlot) : (s.setText k x).flash = s.flash := rfl
@[simp] theorem State.setText_net (k : Nat) (x : TextSlot) : (s.setText k x).net = s.net := rfl
@[simp] theorem State.setText_errors (k : Nat) (x : TextSlot) : (s.setText k x).errors = s.errors := rfl
@[simp] theorem State.setText_sec (k : Nat) (x : TextSlot) : (s.setText k x).sec = s.sec := rfl
@[simp] theorem State.setText_cal (k : Nat) (x : TextSlot) : (s.setText k x).cal = s.cal := rfl
@[simp] theorem State.setText_i3cAddr (k : Nat) (x : TextSlot) : (s.setText k x).i3cAddr = s.i3cAddr := rfl
@[simp] theorem State.setText_i3cPtr (k : Nat) (x : TextSlot) : (s.setText k x).i3cPtr = s.i3cPtr := rfl
@[simp] theorem State.setText_energyLatch (k : Nat) (x : TextSlot) : (s.setText k x).energyLatch = s.energyLatch := rfl
@[simp] theorem State.setText_readStamp (k : Nat) (x : TextSlot) : (s.setText k x).readStamp = s.readStamp := rfl
@[simp] theorem State.setText_residue (k : Nat) (x : TextSlot) : (s.setText k x).residue = s.residue := rfl

@[simp] theorem State.setArb_pending (k : Nat) (x : Arb) : (s.setArb k x).pending = s.pending := rfl
@[simp] theorem State.setArb_tx (k : Nat) (x : Arb) : (s.setArb k x).tx = s.tx := rfl
@[simp] theorem State.setArb_freeCtr (k : Nat) (x : Arb) : (s.setArb k x).freeCtr = s.freeCtr := rfl
@[simp] theorem State.setArb_fitted (k : Nat) (x : Arb) : (s.setArb k x).fitted = s.fitted := rfl
@[simp] theorem State.setArb_start (k : Nat) (x : Arb) : (s.setArb k x).start = s.start := rfl
@[simp] theorem State.setArb_regs (k : Nat) (x : Arb) : (s.setArb k x).regs = s.regs := rfl
@[simp] theorem State.setArb_shadow (k : Nat) (x : Arb) : (s.setArb k x).shadow = s.shadow := rfl
@[simp] theorem State.setArb_eventOnce (k : Nat) (x : Arb) : (s.setArb k x).eventOnce = s.eventOnce := rfl
@[simp] theorem State.setArb_strobes (k : Nat) (x : Arb) : (s.setArb k x).strobes = s.strobes := rfl
@[simp] theorem State.setArb_mem (k : Nat) (x : Arb) : (s.setArb k x).mem = s.mem := rfl
@[simp] theorem State.setArb_pages (k : Nat) (x : Arb) : (s.setArb k x).pages = s.pages := rfl
@[simp] theorem State.setArb_tiers (k : Nat) (x : Arb) : (s.setArb k x).tiers = s.tiers := rfl
@[simp] theorem State.setArb_sems (k : Nat) (x : Arb) : (s.setArb k x).sems = s.sems := rfl
@[simp] theorem State.setArb_cores (k : Nat) (x : Arb) : (s.setArb k x).cores = s.cores := rfl
@[simp] theorem State.setArb_dies (k : Nat) (x : Arb) : (s.setArb k x).dies = s.dies := rfl
@[simp] theorem State.setArb_medianRate (k : Nat) (x : Arb) : (s.setArb k x).medianRate = s.medianRate := rfl
@[simp] theorem State.setArb_rails (k : Nat) (x : Arb) : (s.setArb k x).rails = s.rails := rfl
@[simp] theorem State.setArb_cmds (k : Nat) (x : Arb) : (s.setArb k x).cmds = s.cmds := rfl
@[simp] theorem State.setArb_lists (k : Nat) (x : Arb) : (s.setArb k x).lists = s.lists := rfl
@[simp] theorem State.setArb_nextSeq (k : Nat) (x : Arb) : (s.setArb k x).nextSeq = s.nextSeq := rfl
@[simp] theorem State.setArb_parts (k : Nat) (x : Arb) : (s.setArb k x).parts = s.parts := rfl
@[simp] theorem State.setArb_changeQueue (k : Nat) (x : Arb) : (s.setArb k x).changeQueue = s.changeQueue := rfl
@[simp] theorem State.setArb_tables (k : Nat) (x : Arb) : (s.setArb k x).tables = s.tables := rfl
@[simp] theorem State.setArb_indexes (k : Nat) (x : Arb) : (s.setArb k x).indexes = s.indexes := rfl
@[simp] theorem State.setArb_texts (k : Nat) (x : Arb) : (s.setArb k x).texts = s.texts := rfl
@[simp] theorem State.setArb_stalls (k : Nat) (x : Arb) : (s.setArb k x).stalls = s.stalls := rfl
@[simp] theorem State.setArb_flash (k : Nat) (x : Arb) : (s.setArb k x).flash = s.flash := rfl
@[simp] theorem State.setArb_net (k : Nat) (x : Arb) : (s.setArb k x).net = s.net := rfl
@[simp] theorem State.setArb_errors (k : Nat) (x : Arb) : (s.setArb k x).errors = s.errors := rfl
@[simp] theorem State.setArb_sec (k : Nat) (x : Arb) : (s.setArb k x).sec = s.sec := rfl
@[simp] theorem State.setArb_cal (k : Nat) (x : Arb) : (s.setArb k x).cal = s.cal := rfl
@[simp] theorem State.setArb_i3cAddr (k : Nat) (x : Arb) : (s.setArb k x).i3cAddr = s.i3cAddr := rfl
@[simp] theorem State.setArb_i3cPtr (k : Nat) (x : Arb) : (s.setArb k x).i3cPtr = s.i3cPtr := rfl
@[simp] theorem State.setArb_energyLatch (k : Nat) (x : Arb) : (s.setArb k x).energyLatch = s.energyLatch := rfl
@[simp] theorem State.setArb_readStamp (k : Nat) (x : Arb) : (s.setArb k x).readStamp = s.readStamp := rfl
@[simp] theorem State.setArb_residue (k : Nat) (x : Arb) : (s.setArb k x).residue = s.residue := rfl

@[simp] theorem State.setQp_pending (k : Nat) (x : Qp) : (s.setQp k x).pending = s.pending := rfl
@[simp] theorem State.setQp_tx (k : Nat) (x : Qp) : (s.setQp k x).tx = s.tx := rfl
@[simp] theorem State.setQp_freeCtr (k : Nat) (x : Qp) : (s.setQp k x).freeCtr = s.freeCtr := rfl
@[simp] theorem State.setQp_fitted (k : Nat) (x : Qp) : (s.setQp k x).fitted = s.fitted := rfl
@[simp] theorem State.setQp_start (k : Nat) (x : Qp) : (s.setQp k x).start = s.start := rfl
@[simp] theorem State.setQp_regs (k : Nat) (x : Qp) : (s.setQp k x).regs = s.regs := rfl
@[simp] theorem State.setQp_shadow (k : Nat) (x : Qp) : (s.setQp k x).shadow = s.shadow := rfl
@[simp] theorem State.setQp_eventOnce (k : Nat) (x : Qp) : (s.setQp k x).eventOnce = s.eventOnce := rfl
@[simp] theorem State.setQp_strobes (k : Nat) (x : Qp) : (s.setQp k x).strobes = s.strobes := rfl
@[simp] theorem State.setQp_mem (k : Nat) (x : Qp) : (s.setQp k x).mem = s.mem := rfl
@[simp] theorem State.setQp_pages (k : Nat) (x : Qp) : (s.setQp k x).pages = s.pages := rfl
@[simp] theorem State.setQp_tiers (k : Nat) (x : Qp) : (s.setQp k x).tiers = s.tiers := rfl
@[simp] theorem State.setQp_sems (k : Nat) (x : Qp) : (s.setQp k x).sems = s.sems := rfl
@[simp] theorem State.setQp_cores (k : Nat) (x : Qp) : (s.setQp k x).cores = s.cores := rfl
@[simp] theorem State.setQp_dies (k : Nat) (x : Qp) : (s.setQp k x).dies = s.dies := rfl
@[simp] theorem State.setQp_medianRate (k : Nat) (x : Qp) : (s.setQp k x).medianRate = s.medianRate := rfl
@[simp] theorem State.setQp_rails (k : Nat) (x : Qp) : (s.setQp k x).rails = s.rails := rfl
@[simp] theorem State.setQp_cmds (k : Nat) (x : Qp) : (s.setQp k x).cmds = s.cmds := rfl
@[simp] theorem State.setQp_lists (k : Nat) (x : Qp) : (s.setQp k x).lists = s.lists := rfl
@[simp] theorem State.setQp_nextSeq (k : Nat) (x : Qp) : (s.setQp k x).nextSeq = s.nextSeq := rfl
@[simp] theorem State.setQp_parts (k : Nat) (x : Qp) : (s.setQp k x).parts = s.parts := rfl
@[simp] theorem State.setQp_changeQueue (k : Nat) (x : Qp) : (s.setQp k x).changeQueue = s.changeQueue := rfl
@[simp] theorem State.setQp_tables (k : Nat) (x : Qp) : (s.setQp k x).tables = s.tables := rfl
@[simp] theorem State.setQp_indexes (k : Nat) (x : Qp) : (s.setQp k x).indexes = s.indexes := rfl
@[simp] theorem State.setQp_texts (k : Nat) (x : Qp) : (s.setQp k x).texts = s.texts := rfl
@[simp] theorem State.setQp_stalls (k : Nat) (x : Qp) : (s.setQp k x).stalls = s.stalls := rfl
@[simp] theorem State.setQp_arbs (k : Nat) (x : Qp) : (s.setQp k x).arbs = s.arbs := rfl
@[simp] theorem State.setQp_flash (k : Nat) (x : Qp) : (s.setQp k x).flash = s.flash := rfl
@[simp] theorem State.setQp_errors (k : Nat) (x : Qp) : (s.setQp k x).errors = s.errors := rfl
@[simp] theorem State.setQp_sec (k : Nat) (x : Qp) : (s.setQp k x).sec = s.sec := rfl
@[simp] theorem State.setQp_cal (k : Nat) (x : Qp) : (s.setQp k x).cal = s.cal := rfl
@[simp] theorem State.setQp_i3cAddr (k : Nat) (x : Qp) : (s.setQp k x).i3cAddr = s.i3cAddr := rfl
@[simp] theorem State.setQp_i3cPtr (k : Nat) (x : Qp) : (s.setQp k x).i3cPtr = s.i3cPtr := rfl
@[simp] theorem State.setQp_energyLatch (k : Nat) (x : Qp) : (s.setQp k x).energyLatch = s.energyLatch := rfl
@[simp] theorem State.setQp_readStamp (k : Nat) (x : Qp) : (s.setQp k x).readStamp = s.readStamp := rfl
@[simp] theorem State.setQp_residue (k : Nat) (x : Qp) : (s.setQp k x).residue = s.residue := rfl

@[simp] theorem State.setSub_pending (k : Nat) (x : SubPort) : (s.setSub k x).pending = s.pending := rfl
@[simp] theorem State.setSub_tx (k : Nat) (x : SubPort) : (s.setSub k x).tx = s.tx := rfl
@[simp] theorem State.setSub_freeCtr (k : Nat) (x : SubPort) : (s.setSub k x).freeCtr = s.freeCtr := rfl
@[simp] theorem State.setSub_fitted (k : Nat) (x : SubPort) : (s.setSub k x).fitted = s.fitted := rfl
@[simp] theorem State.setSub_start (k : Nat) (x : SubPort) : (s.setSub k x).start = s.start := rfl
@[simp] theorem State.setSub_regs (k : Nat) (x : SubPort) : (s.setSub k x).regs = s.regs := rfl
@[simp] theorem State.setSub_shadow (k : Nat) (x : SubPort) : (s.setSub k x).shadow = s.shadow := rfl
@[simp] theorem State.setSub_eventOnce (k : Nat) (x : SubPort) : (s.setSub k x).eventOnce = s.eventOnce := rfl
@[simp] theorem State.setSub_strobes (k : Nat) (x : SubPort) : (s.setSub k x).strobes = s.strobes := rfl
@[simp] theorem State.setSub_mem (k : Nat) (x : SubPort) : (s.setSub k x).mem = s.mem := rfl
@[simp] theorem State.setSub_pages (k : Nat) (x : SubPort) : (s.setSub k x).pages = s.pages := rfl
@[simp] theorem State.setSub_tiers (k : Nat) (x : SubPort) : (s.setSub k x).tiers = s.tiers := rfl
@[simp] theorem State.setSub_sems (k : Nat) (x : SubPort) : (s.setSub k x).sems = s.sems := rfl
@[simp] theorem State.setSub_cores (k : Nat) (x : SubPort) : (s.setSub k x).cores = s.cores := rfl
@[simp] theorem State.setSub_dies (k : Nat) (x : SubPort) : (s.setSub k x).dies = s.dies := rfl
@[simp] theorem State.setSub_medianRate (k : Nat) (x : SubPort) : (s.setSub k x).medianRate = s.medianRate := rfl
@[simp] theorem State.setSub_rails (k : Nat) (x : SubPort) : (s.setSub k x).rails = s.rails := rfl
@[simp] theorem State.setSub_cmds (k : Nat) (x : SubPort) : (s.setSub k x).cmds = s.cmds := rfl
@[simp] theorem State.setSub_lists (k : Nat) (x : SubPort) : (s.setSub k x).lists = s.lists := rfl
@[simp] theorem State.setSub_nextSeq (k : Nat) (x : SubPort) : (s.setSub k x).nextSeq = s.nextSeq := rfl
@[simp] theorem State.setSub_parts (k : Nat) (x : SubPort) : (s.setSub k x).parts = s.parts := rfl
@[simp] theorem State.setSub_changeQueue (k : Nat) (x : SubPort) : (s.setSub k x).changeQueue = s.changeQueue := rfl
@[simp] theorem State.setSub_tables (k : Nat) (x : SubPort) : (s.setSub k x).tables = s.tables := rfl
@[simp] theorem State.setSub_indexes (k : Nat) (x : SubPort) : (s.setSub k x).indexes = s.indexes := rfl
@[simp] theorem State.setSub_texts (k : Nat) (x : SubPort) : (s.setSub k x).texts = s.texts := rfl
@[simp] theorem State.setSub_stalls (k : Nat) (x : SubPort) : (s.setSub k x).stalls = s.stalls := rfl
@[simp] theorem State.setSub_arbs (k : Nat) (x : SubPort) : (s.setSub k x).arbs = s.arbs := rfl
@[simp] theorem State.setSub_flash (k : Nat) (x : SubPort) : (s.setSub k x).flash = s.flash := rfl
@[simp] theorem State.setSub_errors (k : Nat) (x : SubPort) : (s.setSub k x).errors = s.errors := rfl
@[simp] theorem State.setSub_sec (k : Nat) (x : SubPort) : (s.setSub k x).sec = s.sec := rfl
@[simp] theorem State.setSub_cal (k : Nat) (x : SubPort) : (s.setSub k x).cal = s.cal := rfl
@[simp] theorem State.setSub_i3cAddr (k : Nat) (x : SubPort) : (s.setSub k x).i3cAddr = s.i3cAddr := rfl
@[simp] theorem State.setSub_i3cPtr (k : Nat) (x : SubPort) : (s.setSub k x).i3cPtr = s.i3cPtr := rfl
@[simp] theorem State.setSub_energyLatch (k : Nat) (x : SubPort) : (s.setSub k x).energyLatch = s.energyLatch := rfl
@[simp] theorem State.setSub_readStamp (k : Nat) (x : SubPort) : (s.setSub k x).readStamp = s.readStamp := rfl
@[simp] theorem State.setSub_residue (k : Nat) (x : SubPort) : (s.setSub k x).residue = s.residue := rfl

@[simp] theorem State.setChan_pending (k : Nat) (x : FlashCh) : (s.setChan k x).pending = s.pending := rfl
@[simp] theorem State.setChan_tx (k : Nat) (x : FlashCh) : (s.setChan k x).tx = s.tx := rfl
@[simp] theorem State.setChan_freeCtr (k : Nat) (x : FlashCh) : (s.setChan k x).freeCtr = s.freeCtr := rfl
@[simp] theorem State.setChan_fitted (k : Nat) (x : FlashCh) : (s.setChan k x).fitted = s.fitted := rfl
@[simp] theorem State.setChan_start (k : Nat) (x : FlashCh) : (s.setChan k x).start = s.start := rfl
@[simp] theorem State.setChan_regs (k : Nat) (x : FlashCh) : (s.setChan k x).regs = s.regs := rfl
@[simp] theorem State.setChan_shadow (k : Nat) (x : FlashCh) : (s.setChan k x).shadow = s.shadow := rfl
@[simp] theorem State.setChan_eventOnce (k : Nat) (x : FlashCh) : (s.setChan k x).eventOnce = s.eventOnce := rfl
@[simp] theorem State.setChan_strobes (k : Nat) (x : FlashCh) : (s.setChan k x).strobes = s.strobes := rfl
@[simp] theorem State.setChan_mem (k : Nat) (x : FlashCh) : (s.setChan k x).mem = s.mem := rfl
@[simp] theorem State.setChan_pages (k : Nat) (x : FlashCh) : (s.setChan k x).pages = s.pages := rfl
@[simp] theorem State.setChan_tiers (k : Nat) (x : FlashCh) : (s.setChan k x).tiers = s.tiers := rfl
@[simp] theorem State.setChan_sems (k : Nat) (x : FlashCh) : (s.setChan k x).sems = s.sems := rfl
@[simp] theorem State.setChan_cores (k : Nat) (x : FlashCh) : (s.setChan k x).cores = s.cores := rfl
@[simp] theorem State.setChan_dies (k : Nat) (x : FlashCh) : (s.setChan k x).dies = s.dies := rfl
@[simp] theorem State.setChan_medianRate (k : Nat) (x : FlashCh) : (s.setChan k x).medianRate = s.medianRate := rfl
@[simp] theorem State.setChan_rails (k : Nat) (x : FlashCh) : (s.setChan k x).rails = s.rails := rfl
@[simp] theorem State.setChan_cmds (k : Nat) (x : FlashCh) : (s.setChan k x).cmds = s.cmds := rfl
@[simp] theorem State.setChan_lists (k : Nat) (x : FlashCh) : (s.setChan k x).lists = s.lists := rfl
@[simp] theorem State.setChan_nextSeq (k : Nat) (x : FlashCh) : (s.setChan k x).nextSeq = s.nextSeq := rfl
@[simp] theorem State.setChan_parts (k : Nat) (x : FlashCh) : (s.setChan k x).parts = s.parts := rfl
@[simp] theorem State.setChan_changeQueue (k : Nat) (x : FlashCh) : (s.setChan k x).changeQueue = s.changeQueue := rfl
@[simp] theorem State.setChan_tables (k : Nat) (x : FlashCh) : (s.setChan k x).tables = s.tables := rfl
@[simp] theorem State.setChan_indexes (k : Nat) (x : FlashCh) : (s.setChan k x).indexes = s.indexes := rfl
@[simp] theorem State.setChan_texts (k : Nat) (x : FlashCh) : (s.setChan k x).texts = s.texts := rfl
@[simp] theorem State.setChan_stalls (k : Nat) (x : FlashCh) : (s.setChan k x).stalls = s.stalls := rfl
@[simp] theorem State.setChan_arbs (k : Nat) (x : FlashCh) : (s.setChan k x).arbs = s.arbs := rfl
@[simp] theorem State.setChan_net (k : Nat) (x : FlashCh) : (s.setChan k x).net = s.net := rfl
@[simp] theorem State.setChan_errors (k : Nat) (x : FlashCh) : (s.setChan k x).errors = s.errors := rfl
@[simp] theorem State.setChan_sec (k : Nat) (x : FlashCh) : (s.setChan k x).sec = s.sec := rfl
@[simp] theorem State.setChan_cal (k : Nat) (x : FlashCh) : (s.setChan k x).cal = s.cal := rfl
@[simp] theorem State.setChan_i3cAddr (k : Nat) (x : FlashCh) : (s.setChan k x).i3cAddr = s.i3cAddr := rfl
@[simp] theorem State.setChan_i3cPtr (k : Nat) (x : FlashCh) : (s.setChan k x).i3cPtr = s.i3cPtr := rfl
@[simp] theorem State.setChan_energyLatch (k : Nat) (x : FlashCh) : (s.setChan k x).energyLatch = s.energyLatch := rfl
@[simp] theorem State.setChan_readStamp (k : Nat) (x : FlashCh) : (s.setChan k x).readStamp = s.readStamp := rfl
@[simp] theorem State.setChan_residue (k : Nat) (x : FlashCh) : (s.setChan k x).residue = s.residue := rfl

@[simp] theorem State.setBlk_pending (k : Nat) (x : Blk) : (s.setBlk k x).pending = s.pending := rfl
@[simp] theorem State.setBlk_tx (k : Nat) (x : Blk) : (s.setBlk k x).tx = s.tx := rfl
@[simp] theorem State.setBlk_freeCtr (k : Nat) (x : Blk) : (s.setBlk k x).freeCtr = s.freeCtr := rfl
@[simp] theorem State.setBlk_fitted (k : Nat) (x : Blk) : (s.setBlk k x).fitted = s.fitted := rfl
@[simp] theorem State.setBlk_start (k : Nat) (x : Blk) : (s.setBlk k x).start = s.start := rfl
@[simp] theorem State.setBlk_regs (k : Nat) (x : Blk) : (s.setBlk k x).regs = s.regs := rfl
@[simp] theorem State.setBlk_shadow (k : Nat) (x : Blk) : (s.setBlk k x).shadow = s.shadow := rfl
@[simp] theorem State.setBlk_eventOnce (k : Nat) (x : Blk) : (s.setBlk k x).eventOnce = s.eventOnce := rfl
@[simp] theorem State.setBlk_strobes (k : Nat) (x : Blk) : (s.setBlk k x).strobes = s.strobes := rfl
@[simp] theorem State.setBlk_mem (k : Nat) (x : Blk) : (s.setBlk k x).mem = s.mem := rfl
@[simp] theorem State.setBlk_pages (k : Nat) (x : Blk) : (s.setBlk k x).pages = s.pages := rfl
@[simp] theorem State.setBlk_tiers (k : Nat) (x : Blk) : (s.setBlk k x).tiers = s.tiers := rfl
@[simp] theorem State.setBlk_sems (k : Nat) (x : Blk) : (s.setBlk k x).sems = s.sems := rfl
@[simp] theorem State.setBlk_cores (k : Nat) (x : Blk) : (s.setBlk k x).cores = s.cores := rfl
@[simp] theorem State.setBlk_dies (k : Nat) (x : Blk) : (s.setBlk k x).dies = s.dies := rfl
@[simp] theorem State.setBlk_medianRate (k : Nat) (x : Blk) : (s.setBlk k x).medianRate = s.medianRate := rfl
@[simp] theorem State.setBlk_rails (k : Nat) (x : Blk) : (s.setBlk k x).rails = s.rails := rfl
@[simp] theorem State.setBlk_cmds (k : Nat) (x : Blk) : (s.setBlk k x).cmds = s.cmds := rfl
@[simp] theorem State.setBlk_lists (k : Nat) (x : Blk) : (s.setBlk k x).lists = s.lists := rfl
@[simp] theorem State.setBlk_nextSeq (k : Nat) (x : Blk) : (s.setBlk k x).nextSeq = s.nextSeq := rfl
@[simp] theorem State.setBlk_parts (k : Nat) (x : Blk) : (s.setBlk k x).parts = s.parts := rfl
@[simp] theorem State.setBlk_changeQueue (k : Nat) (x : Blk) : (s.setBlk k x).changeQueue = s.changeQueue := rfl
@[simp] theorem State.setBlk_tables (k : Nat) (x : Blk) : (s.setBlk k x).tables = s.tables := rfl
@[simp] theorem State.setBlk_indexes (k : Nat) (x : Blk) : (s.setBlk k x).indexes = s.indexes := rfl
@[simp] theorem State.setBlk_texts (k : Nat) (x : Blk) : (s.setBlk k x).texts = s.texts := rfl
@[simp] theorem State.setBlk_stalls (k : Nat) (x : Blk) : (s.setBlk k x).stalls = s.stalls := rfl
@[simp] theorem State.setBlk_arbs (k : Nat) (x : Blk) : (s.setBlk k x).arbs = s.arbs := rfl
@[simp] theorem State.setBlk_net (k : Nat) (x : Blk) : (s.setBlk k x).net = s.net := rfl
@[simp] theorem State.setBlk_errors (k : Nat) (x : Blk) : (s.setBlk k x).errors = s.errors := rfl
@[simp] theorem State.setBlk_sec (k : Nat) (x : Blk) : (s.setBlk k x).sec = s.sec := rfl
@[simp] theorem State.setBlk_cal (k : Nat) (x : Blk) : (s.setBlk k x).cal = s.cal := rfl
@[simp] theorem State.setBlk_i3cAddr (k : Nat) (x : Blk) : (s.setBlk k x).i3cAddr = s.i3cAddr := rfl
@[simp] theorem State.setBlk_i3cPtr (k : Nat) (x : Blk) : (s.setBlk k x).i3cPtr = s.i3cPtr := rfl
@[simp] theorem State.setBlk_energyLatch (k : Nat) (x : Blk) : (s.setBlk k x).energyLatch = s.energyLatch := rfl
@[simp] theorem State.setBlk_readStamp (k : Nat) (x : Blk) : (s.setBlk k x).readStamp = s.readStamp := rfl
@[simp] theorem State.setBlk_residue (k : Nat) (x : Blk) : (s.setBlk k x).residue = s.residue := rfl

@[simp] theorem State.setKeySlot_pending (k : Nat) (x : KeySlot) : (s.setKeySlot k x).pending = s.pending := rfl
@[simp] theorem State.setKeySlot_tx (k : Nat) (x : KeySlot) : (s.setKeySlot k x).tx = s.tx := rfl
@[simp] theorem State.setKeySlot_freeCtr (k : Nat) (x : KeySlot) : (s.setKeySlot k x).freeCtr = s.freeCtr := rfl
@[simp] theorem State.setKeySlot_fitted (k : Nat) (x : KeySlot) : (s.setKeySlot k x).fitted = s.fitted := rfl
@[simp] theorem State.setKeySlot_start (k : Nat) (x : KeySlot) : (s.setKeySlot k x).start = s.start := rfl
@[simp] theorem State.setKeySlot_regs (k : Nat) (x : KeySlot) : (s.setKeySlot k x).regs = s.regs := rfl
@[simp] theorem State.setKeySlot_shadow (k : Nat) (x : KeySlot) : (s.setKeySlot k x).shadow = s.shadow := rfl
@[simp] theorem State.setKeySlot_eventOnce (k : Nat) (x : KeySlot) : (s.setKeySlot k x).eventOnce = s.eventOnce := rfl
@[simp] theorem State.setKeySlot_strobes (k : Nat) (x : KeySlot) : (s.setKeySlot k x).strobes = s.strobes := rfl
@[simp] theorem State.setKeySlot_mem (k : Nat) (x : KeySlot) : (s.setKeySlot k x).mem = s.mem := rfl
@[simp] theorem State.setKeySlot_pages (k : Nat) (x : KeySlot) : (s.setKeySlot k x).pages = s.pages := rfl
@[simp] theorem State.setKeySlot_tiers (k : Nat) (x : KeySlot) : (s.setKeySlot k x).tiers = s.tiers := rfl
@[simp] theorem State.setKeySlot_sems (k : Nat) (x : KeySlot) : (s.setKeySlot k x).sems = s.sems := rfl
@[simp] theorem State.setKeySlot_cores (k : Nat) (x : KeySlot) : (s.setKeySlot k x).cores = s.cores := rfl
@[simp] theorem State.setKeySlot_dies (k : Nat) (x : KeySlot) : (s.setKeySlot k x).dies = s.dies := rfl
@[simp] theorem State.setKeySlot_medianRate (k : Nat) (x : KeySlot) : (s.setKeySlot k x).medianRate = s.medianRate := rfl
@[simp] theorem State.setKeySlot_rails (k : Nat) (x : KeySlot) : (s.setKeySlot k x).rails = s.rails := rfl
@[simp] theorem State.setKeySlot_cmds (k : Nat) (x : KeySlot) : (s.setKeySlot k x).cmds = s.cmds := rfl
@[simp] theorem State.setKeySlot_lists (k : Nat) (x : KeySlot) : (s.setKeySlot k x).lists = s.lists := rfl
@[simp] theorem State.setKeySlot_nextSeq (k : Nat) (x : KeySlot) : (s.setKeySlot k x).nextSeq = s.nextSeq := rfl
@[simp] theorem State.setKeySlot_parts (k : Nat) (x : KeySlot) : (s.setKeySlot k x).parts = s.parts := rfl
@[simp] theorem State.setKeySlot_changeQueue (k : Nat) (x : KeySlot) : (s.setKeySlot k x).changeQueue = s.changeQueue := rfl
@[simp] theorem State.setKeySlot_tables (k : Nat) (x : KeySlot) : (s.setKeySlot k x).tables = s.tables := rfl
@[simp] theorem State.setKeySlot_indexes (k : Nat) (x : KeySlot) : (s.setKeySlot k x).indexes = s.indexes := rfl
@[simp] theorem State.setKeySlot_texts (k : Nat) (x : KeySlot) : (s.setKeySlot k x).texts = s.texts := rfl
@[simp] theorem State.setKeySlot_stalls (k : Nat) (x : KeySlot) : (s.setKeySlot k x).stalls = s.stalls := rfl
@[simp] theorem State.setKeySlot_arbs (k : Nat) (x : KeySlot) : (s.setKeySlot k x).arbs = s.arbs := rfl
@[simp] theorem State.setKeySlot_flash (k : Nat) (x : KeySlot) : (s.setKeySlot k x).flash = s.flash := rfl
@[simp] theorem State.setKeySlot_net (k : Nat) (x : KeySlot) : (s.setKeySlot k x).net = s.net := rfl
@[simp] theorem State.setKeySlot_errors (k : Nat) (x : KeySlot) : (s.setKeySlot k x).errors = s.errors := rfl
@[simp] theorem State.setKeySlot_cal (k : Nat) (x : KeySlot) : (s.setKeySlot k x).cal = s.cal := rfl
@[simp] theorem State.setKeySlot_i3cAddr (k : Nat) (x : KeySlot) : (s.setKeySlot k x).i3cAddr = s.i3cAddr := rfl
@[simp] theorem State.setKeySlot_i3cPtr (k : Nat) (x : KeySlot) : (s.setKeySlot k x).i3cPtr = s.i3cPtr := rfl
@[simp] theorem State.setKeySlot_energyLatch (k : Nat) (x : KeySlot) : (s.setKeySlot k x).energyLatch = s.energyLatch := rfl
@[simp] theorem State.setKeySlot_readStamp (k : Nat) (x : KeySlot) : (s.setKeySlot k x).readStamp = s.readStamp := rfl
@[simp] theorem State.setKeySlot_residue (k : Nat) (x : KeySlot) : (s.setKeySlot k x).residue = s.residue := rfl

@[simp] theorem State.send_pending (x : Tx) : (s.send x).pending = s.pending := rfl
@[simp] theorem State.send_freeCtr (x : Tx) : (s.send x).freeCtr = s.freeCtr := rfl
@[simp] theorem State.send_fitted (x : Tx) : (s.send x).fitted = s.fitted := rfl
@[simp] theorem State.send_start (x : Tx) : (s.send x).start = s.start := rfl
@[simp] theorem State.send_regs (x : Tx) : (s.send x).regs = s.regs := rfl
@[simp] theorem State.send_shadow (x : Tx) : (s.send x).shadow = s.shadow := rfl
@[simp] theorem State.send_eventOnce (x : Tx) : (s.send x).eventOnce = s.eventOnce := rfl
@[simp] theorem State.send_strobes (x : Tx) : (s.send x).strobes = s.strobes := rfl
@[simp] theorem State.send_mem (x : Tx) : (s.send x).mem = s.mem := rfl
@[simp] theorem State.send_pages (x : Tx) : (s.send x).pages = s.pages := rfl
@[simp] theorem State.send_tiers (x : Tx) : (s.send x).tiers = s.tiers := rfl
@[simp] theorem State.send_sems (x : Tx) : (s.send x).sems = s.sems := rfl
@[simp] theorem State.send_cores (x : Tx) : (s.send x).cores = s.cores := rfl
@[simp] theorem State.send_dies (x : Tx) : (s.send x).dies = s.dies := rfl
@[simp] theorem State.send_medianRate (x : Tx) : (s.send x).medianRate = s.medianRate := rfl
@[simp] theorem State.send_rails (x : Tx) : (s.send x).rails = s.rails := rfl
@[simp] theorem State.send_cmds (x : Tx) : (s.send x).cmds = s.cmds := rfl
@[simp] theorem State.send_lists (x : Tx) : (s.send x).lists = s.lists := rfl
@[simp] theorem State.send_nextSeq (x : Tx) : (s.send x).nextSeq = s.nextSeq := rfl
@[simp] theorem State.send_parts (x : Tx) : (s.send x).parts = s.parts := rfl
@[simp] theorem State.send_changeQueue (x : Tx) : (s.send x).changeQueue = s.changeQueue := rfl
@[simp] theorem State.send_tables (x : Tx) : (s.send x).tables = s.tables := rfl
@[simp] theorem State.send_indexes (x : Tx) : (s.send x).indexes = s.indexes := rfl
@[simp] theorem State.send_texts (x : Tx) : (s.send x).texts = s.texts := rfl
@[simp] theorem State.send_stalls (x : Tx) : (s.send x).stalls = s.stalls := rfl
@[simp] theorem State.send_arbs (x : Tx) : (s.send x).arbs = s.arbs := rfl
@[simp] theorem State.send_flash (x : Tx) : (s.send x).flash = s.flash := rfl
@[simp] theorem State.send_net (x : Tx) : (s.send x).net = s.net := rfl
@[simp] theorem State.send_errors (x : Tx) : (s.send x).errors = s.errors := rfl
@[simp] theorem State.send_sec (x : Tx) : (s.send x).sec = s.sec := rfl
@[simp] theorem State.send_cal (x : Tx) : (s.send x).cal = s.cal := rfl
@[simp] theorem State.send_i3cAddr (x : Tx) : (s.send x).i3cAddr = s.i3cAddr := rfl
@[simp] theorem State.send_i3cPtr (x : Tx) : (s.send x).i3cPtr = s.i3cPtr := rfl
@[simp] theorem State.send_energyLatch (x : Tx) : (s.send x).energyLatch = s.energyLatch := rfl
@[simp] theorem State.send_readStamp (x : Tx) : (s.send x).readStamp = s.readStamp := rfl
@[simp] theorem State.send_residue (x : Tx) : (s.send x).residue = s.residue := rfl

@[simp] theorem State.setCmd_pending (x : Cmd) : (s.setCmd x).pending = s.pending := rfl
@[simp] theorem State.setCmd_tx (x : Cmd) : (s.setCmd x).tx = s.tx := rfl
@[simp] theorem State.setCmd_freeCtr (x : Cmd) : (s.setCmd x).freeCtr = s.freeCtr := rfl
@[simp] theorem State.setCmd_fitted (x : Cmd) : (s.setCmd x).fitted = s.fitted := rfl
@[simp] theorem State.setCmd_start (x : Cmd) : (s.setCmd x).start = s.start := rfl
@[simp] theorem State.setCmd_regs (x : Cmd) : (s.setCmd x).regs = s.regs := rfl
@[simp] theorem State.setCmd_shadow (x : Cmd) : (s.setCmd x).shadow = s.shadow := rfl
@[simp] theorem State.setCmd_eventOnce (x : Cmd) : (s.setCmd x).eventOnce = s.eventOnce := rfl
@[simp] theorem State.setCmd_strobes (x : Cmd) : (s.setCmd x).strobes = s.strobes := rfl
@[simp] theorem State.setCmd_mem (x : Cmd) : (s.setCmd x).mem = s.mem := rfl
@[simp] theorem State.setCmd_pages (x : Cmd) : (s.setCmd x).pages = s.pages := rfl
@[simp] theorem State.setCmd_tiers (x : Cmd) : (s.setCmd x).tiers = s.tiers := rfl
@[simp] theorem State.setCmd_sems (x : Cmd) : (s.setCmd x).sems = s.sems := rfl
@[simp] theorem State.setCmd_cores (x : Cmd) : (s.setCmd x).cores = s.cores := rfl
@[simp] theorem State.setCmd_dies (x : Cmd) : (s.setCmd x).dies = s.dies := rfl
@[simp] theorem State.setCmd_medianRate (x : Cmd) : (s.setCmd x).medianRate = s.medianRate := rfl
@[simp] theorem State.setCmd_rails (x : Cmd) : (s.setCmd x).rails = s.rails := rfl
@[simp] theorem State.setCmd_lists (x : Cmd) : (s.setCmd x).lists = s.lists := rfl
@[simp] theorem State.setCmd_nextSeq (x : Cmd) : (s.setCmd x).nextSeq = s.nextSeq := rfl
@[simp] theorem State.setCmd_parts (x : Cmd) : (s.setCmd x).parts = s.parts := rfl
@[simp] theorem State.setCmd_changeQueue (x : Cmd) : (s.setCmd x).changeQueue = s.changeQueue := rfl
@[simp] theorem State.setCmd_tables (x : Cmd) : (s.setCmd x).tables = s.tables := rfl
@[simp] theorem State.setCmd_indexes (x : Cmd) : (s.setCmd x).indexes = s.indexes := rfl
@[simp] theorem State.setCmd_texts (x : Cmd) : (s.setCmd x).texts = s.texts := rfl
@[simp] theorem State.setCmd_stalls (x : Cmd) : (s.setCmd x).stalls = s.stalls := rfl
@[simp] theorem State.setCmd_arbs (x : Cmd) : (s.setCmd x).arbs = s.arbs := rfl
@[simp] theorem State.setCmd_flash (x : Cmd) : (s.setCmd x).flash = s.flash := rfl
@[simp] theorem State.setCmd_net (x : Cmd) : (s.setCmd x).net = s.net := rfl
@[simp] theorem State.setCmd_errors (x : Cmd) : (s.setCmd x).errors = s.errors := rfl
@[simp] theorem State.setCmd_sec (x : Cmd) : (s.setCmd x).sec = s.sec := rfl
@[simp] theorem State.setCmd_cal (x : Cmd) : (s.setCmd x).cal = s.cal := rfl
@[simp] theorem State.setCmd_i3cAddr (x : Cmd) : (s.setCmd x).i3cAddr = s.i3cAddr := rfl
@[simp] theorem State.setCmd_i3cPtr (x : Cmd) : (s.setCmd x).i3cPtr = s.i3cPtr := rfl
@[simp] theorem State.setCmd_energyLatch (x : Cmd) : (s.setCmd x).energyLatch = s.energyLatch := rfl
@[simp] theorem State.setCmd_readStamp (x : Cmd) : (s.setCmd x).readStamp = s.readStamp := rfl
@[simp] theorem State.setCmd_residue (x : Cmd) : (s.setCmd x).residue = s.residue := rfl

@[simp] theorem State.dropCmd_pending (r : CmdRef) : (s.dropCmd r).pending = s.pending := rfl
@[simp] theorem State.dropCmd_tx (r : CmdRef) : (s.dropCmd r).tx = s.tx := rfl
@[simp] theorem State.dropCmd_freeCtr (r : CmdRef) : (s.dropCmd r).freeCtr = s.freeCtr := rfl
@[simp] theorem State.dropCmd_fitted (r : CmdRef) : (s.dropCmd r).fitted = s.fitted := rfl
@[simp] theorem State.dropCmd_start (r : CmdRef) : (s.dropCmd r).start = s.start := rfl
@[simp] theorem State.dropCmd_regs (r : CmdRef) : (s.dropCmd r).regs = s.regs := rfl
@[simp] theorem State.dropCmd_shadow (r : CmdRef) : (s.dropCmd r).shadow = s.shadow := rfl
@[simp] theorem State.dropCmd_eventOnce (r : CmdRef) : (s.dropCmd r).eventOnce = s.eventOnce := rfl
@[simp] theorem State.dropCmd_strobes (r : CmdRef) : (s.dropCmd r).strobes = s.strobes := rfl
@[simp] theorem State.dropCmd_mem (r : CmdRef) : (s.dropCmd r).mem = s.mem := rfl
@[simp] theorem State.dropCmd_pages (r : CmdRef) : (s.dropCmd r).pages = s.pages := rfl
@[simp] theorem State.dropCmd_tiers (r : CmdRef) : (s.dropCmd r).tiers = s.tiers := rfl
@[simp] theorem State.dropCmd_sems (r : CmdRef) : (s.dropCmd r).sems = s.sems := rfl
@[simp] theorem State.dropCmd_cores (r : CmdRef) : (s.dropCmd r).cores = s.cores := rfl
@[simp] theorem State.dropCmd_dies (r : CmdRef) : (s.dropCmd r).dies = s.dies := rfl
@[simp] theorem State.dropCmd_medianRate (r : CmdRef) : (s.dropCmd r).medianRate = s.medianRate := rfl
@[simp] theorem State.dropCmd_rails (r : CmdRef) : (s.dropCmd r).rails = s.rails := rfl
@[simp] theorem State.dropCmd_lists (r : CmdRef) : (s.dropCmd r).lists = s.lists := rfl
@[simp] theorem State.dropCmd_nextSeq (r : CmdRef) : (s.dropCmd r).nextSeq = s.nextSeq := rfl
@[simp] theorem State.dropCmd_parts (r : CmdRef) : (s.dropCmd r).parts = s.parts := rfl
@[simp] theorem State.dropCmd_changeQueue (r : CmdRef) : (s.dropCmd r).changeQueue = s.changeQueue := rfl
@[simp] theorem State.dropCmd_tables (r : CmdRef) : (s.dropCmd r).tables = s.tables := rfl
@[simp] theorem State.dropCmd_indexes (r : CmdRef) : (s.dropCmd r).indexes = s.indexes := rfl
@[simp] theorem State.dropCmd_texts (r : CmdRef) : (s.dropCmd r).texts = s.texts := rfl
@[simp] theorem State.dropCmd_stalls (r : CmdRef) : (s.dropCmd r).stalls = s.stalls := rfl
@[simp] theorem State.dropCmd_arbs (r : CmdRef) : (s.dropCmd r).arbs = s.arbs := rfl
@[simp] theorem State.dropCmd_flash (r : CmdRef) : (s.dropCmd r).flash = s.flash := rfl
@[simp] theorem State.dropCmd_net (r : CmdRef) : (s.dropCmd r).net = s.net := rfl
@[simp] theorem State.dropCmd_errors (r : CmdRef) : (s.dropCmd r).errors = s.errors := rfl
@[simp] theorem State.dropCmd_sec (r : CmdRef) : (s.dropCmd r).sec = s.sec := rfl
@[simp] theorem State.dropCmd_cal (r : CmdRef) : (s.dropCmd r).cal = s.cal := rfl
@[simp] theorem State.dropCmd_i3cAddr (r : CmdRef) : (s.dropCmd r).i3cAddr = s.i3cAddr := rfl
@[simp] theorem State.dropCmd_i3cPtr (r : CmdRef) : (s.dropCmd r).i3cPtr = s.i3cPtr := rfl
@[simp] theorem State.dropCmd_energyLatch (r : CmdRef) : (s.dropCmd r).energyLatch = s.energyLatch := rfl
@[simp] theorem State.dropCmd_readStamp (r : CmdRef) : (s.dropCmd r).readStamp = s.readStamp := rfl
@[simp] theorem State.dropCmd_residue (r : CmdRef) : (s.dropCmd r).residue = s.residue := rfl

@[simp] theorem State.fresh_pending : s.fresh.pending = s.pending := rfl
@[simp] theorem State.fresh_tx : s.fresh.tx = s.tx := rfl
@[simp] theorem State.fresh_fitted : s.fresh.fitted = s.fitted := rfl
@[simp] theorem State.fresh_start : s.fresh.start = s.start := rfl
@[simp] theorem State.fresh_regs : s.fresh.regs = s.regs := rfl
@[simp] theorem State.fresh_shadow : s.fresh.shadow = s.shadow := rfl
@[simp] theorem State.fresh_eventOnce : s.fresh.eventOnce = s.eventOnce := rfl
@[simp] theorem State.fresh_strobes : s.fresh.strobes = s.strobes := rfl
@[simp] theorem State.fresh_mem : s.fresh.mem = s.mem := rfl
@[simp] theorem State.fresh_pages : s.fresh.pages = s.pages := rfl
@[simp] theorem State.fresh_tiers : s.fresh.tiers = s.tiers := rfl
@[simp] theorem State.fresh_sems : s.fresh.sems = s.sems := rfl
@[simp] theorem State.fresh_cores : s.fresh.cores = s.cores := rfl
@[simp] theorem State.fresh_dies : s.fresh.dies = s.dies := rfl
@[simp] theorem State.fresh_medianRate : s.fresh.medianRate = s.medianRate := rfl
@[simp] theorem State.fresh_rails : s.fresh.rails = s.rails := rfl
@[simp] theorem State.fresh_cmds : s.fresh.cmds = s.cmds := rfl
@[simp] theorem State.fresh_lists : s.fresh.lists = s.lists := rfl
@[simp] theorem State.fresh_nextSeq : s.fresh.nextSeq = s.nextSeq := rfl
@[simp] theorem State.fresh_parts : s.fresh.parts = s.parts := rfl
@[simp] theorem State.fresh_changeQueue : s.fresh.changeQueue = s.changeQueue := rfl
@[simp] theorem State.fresh_tables : s.fresh.tables = s.tables := rfl
@[simp] theorem State.fresh_indexes : s.fresh.indexes = s.indexes := rfl
@[simp] theorem State.fresh_texts : s.fresh.texts = s.texts := rfl
@[simp] theorem State.fresh_stalls : s.fresh.stalls = s.stalls := rfl
@[simp] theorem State.fresh_arbs : s.fresh.arbs = s.arbs := rfl
@[simp] theorem State.fresh_flash : s.fresh.flash = s.flash := rfl
@[simp] theorem State.fresh_net : s.fresh.net = s.net := rfl
@[simp] theorem State.fresh_errors : s.fresh.errors = s.errors := rfl
@[simp] theorem State.fresh_sec : s.fresh.sec = s.sec := rfl
@[simp] theorem State.fresh_cal : s.fresh.cal = s.cal := rfl
@[simp] theorem State.fresh_i3cAddr : s.fresh.i3cAddr = s.i3cAddr := rfl
@[simp] theorem State.fresh_i3cPtr : s.fresh.i3cPtr = s.i3cPtr := rfl
@[simp] theorem State.fresh_energyLatch : s.fresh.energyLatch = s.energyLatch := rfl
@[simp] theorem State.fresh_readStamp : s.fresh.readStamp = s.readStamp := rfl
@[simp] theorem State.fresh_residue : s.fresh.residue = s.residue := rfl

@[simp] theorem State.putPhys_pending (k : Nat) (b : Byte) : (s.putPhys k b).pending = s.pending := rfl
@[simp] theorem State.putPhys_tx (k : Nat) (b : Byte) : (s.putPhys k b).tx = s.tx := rfl
@[simp] theorem State.putPhys_freeCtr (k : Nat) (b : Byte) : (s.putPhys k b).freeCtr = s.freeCtr := rfl
@[simp] theorem State.putPhys_fitted (k : Nat) (b : Byte) : (s.putPhys k b).fitted = s.fitted := rfl
@[simp] theorem State.putPhys_start (k : Nat) (b : Byte) : (s.putPhys k b).start = s.start := rfl
@[simp] theorem State.putPhys_regs (k : Nat) (b : Byte) : (s.putPhys k b).regs = s.regs := rfl
@[simp] theorem State.putPhys_shadow (k : Nat) (b : Byte) : (s.putPhys k b).shadow = s.shadow := rfl
@[simp] theorem State.putPhys_eventOnce (k : Nat) (b : Byte) : (s.putPhys k b).eventOnce = s.eventOnce := rfl
@[simp] theorem State.putPhys_strobes (k : Nat) (b : Byte) : (s.putPhys k b).strobes = s.strobes := rfl
@[simp] theorem State.putPhys_pages (k : Nat) (b : Byte) : (s.putPhys k b).pages = s.pages := rfl
@[simp] theorem State.putPhys_tiers (k : Nat) (b : Byte) : (s.putPhys k b).tiers = s.tiers := rfl
@[simp] theorem State.putPhys_sems (k : Nat) (b : Byte) : (s.putPhys k b).sems = s.sems := rfl
@[simp] theorem State.putPhys_cores (k : Nat) (b : Byte) : (s.putPhys k b).cores = s.cores := rfl
@[simp] theorem State.putPhys_dies (k : Nat) (b : Byte) : (s.putPhys k b).dies = s.dies := rfl
@[simp] theorem State.putPhys_medianRate (k : Nat) (b : Byte) : (s.putPhys k b).medianRate = s.medianRate := rfl
@[simp] theorem State.putPhys_rails (k : Nat) (b : Byte) : (s.putPhys k b).rails = s.rails := rfl
@[simp] theorem State.putPhys_cmds (k : Nat) (b : Byte) : (s.putPhys k b).cmds = s.cmds := rfl
@[simp] theorem State.putPhys_lists (k : Nat) (b : Byte) : (s.putPhys k b).lists = s.lists := rfl
@[simp] theorem State.putPhys_nextSeq (k : Nat) (b : Byte) : (s.putPhys k b).nextSeq = s.nextSeq := rfl
@[simp] theorem State.putPhys_parts (k : Nat) (b : Byte) : (s.putPhys k b).parts = s.parts := rfl
@[simp] theorem State.putPhys_changeQueue (k : Nat) (b : Byte) : (s.putPhys k b).changeQueue = s.changeQueue := rfl
@[simp] theorem State.putPhys_tables (k : Nat) (b : Byte) : (s.putPhys k b).tables = s.tables := rfl
@[simp] theorem State.putPhys_indexes (k : Nat) (b : Byte) : (s.putPhys k b).indexes = s.indexes := rfl
@[simp] theorem State.putPhys_texts (k : Nat) (b : Byte) : (s.putPhys k b).texts = s.texts := rfl
@[simp] theorem State.putPhys_stalls (k : Nat) (b : Byte) : (s.putPhys k b).stalls = s.stalls := rfl
@[simp] theorem State.putPhys_arbs (k : Nat) (b : Byte) : (s.putPhys k b).arbs = s.arbs := rfl
@[simp] theorem State.putPhys_flash (k : Nat) (b : Byte) : (s.putPhys k b).flash = s.flash := rfl
@[simp] theorem State.putPhys_net (k : Nat) (b : Byte) : (s.putPhys k b).net = s.net := rfl
@[simp] theorem State.putPhys_errors (k : Nat) (b : Byte) : (s.putPhys k b).errors = s.errors := rfl
@[simp] theorem State.putPhys_sec (k : Nat) (b : Byte) : (s.putPhys k b).sec = s.sec := rfl
@[simp] theorem State.putPhys_cal (k : Nat) (b : Byte) : (s.putPhys k b).cal = s.cal := rfl
@[simp] theorem State.putPhys_i3cAddr (k : Nat) (b : Byte) : (s.putPhys k b).i3cAddr = s.i3cAddr := rfl
@[simp] theorem State.putPhys_i3cPtr (k : Nat) (b : Byte) : (s.putPhys k b).i3cPtr = s.i3cPtr := rfl
@[simp] theorem State.putPhys_energyLatch (k : Nat) (b : Byte) : (s.putPhys k b).energyLatch = s.energyLatch := rfl
@[simp] theorem State.putPhys_readStamp (k : Nat) (b : Byte) : (s.putPhys k b).readStamp = s.readStamp := rfl
@[simp] theorem State.putPhys_residue (k : Nat) (b : Byte) : (s.putPhys k b).residue = s.residue := rfl

@[simp] theorem State.zeroPhys_pending (k n : Nat) : (s.zeroPhys k n).pending = s.pending := rfl
@[simp] theorem State.zeroPhys_tx (k n : Nat) : (s.zeroPhys k n).tx = s.tx := rfl
@[simp] theorem State.zeroPhys_freeCtr (k n : Nat) : (s.zeroPhys k n).freeCtr = s.freeCtr := rfl
@[simp] theorem State.zeroPhys_fitted (k n : Nat) : (s.zeroPhys k n).fitted = s.fitted := rfl
@[simp] theorem State.zeroPhys_start (k n : Nat) : (s.zeroPhys k n).start = s.start := rfl
@[simp] theorem State.zeroPhys_regs (k n : Nat) : (s.zeroPhys k n).regs = s.regs := rfl
@[simp] theorem State.zeroPhys_shadow (k n : Nat) : (s.zeroPhys k n).shadow = s.shadow := rfl
@[simp] theorem State.zeroPhys_eventOnce (k n : Nat) : (s.zeroPhys k n).eventOnce = s.eventOnce := rfl
@[simp] theorem State.zeroPhys_strobes (k n : Nat) : (s.zeroPhys k n).strobes = s.strobes := rfl
@[simp] theorem State.zeroPhys_pages (k n : Nat) : (s.zeroPhys k n).pages = s.pages := rfl
@[simp] theorem State.zeroPhys_tiers (k n : Nat) : (s.zeroPhys k n).tiers = s.tiers := rfl
@[simp] theorem State.zeroPhys_sems (k n : Nat) : (s.zeroPhys k n).sems = s.sems := rfl
@[simp] theorem State.zeroPhys_cores (k n : Nat) : (s.zeroPhys k n).cores = s.cores := rfl
@[simp] theorem State.zeroPhys_dies (k n : Nat) : (s.zeroPhys k n).dies = s.dies := rfl
@[simp] theorem State.zeroPhys_medianRate (k n : Nat) : (s.zeroPhys k n).medianRate = s.medianRate := rfl
@[simp] theorem State.zeroPhys_rails (k n : Nat) : (s.zeroPhys k n).rails = s.rails := rfl
@[simp] theorem State.zeroPhys_cmds (k n : Nat) : (s.zeroPhys k n).cmds = s.cmds := rfl
@[simp] theorem State.zeroPhys_lists (k n : Nat) : (s.zeroPhys k n).lists = s.lists := rfl
@[simp] theorem State.zeroPhys_nextSeq (k n : Nat) : (s.zeroPhys k n).nextSeq = s.nextSeq := rfl
@[simp] theorem State.zeroPhys_parts (k n : Nat) : (s.zeroPhys k n).parts = s.parts := rfl
@[simp] theorem State.zeroPhys_changeQueue (k n : Nat) : (s.zeroPhys k n).changeQueue = s.changeQueue := rfl
@[simp] theorem State.zeroPhys_tables (k n : Nat) : (s.zeroPhys k n).tables = s.tables := rfl
@[simp] theorem State.zeroPhys_indexes (k n : Nat) : (s.zeroPhys k n).indexes = s.indexes := rfl
@[simp] theorem State.zeroPhys_texts (k n : Nat) : (s.zeroPhys k n).texts = s.texts := rfl
@[simp] theorem State.zeroPhys_stalls (k n : Nat) : (s.zeroPhys k n).stalls = s.stalls := rfl
@[simp] theorem State.zeroPhys_arbs (k n : Nat) : (s.zeroPhys k n).arbs = s.arbs := rfl
@[simp] theorem State.zeroPhys_flash (k n : Nat) : (s.zeroPhys k n).flash = s.flash := rfl
@[simp] theorem State.zeroPhys_net (k n : Nat) : (s.zeroPhys k n).net = s.net := rfl
@[simp] theorem State.zeroPhys_errors (k n : Nat) : (s.zeroPhys k n).errors = s.errors := rfl
@[simp] theorem State.zeroPhys_sec (k n : Nat) : (s.zeroPhys k n).sec = s.sec := rfl
@[simp] theorem State.zeroPhys_cal (k n : Nat) : (s.zeroPhys k n).cal = s.cal := rfl
@[simp] theorem State.zeroPhys_i3cAddr (k n : Nat) : (s.zeroPhys k n).i3cAddr = s.i3cAddr := rfl
@[simp] theorem State.zeroPhys_i3cPtr (k n : Nat) : (s.zeroPhys k n).i3cPtr = s.i3cPtr := rfl
@[simp] theorem State.zeroPhys_energyLatch (k n : Nat) : (s.zeroPhys k n).energyLatch = s.energyLatch := rfl
@[simp] theorem State.zeroPhys_readStamp (k n : Nat) : (s.zeroPhys k n).readStamp = s.readStamp := rfl
@[simp] theorem State.zeroPhys_residue (k n : Nat) : (s.zeroPhys k n).residue = s.residue := rfl

@[simp] theorem State.unpoison_pending (k n : Nat) : (s.unpoison k n).pending = s.pending := rfl
@[simp] theorem State.unpoison_tx (k n : Nat) : (s.unpoison k n).tx = s.tx := rfl
@[simp] theorem State.unpoison_freeCtr (k n : Nat) : (s.unpoison k n).freeCtr = s.freeCtr := rfl
@[simp] theorem State.unpoison_fitted (k n : Nat) : (s.unpoison k n).fitted = s.fitted := rfl
@[simp] theorem State.unpoison_start (k n : Nat) : (s.unpoison k n).start = s.start := rfl
@[simp] theorem State.unpoison_regs (k n : Nat) : (s.unpoison k n).regs = s.regs := rfl
@[simp] theorem State.unpoison_shadow (k n : Nat) : (s.unpoison k n).shadow = s.shadow := rfl
@[simp] theorem State.unpoison_eventOnce (k n : Nat) : (s.unpoison k n).eventOnce = s.eventOnce := rfl
@[simp] theorem State.unpoison_strobes (k n : Nat) : (s.unpoison k n).strobes = s.strobes := rfl
@[simp] theorem State.unpoison_mem (k n : Nat) : (s.unpoison k n).mem = s.mem := rfl
@[simp] theorem State.unpoison_pages (k n : Nat) : (s.unpoison k n).pages = s.pages := rfl
@[simp] theorem State.unpoison_tiers (k n : Nat) : (s.unpoison k n).tiers = s.tiers := rfl
@[simp] theorem State.unpoison_sems (k n : Nat) : (s.unpoison k n).sems = s.sems := rfl
@[simp] theorem State.unpoison_cores (k n : Nat) : (s.unpoison k n).cores = s.cores := rfl
@[simp] theorem State.unpoison_dies (k n : Nat) : (s.unpoison k n).dies = s.dies := rfl
@[simp] theorem State.unpoison_medianRate (k n : Nat) : (s.unpoison k n).medianRate = s.medianRate := rfl
@[simp] theorem State.unpoison_rails (k n : Nat) : (s.unpoison k n).rails = s.rails := rfl
@[simp] theorem State.unpoison_cmds (k n : Nat) : (s.unpoison k n).cmds = s.cmds := rfl
@[simp] theorem State.unpoison_lists (k n : Nat) : (s.unpoison k n).lists = s.lists := rfl
@[simp] theorem State.unpoison_nextSeq (k n : Nat) : (s.unpoison k n).nextSeq = s.nextSeq := rfl
@[simp] theorem State.unpoison_parts (k n : Nat) : (s.unpoison k n).parts = s.parts := rfl
@[simp] theorem State.unpoison_changeQueue (k n : Nat) : (s.unpoison k n).changeQueue = s.changeQueue := rfl
@[simp] theorem State.unpoison_tables (k n : Nat) : (s.unpoison k n).tables = s.tables := rfl
@[simp] theorem State.unpoison_indexes (k n : Nat) : (s.unpoison k n).indexes = s.indexes := rfl
@[simp] theorem State.unpoison_texts (k n : Nat) : (s.unpoison k n).texts = s.texts := rfl
@[simp] theorem State.unpoison_stalls (k n : Nat) : (s.unpoison k n).stalls = s.stalls := rfl
@[simp] theorem State.unpoison_arbs (k n : Nat) : (s.unpoison k n).arbs = s.arbs := rfl
@[simp] theorem State.unpoison_flash (k n : Nat) : (s.unpoison k n).flash = s.flash := rfl
@[simp] theorem State.unpoison_net (k n : Nat) : (s.unpoison k n).net = s.net := rfl
@[simp] theorem State.unpoison_sec (k n : Nat) : (s.unpoison k n).sec = s.sec := rfl
@[simp] theorem State.unpoison_cal (k n : Nat) : (s.unpoison k n).cal = s.cal := rfl
@[simp] theorem State.unpoison_i3cAddr (k n : Nat) : (s.unpoison k n).i3cAddr = s.i3cAddr := rfl
@[simp] theorem State.unpoison_i3cPtr (k n : Nat) : (s.unpoison k n).i3cPtr = s.i3cPtr := rfl
@[simp] theorem State.unpoison_energyLatch (k n : Nat) : (s.unpoison k n).energyLatch = s.energyLatch := rfl
@[simp] theorem State.unpoison_readStamp (k n : Nat) : (s.unpoison k n).readStamp = s.readStamp := rfl
@[simp] theorem State.unpoison_residue (k n : Nat) : (s.unpoison k n).residue = s.residue := rfl

@[simp] theorem State.setStored_pending (g o b : Nat) (w : Word) : (s.setStored g o b w).pending = s.pending := by
  unfold State.setStored; split <;> rfl
@[simp] theorem State.setStored_tx (g o b : Nat) (w : Word) : (s.setStored g o b w).tx = s.tx := by
  unfold State.setStored; split <;> rfl
@[simp] theorem State.setStored_freeCtr (g o b : Nat) (w : Word) : (s.setStored g o b w).freeCtr = s.freeCtr := by
  unfold State.setStored; split <;> rfl
@[simp] theorem State.setStored_fitted (g o b : Nat) (w : Word) : (s.setStored g o b w).fitted = s.fitted := by
  unfold State.setStored; split <;> rfl
@[simp] theorem State.setStored_start (g o b : Nat) (w : Word) : (s.setStored g o b w).start = s.start := by
  unfold State.setStored; split <;> rfl
@[simp] theorem State.setStored_shadow (g o b : Nat) (w : Word) : (s.setStored g o b w).shadow = s.shadow := by
  unfold State.setStored; split <;> rfl
@[simp] theorem State.setStored_eventOnce (g o b : Nat) (w : Word) : (s.setStored g o b w).eventOnce = s.eventOnce := by
  unfold State.setStored; split <;> rfl
@[simp] theorem State.setStored_strobes (g o b : Nat) (w : Word) : (s.setStored g o b w).strobes = s.strobes := by
  unfold State.setStored; split <;> rfl
@[simp] theorem State.setStored_mem (g o b : Nat) (w : Word) : (s.setStored g o b w).mem = s.mem := by
  unfold State.setStored; split <;> rfl
@[simp] theorem State.setStored_pages (g o b : Nat) (w : Word) : (s.setStored g o b w).pages = s.pages := by
  unfold State.setStored; split <;> rfl
@[simp] theorem State.setStored_tiers (g o b : Nat) (w : Word) : (s.setStored g o b w).tiers = s.tiers := by
  unfold State.setStored; split <;> rfl
@[simp] theorem State.setStored_sems (g o b : Nat) (w : Word) : (s.setStored g o b w).sems = s.sems := by
  unfold State.setStored; split <;> rfl
@[simp] theorem State.setStored_cores (g o b : Nat) (w : Word) : (s.setStored g o b w).cores = s.cores := by
  unfold State.setStored; split <;> rfl
@[simp] theorem State.setStored_dies (g o b : Nat) (w : Word) : (s.setStored g o b w).dies = s.dies := by
  unfold State.setStored; split <;> rfl
@[simp] theorem State.setStored_medianRate (g o b : Nat) (w : Word) : (s.setStored g o b w).medianRate = s.medianRate := by
  unfold State.setStored; split <;> rfl
@[simp] theorem State.setStored_rails (g o b : Nat) (w : Word) : (s.setStored g o b w).rails = s.rails := by
  unfold State.setStored; split <;> rfl
@[simp] theorem State.setStored_cmds (g o b : Nat) (w : Word) : (s.setStored g o b w).cmds = s.cmds := by
  unfold State.setStored; split <;> rfl
@[simp] theorem State.setStored_lists (g o b : Nat) (w : Word) : (s.setStored g o b w).lists = s.lists := by
  unfold State.setStored; split <;> rfl
@[simp] theorem State.setStored_nextSeq (g o b : Nat) (w : Word) : (s.setStored g o b w).nextSeq = s.nextSeq := by
  unfold State.setStored; split <;> rfl
@[simp] theorem State.setStored_parts (g o b : Nat) (w : Word) : (s.setStored g o b w).parts = s.parts := by
  unfold State.setStored; split <;> rfl
@[simp] theorem State.setStored_changeQueue (g o b : Nat) (w : Word) : (s.setStored g o b w).changeQueue = s.changeQueue := by
  unfold State.setStored; split <;> rfl
@[simp] theorem State.setStored_tables (g o b : Nat) (w : Word) : (s.setStored g o b w).tables = s.tables := by
  unfold State.setStored; split <;> rfl
@[simp] theorem State.setStored_indexes (g o b : Nat) (w : Word) : (s.setStored g o b w).indexes = s.indexes := by
  unfold State.setStored; split <;> rfl
@[simp] theorem State.setStored_texts (g o b : Nat) (w : Word) : (s.setStored g o b w).texts = s.texts := by
  unfold State.setStored; split <;> rfl
@[simp] theorem State.setStored_stalls (g o b : Nat) (w : Word) : (s.setStored g o b w).stalls = s.stalls := by
  unfold State.setStored; split <;> rfl
@[simp] theorem State.setStored_arbs (g o b : Nat) (w : Word) : (s.setStored g o b w).arbs = s.arbs := by
  unfold State.setStored; split <;> rfl
@[simp] theorem State.setStored_flash (g o b : Nat) (w : Word) : (s.setStored g o b w).flash = s.flash := by
  unfold State.setStored; split <;> rfl
@[simp] theorem State.setStored_net (g o b : Nat) (w : Word) : (s.setStored g o b w).net = s.net := by
  unfold State.setStored; split <;> rfl
@[simp] theorem State.setStored_errors (g o b : Nat) (w : Word) : (s.setStored g o b w).errors = s.errors := by
  unfold State.setStored; split <;> rfl
@[simp] theorem State.setStored_sec (g o b : Nat) (w : Word) : (s.setStored g o b w).sec = s.sec := by
  unfold State.setStored; split <;> rfl
@[simp] theorem State.setStored_cal (g o b : Nat) (w : Word) : (s.setStored g o b w).cal = s.cal := by
  unfold State.setStored; split <;> rfl
@[simp] theorem State.setStored_i3cAddr (g o b : Nat) (w : Word) : (s.setStored g o b w).i3cAddr = s.i3cAddr := by
  unfold State.setStored; split <;> rfl
@[simp] theorem State.setStored_i3cPtr (g o b : Nat) (w : Word) : (s.setStored g o b w).i3cPtr = s.i3cPtr := by
  unfold State.setStored; split <;> rfl
@[simp] theorem State.setStored_energyLatch (g o b : Nat) (w : Word) : (s.setStored g o b w).energyLatch = s.energyLatch := by
  unfold State.setStored; split <;> rfl
@[simp] theorem State.setStored_readStamp (g o b : Nat) (w : Word) : (s.setStored g o b w).readStamp = s.readStamp := by
  unfold State.setStored; split <;> rfl
@[simp] theorem State.setStored_residue (g o b : Nat) (w : Word) : (s.setStored g o b w).residue = s.residue := by
  unfold State.setStored; split <;> rfl

@[simp] theorem State.setField_pending (g o h l v : Nat) : (s.setField g o h l v).pending = s.pending := by
  simp [State.setField]
@[simp] theorem State.setField_tx (g o h l v : Nat) : (s.setField g o h l v).tx = s.tx := by
  simp [State.setField]
@[simp] theorem State.setField_freeCtr (g o h l v : Nat) : (s.setField g o h l v).freeCtr = s.freeCtr := by
  simp [State.setField]
@[simp] theorem State.setField_fitted (g o h l v : Nat) : (s.setField g o h l v).fitted = s.fitted := by
  simp [State.setField]
@[simp] theorem State.setField_start (g o h l v : Nat) : (s.setField g o h l v).start = s.start := by
  simp [State.setField]
@[simp] theorem State.setField_shadow (g o h l v : Nat) : (s.setField g o h l v).shadow = s.shadow := by
  simp [State.setField]
@[simp] theorem State.setField_eventOnce (g o h l v : Nat) : (s.setField g o h l v).eventOnce = s.eventOnce := by
  simp [State.setField]
@[simp] theorem State.setField_strobes (g o h l v : Nat) : (s.setField g o h l v).strobes = s.strobes := by
  simp [State.setField]
@[simp] theorem State.setField_mem (g o h l v : Nat) : (s.setField g o h l v).mem = s.mem := by
  simp [State.setField]
@[simp] theorem State.setField_pages (g o h l v : Nat) : (s.setField g o h l v).pages = s.pages := by
  simp [State.setField]
@[simp] theorem State.setField_tiers (g o h l v : Nat) : (s.setField g o h l v).tiers = s.tiers := by
  simp [State.setField]
@[simp] theorem State.setField_sems (g o h l v : Nat) : (s.setField g o h l v).sems = s.sems := by
  simp [State.setField]
@[simp] theorem State.setField_cores (g o h l v : Nat) : (s.setField g o h l v).cores = s.cores := by
  simp [State.setField]
@[simp] theorem State.setField_dies (g o h l v : Nat) : (s.setField g o h l v).dies = s.dies := by
  simp [State.setField]
@[simp] theorem State.setField_medianRate (g o h l v : Nat) : (s.setField g o h l v).medianRate = s.medianRate := by
  simp [State.setField]
@[simp] theorem State.setField_rails (g o h l v : Nat) : (s.setField g o h l v).rails = s.rails := by
  simp [State.setField]
@[simp] theorem State.setField_cmds (g o h l v : Nat) : (s.setField g o h l v).cmds = s.cmds := by
  simp [State.setField]
@[simp] theorem State.setField_lists (g o h l v : Nat) : (s.setField g o h l v).lists = s.lists := by
  simp [State.setField]
@[simp] theorem State.setField_nextSeq (g o h l v : Nat) : (s.setField g o h l v).nextSeq = s.nextSeq := by
  simp [State.setField]
@[simp] theorem State.setField_parts (g o h l v : Nat) : (s.setField g o h l v).parts = s.parts := by
  simp [State.setField]
@[simp] theorem State.setField_changeQueue (g o h l v : Nat) : (s.setField g o h l v).changeQueue = s.changeQueue := by
  simp [State.setField]
@[simp] theorem State.setField_tables (g o h l v : Nat) : (s.setField g o h l v).tables = s.tables := by
  simp [State.setField]
@[simp] theorem State.setField_indexes (g o h l v : Nat) : (s.setField g o h l v).indexes = s.indexes := by
  simp [State.setField]
@[simp] theorem State.setField_texts (g o h l v : Nat) : (s.setField g o h l v).texts = s.texts := by
  simp [State.setField]
@[simp] theorem State.setField_stalls (g o h l v : Nat) : (s.setField g o h l v).stalls = s.stalls := by
  simp [State.setField]
@[simp] theorem State.setField_arbs (g o h l v : Nat) : (s.setField g o h l v).arbs = s.arbs := by
  simp [State.setField]
@[simp] theorem State.setField_flash (g o h l v : Nat) : (s.setField g o h l v).flash = s.flash := by
  simp [State.setField]
@[simp] theorem State.setField_net (g o h l v : Nat) : (s.setField g o h l v).net = s.net := by
  simp [State.setField]
@[simp] theorem State.setField_errors (g o h l v : Nat) : (s.setField g o h l v).errors = s.errors := by
  simp [State.setField]
@[simp] theorem State.setField_sec (g o h l v : Nat) : (s.setField g o h l v).sec = s.sec := by
  simp [State.setField]
@[simp] theorem State.setField_cal (g o h l v : Nat) : (s.setField g o h l v).cal = s.cal := by
  simp [State.setField]
@[simp] theorem State.setField_i3cAddr (g o h l v : Nat) : (s.setField g o h l v).i3cAddr = s.i3cAddr := by
  simp [State.setField]
@[simp] theorem State.setField_i3cPtr (g o h l v : Nat) : (s.setField g o h l v).i3cPtr = s.i3cPtr := by
  simp [State.setField]
@[simp] theorem State.setField_energyLatch (g o h l v : Nat) : (s.setField g o h l v).energyLatch = s.energyLatch := by
  simp [State.setField]
@[simp] theorem State.setField_readStamp (g o h l v : Nat) : (s.setField g o h l v).readStamp = s.readStamp := by
  simp [State.setField]
@[simp] theorem State.setField_residue (g o h l v : Nat) : (s.setField g o h l v).residue = s.residue := by
  simp [State.setField]

@[simp] theorem State.count_pending (g o n : Nat) : (s.count g o n).pending = s.pending := by
  simp [State.count]
@[simp] theorem State.count_tx (g o n : Nat) : (s.count g o n).tx = s.tx := by
  simp [State.count]
@[simp] theorem State.count_freeCtr (g o n : Nat) : (s.count g o n).freeCtr = s.freeCtr := by
  simp [State.count]
@[simp] theorem State.count_fitted (g o n : Nat) : (s.count g o n).fitted = s.fitted := by
  simp [State.count]
@[simp] theorem State.count_start (g o n : Nat) : (s.count g o n).start = s.start := by
  simp [State.count]
@[simp] theorem State.count_shadow (g o n : Nat) : (s.count g o n).shadow = s.shadow := by
  simp [State.count]
@[simp] theorem State.count_eventOnce (g o n : Nat) : (s.count g o n).eventOnce = s.eventOnce := by
  simp [State.count]
@[simp] theorem State.count_strobes (g o n : Nat) : (s.count g o n).strobes = s.strobes := by
  simp [State.count]
@[simp] theorem State.count_mem (g o n : Nat) : (s.count g o n).mem = s.mem := by
  simp [State.count]
@[simp] theorem State.count_pages (g o n : Nat) : (s.count g o n).pages = s.pages := by
  simp [State.count]
@[simp] theorem State.count_tiers (g o n : Nat) : (s.count g o n).tiers = s.tiers := by
  simp [State.count]
@[simp] theorem State.count_sems (g o n : Nat) : (s.count g o n).sems = s.sems := by
  simp [State.count]
@[simp] theorem State.count_cores (g o n : Nat) : (s.count g o n).cores = s.cores := by
  simp [State.count]
@[simp] theorem State.count_dies (g o n : Nat) : (s.count g o n).dies = s.dies := by
  simp [State.count]
@[simp] theorem State.count_medianRate (g o n : Nat) : (s.count g o n).medianRate = s.medianRate := by
  simp [State.count]
@[simp] theorem State.count_rails (g o n : Nat) : (s.count g o n).rails = s.rails := by
  simp [State.count]
@[simp] theorem State.count_cmds (g o n : Nat) : (s.count g o n).cmds = s.cmds := by
  simp [State.count]
@[simp] theorem State.count_lists (g o n : Nat) : (s.count g o n).lists = s.lists := by
  simp [State.count]
@[simp] theorem State.count_nextSeq (g o n : Nat) : (s.count g o n).nextSeq = s.nextSeq := by
  simp [State.count]
@[simp] theorem State.count_parts (g o n : Nat) : (s.count g o n).parts = s.parts := by
  simp [State.count]
@[simp] theorem State.count_changeQueue (g o n : Nat) : (s.count g o n).changeQueue = s.changeQueue := by
  simp [State.count]
@[simp] theorem State.count_tables (g o n : Nat) : (s.count g o n).tables = s.tables := by
  simp [State.count]
@[simp] theorem State.count_indexes (g o n : Nat) : (s.count g o n).indexes = s.indexes := by
  simp [State.count]
@[simp] theorem State.count_texts (g o n : Nat) : (s.count g o n).texts = s.texts := by
  simp [State.count]
@[simp] theorem State.count_stalls (g o n : Nat) : (s.count g o n).stalls = s.stalls := by
  simp [State.count]
@[simp] theorem State.count_arbs (g o n : Nat) : (s.count g o n).arbs = s.arbs := by
  simp [State.count]
@[simp] theorem State.count_flash (g o n : Nat) : (s.count g o n).flash = s.flash := by
  simp [State.count]
@[simp] theorem State.count_net (g o n : Nat) : (s.count g o n).net = s.net := by
  simp [State.count]
@[simp] theorem State.count_errors (g o n : Nat) : (s.count g o n).errors = s.errors := by
  simp [State.count]
@[simp] theorem State.count_sec (g o n : Nat) : (s.count g o n).sec = s.sec := by
  simp [State.count]
@[simp] theorem State.count_cal (g o n : Nat) : (s.count g o n).cal = s.cal := by
  simp [State.count]
@[simp] theorem State.count_i3cAddr (g o n : Nat) : (s.count g o n).i3cAddr = s.i3cAddr := by
  simp [State.count]
@[simp] theorem State.count_i3cPtr (g o n : Nat) : (s.count g o n).i3cPtr = s.i3cPtr := by
  simp [State.count]
@[simp] theorem State.count_energyLatch (g o n : Nat) : (s.count g o n).energyLatch = s.energyLatch := by
  simp [State.count]
@[simp] theorem State.count_readStamp (g o n : Nat) : (s.count g o n).readStamp = s.readStamp := by
  simp [State.count]
@[simp] theorem State.count_residue (g o n : Nat) : (s.count g o n).residue = s.residue := by
  simp [State.count]

@[simp] theorem State.countBank_pending (g o b n : Nat) : (s.countBank g o b n).pending = s.pending := by
  simp [State.countBank]
@[simp] theorem State.countBank_tx (g o b n : Nat) : (s.countBank g o b n).tx = s.tx := by
  simp [State.countBank]
@[simp] theorem State.countBank_freeCtr (g o b n : Nat) : (s.countBank g o b n).freeCtr = s.freeCtr := by
  simp [State.countBank]
@[simp] theorem State.countBank_fitted (g o b n : Nat) : (s.countBank g o b n).fitted = s.fitted := by
  simp [State.countBank]
@[simp] theorem State.countBank_start (g o b n : Nat) : (s.countBank g o b n).start = s.start := by
  simp [State.countBank]
@[simp] theorem State.countBank_shadow (g o b n : Nat) : (s.countBank g o b n).shadow = s.shadow := by
  simp [State.countBank]
@[simp] theorem State.countBank_eventOnce (g o b n : Nat) : (s.countBank g o b n).eventOnce = s.eventOnce := by
  simp [State.countBank]
@[simp] theorem State.countBank_strobes (g o b n : Nat) : (s.countBank g o b n).strobes = s.strobes := by
  simp [State.countBank]
@[simp] theorem State.countBank_mem (g o b n : Nat) : (s.countBank g o b n).mem = s.mem := by
  simp [State.countBank]
@[simp] theorem State.countBank_pages (g o b n : Nat) : (s.countBank g o b n).pages = s.pages := by
  simp [State.countBank]
@[simp] theorem State.countBank_tiers (g o b n : Nat) : (s.countBank g o b n).tiers = s.tiers := by
  simp [State.countBank]
@[simp] theorem State.countBank_sems (g o b n : Nat) : (s.countBank g o b n).sems = s.sems := by
  simp [State.countBank]
@[simp] theorem State.countBank_cores (g o b n : Nat) : (s.countBank g o b n).cores = s.cores := by
  simp [State.countBank]
@[simp] theorem State.countBank_dies (g o b n : Nat) : (s.countBank g o b n).dies = s.dies := by
  simp [State.countBank]
@[simp] theorem State.countBank_medianRate (g o b n : Nat) : (s.countBank g o b n).medianRate = s.medianRate := by
  simp [State.countBank]
@[simp] theorem State.countBank_rails (g o b n : Nat) : (s.countBank g o b n).rails = s.rails := by
  simp [State.countBank]
@[simp] theorem State.countBank_cmds (g o b n : Nat) : (s.countBank g o b n).cmds = s.cmds := by
  simp [State.countBank]
@[simp] theorem State.countBank_lists (g o b n : Nat) : (s.countBank g o b n).lists = s.lists := by
  simp [State.countBank]
@[simp] theorem State.countBank_nextSeq (g o b n : Nat) : (s.countBank g o b n).nextSeq = s.nextSeq := by
  simp [State.countBank]
@[simp] theorem State.countBank_parts (g o b n : Nat) : (s.countBank g o b n).parts = s.parts := by
  simp [State.countBank]
@[simp] theorem State.countBank_changeQueue (g o b n : Nat) : (s.countBank g o b n).changeQueue = s.changeQueue := by
  simp [State.countBank]
@[simp] theorem State.countBank_tables (g o b n : Nat) : (s.countBank g o b n).tables = s.tables := by
  simp [State.countBank]
@[simp] theorem State.countBank_indexes (g o b n : Nat) : (s.countBank g o b n).indexes = s.indexes := by
  simp [State.countBank]
@[simp] theorem State.countBank_texts (g o b n : Nat) : (s.countBank g o b n).texts = s.texts := by
  simp [State.countBank]
@[simp] theorem State.countBank_stalls (g o b n : Nat) : (s.countBank g o b n).stalls = s.stalls := by
  simp [State.countBank]
@[simp] theorem State.countBank_arbs (g o b n : Nat) : (s.countBank g o b n).arbs = s.arbs := by
  simp [State.countBank]
@[simp] theorem State.countBank_flash (g o b n : Nat) : (s.countBank g o b n).flash = s.flash := by
  simp [State.countBank]
@[simp] theorem State.countBank_net (g o b n : Nat) : (s.countBank g o b n).net = s.net := by
  simp [State.countBank]
@[simp] theorem State.countBank_errors (g o b n : Nat) : (s.countBank g o b n).errors = s.errors := by
  simp [State.countBank]
@[simp] theorem State.countBank_sec (g o b n : Nat) : (s.countBank g o b n).sec = s.sec := by
  simp [State.countBank]
@[simp] theorem State.countBank_cal (g o b n : Nat) : (s.countBank g o b n).cal = s.cal := by
  simp [State.countBank]
@[simp] theorem State.countBank_i3cAddr (g o b n : Nat) : (s.countBank g o b n).i3cAddr = s.i3cAddr := by
  simp [State.countBank]
@[simp] theorem State.countBank_i3cPtr (g o b n : Nat) : (s.countBank g o b n).i3cPtr = s.i3cPtr := by
  simp [State.countBank]
@[simp] theorem State.countBank_energyLatch (g o b n : Nat) : (s.countBank g o b n).energyLatch = s.energyLatch := by
  simp [State.countBank]
@[simp] theorem State.countBank_readStamp (g o b n : Nat) : (s.countBank g o b n).readStamp = s.readStamp := by
  simp [State.countBank]
@[simp] theorem State.countBank_residue (g o b n : Nat) : (s.countBank g o b n).residue = s.residue := by
  simp [State.countBank]

@[simp] theorem State.peak_pending (g o h l v : Nat) : (s.peak g o h l v).pending = s.pending := by
  unfold State.peak; split <;> simp
@[simp] theorem State.peak_tx (g o h l v : Nat) : (s.peak g o h l v).tx = s.tx := by
  unfold State.peak; split <;> simp
@[simp] theorem State.peak_freeCtr (g o h l v : Nat) : (s.peak g o h l v).freeCtr = s.freeCtr := by
  unfold State.peak; split <;> simp
@[simp] theorem State.peak_fitted (g o h l v : Nat) : (s.peak g o h l v).fitted = s.fitted := by
  unfold State.peak; split <;> simp
@[simp] theorem State.peak_start (g o h l v : Nat) : (s.peak g o h l v).start = s.start := by
  unfold State.peak; split <;> simp
@[simp] theorem State.peak_shadow (g o h l v : Nat) : (s.peak g o h l v).shadow = s.shadow := by
  unfold State.peak; split <;> simp
@[simp] theorem State.peak_eventOnce (g o h l v : Nat) : (s.peak g o h l v).eventOnce = s.eventOnce := by
  unfold State.peak; split <;> simp
@[simp] theorem State.peak_strobes (g o h l v : Nat) : (s.peak g o h l v).strobes = s.strobes := by
  unfold State.peak; split <;> simp
@[simp] theorem State.peak_mem (g o h l v : Nat) : (s.peak g o h l v).mem = s.mem := by
  unfold State.peak; split <;> simp
@[simp] theorem State.peak_pages (g o h l v : Nat) : (s.peak g o h l v).pages = s.pages := by
  unfold State.peak; split <;> simp
@[simp] theorem State.peak_tiers (g o h l v : Nat) : (s.peak g o h l v).tiers = s.tiers := by
  unfold State.peak; split <;> simp
@[simp] theorem State.peak_sems (g o h l v : Nat) : (s.peak g o h l v).sems = s.sems := by
  unfold State.peak; split <;> simp
@[simp] theorem State.peak_cores (g o h l v : Nat) : (s.peak g o h l v).cores = s.cores := by
  unfold State.peak; split <;> simp
@[simp] theorem State.peak_dies (g o h l v : Nat) : (s.peak g o h l v).dies = s.dies := by
  unfold State.peak; split <;> simp
@[simp] theorem State.peak_medianRate (g o h l v : Nat) : (s.peak g o h l v).medianRate = s.medianRate := by
  unfold State.peak; split <;> simp
@[simp] theorem State.peak_rails (g o h l v : Nat) : (s.peak g o h l v).rails = s.rails := by
  unfold State.peak; split <;> simp
@[simp] theorem State.peak_cmds (g o h l v : Nat) : (s.peak g o h l v).cmds = s.cmds := by
  unfold State.peak; split <;> simp
@[simp] theorem State.peak_lists (g o h l v : Nat) : (s.peak g o h l v).lists = s.lists := by
  unfold State.peak; split <;> simp
@[simp] theorem State.peak_nextSeq (g o h l v : Nat) : (s.peak g o h l v).nextSeq = s.nextSeq := by
  unfold State.peak; split <;> simp
@[simp] theorem State.peak_parts (g o h l v : Nat) : (s.peak g o h l v).parts = s.parts := by
  unfold State.peak; split <;> simp
@[simp] theorem State.peak_changeQueue (g o h l v : Nat) : (s.peak g o h l v).changeQueue = s.changeQueue := by
  unfold State.peak; split <;> simp
@[simp] theorem State.peak_tables (g o h l v : Nat) : (s.peak g o h l v).tables = s.tables := by
  unfold State.peak; split <;> simp
@[simp] theorem State.peak_indexes (g o h l v : Nat) : (s.peak g o h l v).indexes = s.indexes := by
  unfold State.peak; split <;> simp
@[simp] theorem State.peak_texts (g o h l v : Nat) : (s.peak g o h l v).texts = s.texts := by
  unfold State.peak; split <;> simp
@[simp] theorem State.peak_stalls (g o h l v : Nat) : (s.peak g o h l v).stalls = s.stalls := by
  unfold State.peak; split <;> simp
@[simp] theorem State.peak_arbs (g o h l v : Nat) : (s.peak g o h l v).arbs = s.arbs := by
  unfold State.peak; split <;> simp
@[simp] theorem State.peak_flash (g o h l v : Nat) : (s.peak g o h l v).flash = s.flash := by
  unfold State.peak; split <;> simp
@[simp] theorem State.peak_net (g o h l v : Nat) : (s.peak g o h l v).net = s.net := by
  unfold State.peak; split <;> simp
@[simp] theorem State.peak_errors (g o h l v : Nat) : (s.peak g o h l v).errors = s.errors := by
  unfold State.peak; split <;> simp
@[simp] theorem State.peak_sec (g o h l v : Nat) : (s.peak g o h l v).sec = s.sec := by
  unfold State.peak; split <;> simp
@[simp] theorem State.peak_cal (g o h l v : Nat) : (s.peak g o h l v).cal = s.cal := by
  unfold State.peak; split <;> simp
@[simp] theorem State.peak_i3cAddr (g o h l v : Nat) : (s.peak g o h l v).i3cAddr = s.i3cAddr := by
  unfold State.peak; split <;> simp
@[simp] theorem State.peak_i3cPtr (g o h l v : Nat) : (s.peak g o h l v).i3cPtr = s.i3cPtr := by
  unfold State.peak; split <;> simp
@[simp] theorem State.peak_energyLatch (g o h l v : Nat) : (s.peak g o h l v).energyLatch = s.energyLatch := by
  unfold State.peak; split <;> simp
@[simp] theorem State.peak_readStamp (g o h l v : Nat) : (s.peak g o h l v).readStamp = s.readStamp := by
  unfold State.peak; split <;> simp
@[simp] theorem State.peak_residue (g o h l v : Nat) : (s.peak g o h l v).residue = s.residue := by
  unfold State.peak; split <;> simp

@[simp] theorem State.hdrCount_pending (g o : Nat) : (s.hdrCount g o).pending = s.pending := by
  unfold State.hdrCount; split <;> simp
@[simp] theorem State.hdrCount_tx (g o : Nat) : (s.hdrCount g o).tx = s.tx := by
  unfold State.hdrCount; split <;> simp
@[simp] theorem State.hdrCount_freeCtr (g o : Nat) : (s.hdrCount g o).freeCtr = s.freeCtr := by
  unfold State.hdrCount; split <;> simp
@[simp] theorem State.hdrCount_fitted (g o : Nat) : (s.hdrCount g o).fitted = s.fitted := by
  unfold State.hdrCount; split <;> simp
@[simp] theorem State.hdrCount_start (g o : Nat) : (s.hdrCount g o).start = s.start := by
  unfold State.hdrCount; split <;> simp
@[simp] theorem State.hdrCount_shadow (g o : Nat) : (s.hdrCount g o).shadow = s.shadow := by
  unfold State.hdrCount; split <;> simp
@[simp] theorem State.hdrCount_eventOnce (g o : Nat) : (s.hdrCount g o).eventOnce = s.eventOnce := by
  unfold State.hdrCount; split <;> simp
@[simp] theorem State.hdrCount_strobes (g o : Nat) : (s.hdrCount g o).strobes = s.strobes := by
  unfold State.hdrCount; split <;> simp
@[simp] theorem State.hdrCount_mem (g o : Nat) : (s.hdrCount g o).mem = s.mem := by
  unfold State.hdrCount; split <;> simp
@[simp] theorem State.hdrCount_pages (g o : Nat) : (s.hdrCount g o).pages = s.pages := by
  unfold State.hdrCount; split <;> simp
@[simp] theorem State.hdrCount_tiers (g o : Nat) : (s.hdrCount g o).tiers = s.tiers := by
  unfold State.hdrCount; split <;> simp
@[simp] theorem State.hdrCount_sems (g o : Nat) : (s.hdrCount g o).sems = s.sems := by
  unfold State.hdrCount; split <;> simp
@[simp] theorem State.hdrCount_cores (g o : Nat) : (s.hdrCount g o).cores = s.cores := by
  unfold State.hdrCount; split <;> simp
@[simp] theorem State.hdrCount_dies (g o : Nat) : (s.hdrCount g o).dies = s.dies := by
  unfold State.hdrCount; split <;> simp
@[simp] theorem State.hdrCount_medianRate (g o : Nat) : (s.hdrCount g o).medianRate = s.medianRate := by
  unfold State.hdrCount; split <;> simp
@[simp] theorem State.hdrCount_rails (g o : Nat) : (s.hdrCount g o).rails = s.rails := by
  unfold State.hdrCount; split <;> simp
@[simp] theorem State.hdrCount_cmds (g o : Nat) : (s.hdrCount g o).cmds = s.cmds := by
  unfold State.hdrCount; split <;> simp
@[simp] theorem State.hdrCount_lists (g o : Nat) : (s.hdrCount g o).lists = s.lists := by
  unfold State.hdrCount; split <;> simp
@[simp] theorem State.hdrCount_nextSeq (g o : Nat) : (s.hdrCount g o).nextSeq = s.nextSeq := by
  unfold State.hdrCount; split <;> simp
@[simp] theorem State.hdrCount_parts (g o : Nat) : (s.hdrCount g o).parts = s.parts := by
  unfold State.hdrCount; split <;> simp
@[simp] theorem State.hdrCount_changeQueue (g o : Nat) : (s.hdrCount g o).changeQueue = s.changeQueue := by
  unfold State.hdrCount; split <;> simp
@[simp] theorem State.hdrCount_tables (g o : Nat) : (s.hdrCount g o).tables = s.tables := by
  unfold State.hdrCount; split <;> simp
@[simp] theorem State.hdrCount_indexes (g o : Nat) : (s.hdrCount g o).indexes = s.indexes := by
  unfold State.hdrCount; split <;> simp
@[simp] theorem State.hdrCount_texts (g o : Nat) : (s.hdrCount g o).texts = s.texts := by
  unfold State.hdrCount; split <;> simp
@[simp] theorem State.hdrCount_stalls (g o : Nat) : (s.hdrCount g o).stalls = s.stalls := by
  unfold State.hdrCount; split <;> simp
@[simp] theorem State.hdrCount_arbs (g o : Nat) : (s.hdrCount g o).arbs = s.arbs := by
  unfold State.hdrCount; split <;> simp
@[simp] theorem State.hdrCount_flash (g o : Nat) : (s.hdrCount g o).flash = s.flash := by
  unfold State.hdrCount; split <;> simp
@[simp] theorem State.hdrCount_net (g o : Nat) : (s.hdrCount g o).net = s.net := by
  unfold State.hdrCount; split <;> simp
@[simp] theorem State.hdrCount_errors (g o : Nat) : (s.hdrCount g o).errors = s.errors := by
  unfold State.hdrCount; split <;> simp
@[simp] theorem State.hdrCount_sec (g o : Nat) : (s.hdrCount g o).sec = s.sec := by
  unfold State.hdrCount; split <;> simp
@[simp] theorem State.hdrCount_cal (g o : Nat) : (s.hdrCount g o).cal = s.cal := by
  unfold State.hdrCount; split <;> simp
@[simp] theorem State.hdrCount_i3cAddr (g o : Nat) : (s.hdrCount g o).i3cAddr = s.i3cAddr := by
  unfold State.hdrCount; split <;> simp
@[simp] theorem State.hdrCount_i3cPtr (g o : Nat) : (s.hdrCount g o).i3cPtr = s.i3cPtr := by
  unfold State.hdrCount; split <;> simp
@[simp] theorem State.hdrCount_energyLatch (g o : Nat) : (s.hdrCount g o).energyLatch = s.energyLatch := by
  unfold State.hdrCount; split <;> simp
@[simp] theorem State.hdrCount_readStamp (g o : Nat) : (s.hdrCount g o).readStamp = s.readStamp := by
  unfold State.hdrCount; split <;> simp
@[simp] theorem State.hdrCount_residue (g o : Nat) : (s.hdrCount g o).residue = s.residue := by
  unfold State.hdrCount; split <;> simp

end Sys2Proof.Machine
end

