-- ==== Sys2Proof/Laws/Frames.lean ====
section
/-! SUPPORT. What the shared operations leave as they were. Two bundles of parts of State: `besideEvents`, which counters, conditions, events
and frames sent never touch, and `steady`, which the end of a command and settling never touch. One lemma per operation and bundle. -/

namespace Sys2Proof.Machine

/-! ### Folds and choices -/

theorem foldl_keeps {α β γ : Type} (g : β → γ) (f : β → α → β) (h : ∀ b a, g (f b a) = g b) (l : List α) (b : β) : g (l.foldl f b) = g b := by
  induction l generalizing b with
  | nil => rfl
  | cons a l ih => simp [ih, h]

theorem foldr_keeps {α β γ : Type} (g : β → γ) (f : α → β → β) (h : ∀ b a, g (f a b) = g b) (l : List α) (b : β) : g (l.foldr f b) = g b := by
  induction l with
  | nil => rfl
  | cons a l ih => simp [h, ih]

/-! ### What events leave -/

/-- All of the state but registers, partitions' rings, networks and what was sent. -/
def State.besideEvents (s : State) :=
  (s.pending, s.freeCtr, s.fitted, s.start, s.shadow, s.strobes, s.mem, s.pages, s.tiers, s.sems, s.cores, s.dies, s.rails, s.cmds, s.lists,
    s.nextSeq, s.changeQueue, s.tables, s.indexes, s.texts, s.stalls, s.arbs, s.flash, s.errors, s.sec, s.cal, s.i3cAddr, s.i3cPtr)

variable (s : State)

@[simp] theorem setStored_beside (g o b : Nat) (w : Word) : (s.setStored g o b w).besideEvents = s.besideEvents := by
  simp [State.besideEvents]
@[simp] theorem setField_beside (g o h l v : Nat) : (s.setField g o h l v).besideEvents = s.besideEvents := by simp [State.setField]
@[simp] theorem count_beside (g o n : Nat) : (s.count g o n).besideEvents = s.besideEvents := by simp [State.count]
@[simp] theorem countBank_beside (g o b n : Nat) : (s.countBank g o b n).besideEvents = s.besideEvents := by simp [State.countBank]
@[simp] theorem peak_beside (g o h l v : Nat) : (s.peak g o h l v).besideEvents = s.besideEvents := by
  unfold State.peak; split <;> simp
@[simp] theorem hdrCount_beside (g o : Nat) : (s.hdrCount g o).besideEvents = s.besideEvents := by
  unfold State.hdrCount; split <;> simp
@[simp] theorem setQp_beside (i : Nat) (x : Qp) : (s.setQp i x).besideEvents = s.besideEvents := rfl
@[simp] theorem setSub_beside (i : Nat) (x : SubPort) : (s.setSub i x).besideEvents = s.besideEvents := rfl
@[simp] theorem setPart_beside (p : Nat) (x : Part) : (s.setPart p x).besideEvents = s.besideEvents := rfl
@[simp] theorem setTxConn_beside (t : TxConn) : (s.setTxConn t).besideEvents = s.besideEvents := rfl
@[simp] theorem send_beside (t : Tx) : (s.send t).besideEvents = s.besideEvents := rfl
@[simp] theorem txFrames_beside (i n : Nat) : (s.txFrames i n).besideEvents = s.besideEvents := by
  unfold State.txFrames; dsimp only; split <;> simp
@[simp] theorem rxFrame_beside (i : Nat) (ce : Bool) : (s.rxFrame i ce).besideEvents = s.besideEvents := by
  unfold State.rxFrame; dsimp only; split <;> simp
@[simp] theorem charge_beside (k p o b n : Nat) : (s.charge k p o b n).besideEvents = s.besideEvents := by
  unfold State.charge; split
  · rfl
  · change State.besideEvents (if _ then _ else _) = _
    split <;> simp
@[simp] theorem chargeFront_beside (q : Nat) (t : Tx) : (s.chargeFront q t).besideEvents = s.besideEvents := by
  unfold State.chargeFront; dsimp only; repeat' split
  all_goals simp
@[simp] theorem qpFrames_beside (q n : Nat) (t : Tx) : (s.qpFrames q n t).besideEvents = s.besideEvents := by
  unfold State.qpFrames; dsimp only; split <;> simp
@[simp] theorem rdmaOut_beside (q a : Nat) (bs : List Byte) : (s.rdmaOut q a bs).besideEvents = s.besideEvents := by
  simp [State.rdmaOut]
@[simp] theorem writeSlots_beside (p n : Nat) (l : List (List Byte)) : (s.writeSlots p n l).besideEvents = s.besideEvents := by
  unfold State.writeSlots; dsimp only; split <;> split <;> simp
@[simp] theorem writeRec_beside (p : Nat) (l : List (List Byte)) : (s.writeRec p l).besideEvents = s.besideEvents := by
  simp [State.writeRec]
@[simp] theorem setErr_beside (g b : Nat) : (s.setErr g b).besideEvents = s.besideEvents := by
  unfold State.setErr; dsimp only; split
  · simp
  · split <;> split <;> simp
@[simp] theorem writeEvent_beside (p g e i t : Nat) : (s.writeEvent p g e i t).besideEvents = s.besideEvents := by
  unfold State.writeEvent; dsimp only; split
  · split <;> simp
  · simp
@[simp] theorem deliver_beside (g e i : Nat) (t : Option (Nat × Nat)) : (s.deliver g e i t).besideEvents = s.besideEvents := by
  unfold State.deliver; split
  · split <;> simp
  · simp
@[simp] theorem raise_beside (g : Nat) (b : Option Nat) (e i : Nat) (t : Option (Nat × Nat)) : (s.raise g b e i t).besideEvents = s.besideEvents := by
  unfold State.raise; split <;> simp
@[simp] theorem raiseOnce_beside (g : Nat) (b : Option Nat) (e i : Nat) (t : Option (Nat × Nat)) :
    (s.raiseOnce g b e i t).besideEvents = s.besideEvents := by
  unfold State.raiseOnce; split
  · split
    · rfl
    · simp; rfl
  · simp
@[simp] theorem flagEvent_beside (g b e i : Nat) (t : Option (Nat × Nat)) : (s.flagEvent g b e i t).besideEvents = s.besideEvents := by
  simp [State.flagEvent]
@[simp] theorem flagOnce_beside (g b e i : Nat) (t : Option (Nat × Nat)) : (s.flagOnce g b e i t).besideEvents = s.besideEvents := by
  simp [State.flagOnce]
@[simp] theorem noteFull_beside (p : Nat) : (s.noteFull p).besideEvents = s.besideEvents := by
  unfold State.noteFull; dsimp only; split <;> simp
@[simp] theorem writeHeldFull_beside (p : Nat) : (s.writeHeldFull p).besideEvents = s.besideEvents := by
  unfold State.writeHeldFull; dsimp only; split
  · split <;> simp
  · rfl
@[simp] theorem accessFault_beside (a p m x : Nat) (t : Option (Nat × Nat)) : (s.accessFault a p m x t).besideEvents = s.besideEvents := by
  unfold State.accessFault; dsimp only; split <;> simp
@[simp] theorem semFault_beside (k : Nat) : (s.semFault k).besideEvents = s.besideEvents := by simp [State.semFault]
@[simp] theorem semDenied_beside (k m : Nat) (t : Option (Nat × Nat)) : (s.semDenied k m t).besideEvents = s.besideEvents := by
  simp [State.semDenied]
@[simp] theorem semSat_beside (k m v : Nat) (t : Option (Nat × Nat)) : (s.semSat k m v t).besideEvents = s.besideEvents := by
  unfold State.semSat; dsimp only; split <;> simp

/-! ### What the end of a command leaves -/

/-- The parts of the state that no command's end, kill or settling changes. -/
def State.steady (s : State) :=
  (s.pending, s.fitted, s.start, s.strobes, s.tiers, s.dies, s.rails, s.nextSeq, s.texts, s.arbs, s.sec, s.cal, s.i3cAddr)

theorem steady_of_beside {s t : State} (h : t.besideEvents = s.besideEvents) : t.steady = s.steady := by
  simp only [State.besideEvents, Prod.mk.injEq] at h; simp [State.steady, h]

@[simp] theorem setStored_steady (g o b : Nat) (w : Word) : (s.setStored g o b w).steady = s.steady := steady_of_beside (by simp)
@[simp] theorem setField_steady (g o h l v : Nat) : (s.setField g o h l v).steady = s.steady := steady_of_beside (by simp)
@[simp] theorem count_steady (g o n : Nat) : (s.count g o n).steady = s.steady := steady_of_beside (by simp)
@[simp] theorem countBytes_steady (g o n : Nat) : (s.countBytes g o n).steady = s.steady := by simp [State.countBytes]; rfl
@[simp] theorem peak_steady (g o h l v : Nat) : (s.peak g o h l v).steady = s.steady := steady_of_beside (by simp)
@[simp] theorem setErr_steady (g b : Nat) : (s.setErr g b).steady = s.steady := steady_of_beside (by simp)
@[simp] theorem raise_steady (g : Nat) (b : Option Nat) (e i : Nat) (t : Option (Nat × Nat)) : (s.raise g b e i t).steady = s.steady :=
  steady_of_beside (by simp)
@[simp] theorem flagEvent_steady (g b e i : Nat) (t : Option (Nat × Nat)) : (s.flagEvent g b e i t).steady = s.steady := steady_of_beside (by simp)
@[simp] theorem noteFull_steady (p : Nat) : (s.noteFull p).steady = s.steady := steady_of_beside (by simp)
@[simp] theorem writeHeldFull_steady (p : Nat) : (s.writeHeldFull p).steady = s.steady := steady_of_beside (by simp)
@[simp] theorem writeRec_steady (p : Nat) (l : List (List Byte)) : (s.writeRec p l).steady = s.steady := steady_of_beside (by simp)
@[simp] theorem setPart_steady (p : Nat) (x : Part) : (s.setPart p x).steady = s.steady := rfl
@[simp] theorem setSem_steady (k : Nat) (x : Sem) : (s.setSem k x).steady = s.steady := rfl
@[simp] theorem setCore_steady (c : Nat) (x : Core) : (s.setCore c x).steady = s.steady := rfl
@[simp] theorem setPage_steady (g : Nat) (x : Page) : (s.setPage g x).steady = s.steady := rfl
@[simp] theorem setChan_steady (c : Nat) (x : FlashCh) : (s.setChan c x).steady = s.steady := rfl
@[simp] theorem setCmd_steady (c : Cmd) : (s.setCmd c).steady = s.steady := rfl
@[simp] theorem dropCmd_steady (r : CmdRef) : (s.dropCmd r).steady = s.steady := rfl
@[simp] theorem setTxConn_steady (t : TxConn) : (s.setTxConn t).steady = s.steady := rfl
@[simp] theorem setSub_steady (i : Nat) (x : SubPort) : (s.setSub i x).steady = s.steady := rfl
@[simp] theorem send_steady (t : Tx) : (s.send t).steady = s.steady := rfl
@[simp] theorem txFrames_steady (i n : Nat) : (s.txFrames i n).steady = s.steady := steady_of_beside (by simp)
@[simp] theorem freeSlot_steady (r : CmdRef) : (s.freeSlot r).steady = s.steady := rfl
@[simp] theorem fresh_steady : s.fresh.steady = s.steady := rfl

@[simp] theorem drainRecs_steady (p : Nat) (l : List Rec) : (drainRecs p l s).steady = s.steady := by
  induction l generalizing s with
  | nil => rfl
  | cons r l ih =>
    unfold drainRecs; dsimp only; split
    · rw [ih]; split <;> simp
    · rfl
@[simp] theorem postRecs_steady (p : Nat) (l : List Rec) : (s.postRecs p l).steady = s.steady := by
  unfold State.postRecs; dsimp only; split <;> simp
@[simp] theorem complete_steady (c : Cmd) (l : List Rec) : (s.complete c l).steady = s.steady := by
  unfold State.complete; dsimp only; split <;> simp

@[simp] theorem putPhysList_steady (k : Nat) (bs : List Byte) : (s.putPhysList k bs).steady = s.steady := by
  induction bs generalizing s k with
  | nil => rfl
  | cons b bs ih => unfold State.putPhysList; rw [ih]; rfl
@[simp] theorem markDirty_steady (g o : Nat) : (s.markDirty g o).steady = s.steady := by
  unfold State.markDirty; dsimp only; split <;> rfl
@[simp] theorem writeUnit_steady (p l o : Nat) (bs : List Byte) : (s.writeUnit p l o bs).steady = s.steady := rfl
@[simp] theorem writePiece_steady (p : Nat) (d : Option Nat) (a : Nat) (bs : List Byte) : (s.writePiece p d a bs).steady = s.steady := by
  unfold State.writePiece; dsimp only; split
  · simp
  · have h : ((s.writeKeys p d a).foldl (fun (t : State) k => t.putPhysList k bs) s).steady = s.steady :=
      foldl_keeps State.steady _ (fun t k => putPhysList_steady t k bs) _ _
    split <;> first | (rw [markDirty_steady]; exact h) | exact h
  · rfl
theorem writeFor_steady {s t : State} {p : Nat} {d : Option Nat} {a : Nat} {bs : List Byte} (h : s.writeFor p d a bs = .ok t) :
    t.steady = s.steady := by
  unfold State.writeFor at h; split at h
  · cases h
  · split at h
    · cases h
    · cases h; exact foldl_keeps State.steady _ (fun t e => writePiece_steady t ..) _ _
@[simp] theorem writeZ_steady (p a : Nat) (bs : List Byte) : (s.writeZ p a bs).steady = s.steady := by
  unfold State.writeZ; split
  · rename_i t h; exact writeFor_steady h
  · rfl
@[simp] theorem undefRange_steady (p a n : Nat) : (s.undefRange p a n).steady = s.steady := by
  unfold State.undefRange
  exact foldl_keeps State.steady _ (fun t e => by split <;> simp) _ _
@[simp] theorem undefAll_steady (p : Nat) (l : List (Nat × Nat)) : (s.undefAll p l).steady = s.steady := by
  unfold State.undefAll; exact foldl_keeps State.steady _ (fun t e => by simp) _ _
@[simp] theorem undefSlot_steady (c : Cmd) : (s.undefSlot c).steady = s.steady := by
  unfold State.undefSlot; dsimp only; split
  · rfl
  · split <;> rfl
@[simp] theorem undefOuts_steady (c : Cmd) (b : Bool) : (s.undefOuts c b).steady = s.steady := by simp [State.undefOuts]
@[simp] theorem applyStalls_steady (g : Nat) : (s.applyStalls g).steady = s.steady := by
  unfold State.applyStalls; split
  · rfl
  · refine Eq.trans ?_ (foldl_keeps State.steady (fun (s : State) (e : Stall) =>
      if (s.movingPage e.addr e.bytes.length).isSome then s
      else match s.cmd? e.cmd with
        | some c => s.writeZ c.part e.addr e.bytes
        | none => s) (fun t e => ?_) (s.stalls.filter (fun e => e.page = g)) s)
    · rfl
    · split
      · rfl
      · split <;> simp
@[simp] theorem writeHot_steady (p r : Nat) (t : TableDesc) (bs : List Byte) : (s.writeHot p t r bs).steady = s.steady := by
  unfold State.writeHot; split
  · rfl
  · exact foldl_keeps State.steady _ (fun t e => by dsimp only; split <;> simp) _ _
@[simp] theorem finishLog_steady (c : Cmd) : (s.finishLog c).steady = s.steady := by
  unfold State.finishLog; split
  · rfl
  · refine (foldl_keeps State.steady _ (fun t e => by simp) _ _).trans ?_
    exact (foldl_keeps State.steady (fun (t : State) (e : Stall) => t.writeZ c.part e.addr e.bytes) (fun t e => by simp) _ _)
@[simp] theorem semRelease_steady (k n : Nat) : (s.semRelease k n).steady = s.steady := rfl
@[simp] theorem semClear_steady (k : Nat) : (s.semClear k).steady = s.steady := rfl
@[simp] theorem dropHands_steady (r : CmdRef) : (s.dropHands r).steady = s.steady := rfl
@[simp] theorem dropBacklog_steady (r : CmdRef) : (s.dropBacklog r).steady = s.steady := rfl

@[simp] theorem releaseHeld_steady (c : Cmd) : (s.releaseHeld c).steady = s.steady := by
  have h1 := foldl_keeps State.steady (fun (t : State) (e : Nat × Nat) => t.semRelease e.1 e.2) (fun t e => by simp) c.takes s
  have h2 := fun t => foldl_keeps State.steady (fun (t : State) (e : Nat × Nat) => t.semClear e.1) (fun t e => by simp) c.halo t
  have h3 := fun (l : Tab Page) t => foldl_keeps State.steady
    (fun (t : State) (e : Nat × Page) => t.flagEvent pgTNG 2 1 (e.1 % 2 ^ 27) c.evTag) (fun t e => by simp) l t
  have h4 := fun (l : List Nat) t => foldl_keeps State.steady (fun (t : State) (g : Nat) => t.applyStalls g) (fun t g => by simp) l t
  exact (h4 _ _).trans ((h3 _ _).trans ((dropBacklog_steady ..).trans ((dropHands_steady ..).trans ((h2 _).trans h1))))
@[simp] theorem dropSubs_steady (n : Nat) (f : Bool) : (s.dropSubs n f).steady = s.steady := by
  have h := foldl_keeps State.steady (fun (t : State) (c : Cmd) =>
      let u := (t.releaseHeld c).finishLog c; if f && c.phase ≠ .applying then u.undefOuts c false else u)
    (fun t c => by dsimp only; split <;> simp)
  exact h _ s
@[simp] theorem giveBack_steady (p : Nat) (k : Taken) : (s.giveBack p k).steady = s.steady := by
  unfold State.giveBack; dsimp only; rw [setPart_steady]
  exact foldr_keeps State.steady _ (fun t e => by simp) _ _
@[simp] theorem dropStep_steady (c : Cmd) (f : Bool) : (s.dropStep c f).steady = s.steady := by
  unfold State.dropStep; dsimp only; split <;> simp
@[simp] theorem dropPass_steady (p n : Nat) (f : Bool) : (s.dropPass p n f).steady = s.steady := by
  unfold State.dropPass; dsimp only; split <;> simp
@[simp] theorem dropCancels_steady (c : Cmd) : (s.dropCancels c).steady = s.steady := by
  unfold State.dropCancels; dsimp only; split <;> simp
@[simp] theorem endMain_steady (c : Cmd) (st d : Nat) : (s.endMain c st d).steady = s.steady := by
  unfold State.endMain; dsimp only; rw [complete_steady]; change State.steady (if _ then _ else _) = _; split <;> simp
@[simp] theorem endCmd_steady (c : Cmd) (st d : Nat) : (s.endCmd c st d).steady = s.steady := by
  unfold State.endCmd; dsimp only; split
  · simp
  · split <;> simp
@[simp] theorem killCmd_steady (c : Cmd) (n : Nat) : (s.killCmd c n).steady = s.steady := by
  unfold State.killCmd; dsimp only; split
  · rfl
  · split <;> split <;> simp
@[simp] theorem killWhere_steady (f : Cmd → Bool) (n : Nat) : (s.killWhere f n).steady = s.steady := by
  unfold State.killWhere; exact foldl_keeps State.steady _ (fun t e => by split <;> simp) _ _
@[simp] theorem endWhere_steady (f : Cmd → Bool) (st d : Nat) : (s.endWhere f st d).steady = s.steady := by
  unfold State.endWhere; exact foldl_keeps State.steady _ (fun t e => by split <;> simp) _ _

/-! ### What settling's parts leave -/

@[simp] theorem gateBorrowers_steady (q n : Nat) : (State.gateBorrowers q n s).steady = s.steady := by
  induction n generalizing s with
  | zero => rfl
  | succ n ih =>
    unfold State.gateBorrowers; dsimp only; split
    · rfl
    · split
      · rfl
      · rw [ih]; rfl
@[simp] theorem returnQuarter_steady (c : Nat) : (s.returnQuarter c).steady = s.steady := by simp [State.returnQuarter]
@[simp] theorem settleLoans_steady : s.settleLoans.steady = s.steady := by
  unfold State.settleLoans; dsimp only
  refine (foldl_keeps State.steady _ (fun t c => ?_) _ _).trans (foldl_keeps State.steady _ (fun t c => ?_) _ _)
  · split <;> split <;> rfl
  · split <;> simp
theorem fabEmit_steady {s u : State} {t t' : TxConn} {k k' : Sent} {r : Bool} (h : s.fabEmit t k r = some (u, t', k')) : u.steady = s.steady := by
  unfold State.fabEmit at h; split at h
  · cases h
  · cases h; simp; rfl
@[simp] theorem fabPump_steady (c : ConnId) (n : Nat) : (State.fabPump c n s).steady = s.steady := by
  induction n generalizing s with
  | zero => rfl
  | succ n ih =>
    unfold State.fabPump; dsimp only; split
    · rfl
    · split
      · rfl
      · split
        · rfl
        · rename_i h; rw [ih]; exact (setTxConn_steady ..).trans (fabEmit_steady h)
@[simp] theorem resend_steady (c : ConnId) (k : Sent) (l : Bool) : (s.resend c k l).steady = s.steady := by
  unfold State.resend; dsimp only; split
  · rfl
  · rename_i h; simpa using fabEmit_steady h
@[simp] theorem resumeLinks_steady : s.resumeLinks.steady = s.steady := by
  unfold State.resumeLinks; split
  · rfl
  · refine foldl_keeps State.steady _ (fun t c => ?_) _ _
    rw [fabPump_steady]; exact foldl_keeps State.steady _ (fun t k => by simp) _ _
@[simp] theorem fabQueue_steady (c : ConnId) (l : List Sent) : (s.fabQueue c l).steady = s.steady := by
  unfold State.fabQueue; dsimp only; split
  · rfl
  · rw [fabPump_steady]; rfl
@[simp] theorem releaseOwed_steady : s.releaseOwed.steady = s.steady := by
  unfold State.releaseOwed; dsimp only
  refine foldl_keeps State.steady _ (fun t c => ?_) _ _
  split
  · rw [fabQueue_steady]; rfl
  · rfl
@[simp] theorem chargeFlash_steady (c p n : Nat) : (s.chargeFlash c p n).steady = s.steady := steady_of_beside (by simp [State.chargeFlash])
@[simp] theorem tallyFlash_steady : s.tallyFlash.steady = s.steady := by
  unfold State.tallyFlash; split
  · rfl
  · refine (foldl_keeps State.steady _ (fun t e => by simp) _ _).trans ?_
    rw [countBytes_steady]; rfl
@[simp] theorem failDown_steady : s.failDown.steady = s.steady := by
  unfold State.failDown
  refine foldl_keeps State.steady _ (fun t c => ?_) _ _
  refine (foldl_keeps State.steady _ (fun t r => ?_) _ _).trans rfl
  split
  · split <;> simp
  · rfl
@[simp] theorem settleHoles_steady : s.settleHoles.steady = s.steady := by
  unfold State.settleHoles
  refine foldl_keeps State.steady _ (fun t c => ?_) _ _
  dsimp only; split
  · split
    · rfl
    · rw [flagEvent_steady]; rfl
  · split
    · rfl
    · rw [flagEvent_steady]; rfl
  · rfl
@[simp] theorem notePn_steady : s.notePn.steady = s.steady := by
  unfold State.notePn
  refine foldl_keeps State.steady _ (fun t c => ?_) _ _
  refine (foldl_keeps State.steady _ (fun t r => by simp) _ _).trans rfl
@[simp] theorem trayPeaks_steady : s.trayPeaks.steady = s.steady := by
  unfold State.trayPeaks; exact foldl_keeps State.steady _ (fun t c => by simp) _ _
@[simp] theorem peaks_steady : s.peaks.steady = s.steady := by
  unfold State.peaks
  exact (foldl_keeps State.steady _ (fun t c => by simp) _ _).trans (by simp)

end Sys2Proof.Machine
end

