-- ==== Sys2Proof/Laws/Tab.lean ====
section
/-! SUPPORT. Laws of the sparse tables: what a key reads after a write, and that writes and filters keep the canonical form. -/

namespace Sys2Proof.Machine

variable {α : Type} [DecidableEq α] {d : α}

theorem tabAbove_mono {t : Tab α} {a b : Nat} (h : tabAbove d b t = true) (hab : a ≤ b) : tabAbove d a t = true := by
  cases t with
  | nil => rfl
  | cons e t =>
    simp only [tabAbove, Bool.and_eq_true, decide_eq_true_eq] at h ⊢
    exact ⟨⟨hab.trans h.1.1, h.1.2⟩, h.2⟩

/-- A key below every listed key reads the default. -/
theorem tabGet_below {t : Tab α} {b i : Nat} (h : tabAbove d b t = true) (hi : i < b) : tabGet d t i = d := by
  cases t with
  | nil => rfl
  | cons e t =>
    simp only [tabAbove, Bool.and_eq_true, decide_eq_true_eq] at h
    have hlt : i < e.1 := by omega
    simp [tabGet, hlt.ne, hlt]

/-- A write keeps every key at or above a bound that the key written meets. -/
theorem tabAbove_tabPut {t : Tab α} {b i : Nat} {v : α} (h : tabAbove d b t = true) (hb : b ≤ i) :
    tabAbove d b (tabPut d t i v) = true := by
  induction t generalizing b with
  | nil => by_cases hv : v = d <;> simp [tabPut, tabAbove, hv, hb]
  | cons e t ih =>
    obtain ⟨k, w⟩ := e
    simp only [tabAbove, Bool.and_eq_true, decide_eq_true_eq] at h
    obtain ⟨⟨hk, hw⟩, ht⟩ := h
    simp only [tabPut]
    split
    · next hik =>
      have hik' : i + 1 ≤ k := hik
      split <;> simp_all [tabAbove]
    · split
      · next hik =>
        subst hik
        split
        · exact tabAbove_mono ht (by omega)
        · simp_all [tabAbove]
      · next h1 h2 =>
        have hlt : k + 1 ≤ i := by omega
        simp [tabAbove, hk, hw, ih ht hlt]

theorem tabWf_tabPut {t : Tab α} {i : Nat} {v : α} (h : tabWf d t = true) : tabWf d (tabPut d t i v) = true :=
  tabAbove_tabPut h (Nat.zero_le i)

theorem tabAbove_filter {t : Tab α} {b : Nat} (f : Nat × α → Bool) (h : tabAbove d b t = true) :
    tabAbove d b (t.filter f) = true := by
  induction t generalizing b with
  | nil => rfl
  | cons e t ih =>
    simp only [tabAbove, Bool.and_eq_true, decide_eq_true_eq] at h
    obtain ⟨⟨hk, hw⟩, ht⟩ := h
    rw [List.filter_cons]
    split
    · simp [tabAbove, hk, hw, ih ht]
    · exact tabAbove_mono (ih ht) (by omega)

theorem tabWf_filter {t : Tab α} (f : Nat × α → Bool) (h : tabWf d t = true) : tabWf d (t.filter f) = true :=
  tabAbove_filter f h

/-- Reading after a write, in canonical form. -/
theorem tabGet_tabPut_of_above {t : Tab α} {b i j : Nat} {v : α} (h : tabAbove d b t = true) :
    tabGet d (tabPut d t i v) j = if j = i then v else tabGet d t j := by
  induction t generalizing b with
  | nil =>
    by_cases hv : v = d <;> by_cases hj : j = i <;> simp [tabPut, tabGet, hv, hj]
  | cons e t ih =>
    obtain ⟨k, w⟩ := e
    simp only [tabAbove, Bool.and_eq_true, decide_eq_true_eq] at h
    obtain ⟨⟨hk, hw⟩, ht⟩ := h
    simp only [tabPut]
    split
    · next hik =>
      by_cases hv : v = d
      · by_cases hj : j = i
        · subst hj; subst hv
          have := hik.ne
          simp [tabGet, hik, this]
        · simp [hv, hj]
      · by_cases hj : j = i
        · simp [hv, hj, tabGet]
        · by_cases hji : j < i
          · have h1 : j ≠ k := by omega
            have h2 : j < k := by omega
            simp [hv, hj, tabGet, hji, h1, h2]
          · simp [hv, hj, tabGet, hji]
    · split
      · next hik =>
        subst hik
        by_cases hv : v = d
        · by_cases hj : j = i
          · subst hj; subst hv
            simp [tabGet_below ht (Nat.lt_succ_self _)]
          · by_cases hji : j < i
            · simp [hv, hj, tabGet, hji, tabGet_below ht (show j < i + 1 by omega)]
            · simp [hv, hj, tabGet, hji]
        · by_cases hj : j = i <;> simp [hv, hj, tabGet]
      · next h1 h2 =>
        by_cases hj : j = k
        · subst hj
          have : j ≠ i := fun e => h2 e.symm
          simp [tabGet, this]
        · by_cases hjk : j < k
          · have : j ≠ i := by omega
            simp [tabGet, hj, hjk, this]
          · simp [tabGet, hj, hjk, ih ht]

theorem tabGet_tabPut {t : Tab α} {i j : Nat} {v : α} (h : tabWf d t = true) :
    tabGet d (tabPut d t i v) j = if j = i then v else tabGet d t j :=
  tabGet_tabPut_of_above h

/-- A key just written reads what was written. -/
theorem tabGet_tabPut_same {t : Tab α} {i : Nat} {v : α} (h : tabWf d t = true) : tabGet d (tabPut d t i v) i = v := by
  simp [tabGet_tabPut h]

/-- Every other key reads as before. -/
theorem tabGet_tabPut_other {t : Tab α} {i j : Nat} {v : α} (h : tabWf d t = true) (hj : j ≠ i) :
    tabGet d (tabPut d t i v) j = tabGet d t j := by
  simp [tabGet_tabPut h, hj]

/-- A key dropped by a filter reads the default, in canonical form; one kept reads as before. -/
theorem tabGet_filter {t : Tab α} {b i : Nat} (f : Nat → Bool) (h : tabAbove d b t = true) :
    tabGet d (t.filter (fun e => f e.1)) i = if f i then tabGet d t i else d := by
  induction t generalizing b with
  | nil => simp [tabGet]
  | cons e t ih =>
    obtain ⟨k, w⟩ := e
    simp only [tabAbove, Bool.and_eq_true, decide_eq_true_eq] at h
    obtain ⟨⟨hk, hw⟩, ht⟩ := h
    rw [List.filter_cons]
    by_cases hf : f k = true
    · simp only [hf, if_true]
      by_cases hik : i = k
      · subst hik; simp [tabGet, hf]
      · by_cases hlt : i < k
        · simp [tabGet, hik, hlt]
        · simp [tabGet, hik, hlt, ih ht]
    · simp only [hf]
      by_cases hik : i = k
      · subst hik
        simp [ih ht, hf]
      · by_cases hlt : i < k
        · rw [if_neg (by decide)] 
          simp [tabGet, hik, hlt, ih ht, tabGet_below ht (show i < k + 1 by omega)]
        · simp [tabGet, hik, hlt, ih ht]

end Sys2Proof.Machine
end

