-- ==== Sys2Proof/Laws/Memory.lean ====
section
/-! SUPPORT. Every operation over memory keeps its canonical form; reads of bytes just written, and of all others. -/

namespace Sys2Proof.Machine

/-- The canonical form carried through a fold. -/
theorem foldl_memWf {α : Type} (f : State → α → State) (h : ∀ s a, s.memWf = true → (f s a).memWf = true) (l : List α) (s : State)
    (hs : s.memWf = true) : (l.foldl f s).memWf = true := by
  induction l generalizing s with
  | nil => exact hs
  | cons a l ih => exact ih _ (h s a hs)

theorem reset_memWf : State.reset.memWf = true := rfl

variable {s t : State}

theorem memWf_of_mem (hm : t.mem = s.mem) (h : s.memWf = true) : t.memWf = true := by
  unfold State.memWf at *; rw [hm]; exact h

theorem putPhys_memWf (k : Nat) (b : Byte) (h : s.memWf = true) : (s.putPhys k b).memWf = true := tabWf_tabPut h

theorem putPhysList_memWf (k : Nat) (bs : List Byte) (h : s.memWf = true) : (s.putPhysList k bs).memWf = true := by
  induction bs generalizing s k with
  | nil => exact h
  | cons b bs ih => exact ih (k + 1) (putPhys_memWf k b h)

theorem zeroPhys_memWf (k n : Nat) (h : s.memWf = true) : (s.zeroPhys k n).memWf = true := tabWf_filter _ h

theorem undefPhys_memWf (k n : Nat) (h : s.memWf = true) : (s.undefPhys k n).memWf = true := putPhysList_memWf _ _ h

theorem markDirty_mem (g o : Nat) : (s.markDirty g o).mem = s.mem := by
  unfold State.markDirty; dsimp only; split <;> rfl

theorem writePiece_memWf (p : Nat) (d : Option Nat) (a : Nat) (bs : List Byte) (h : s.memWf = true) : (s.writePiece p d a bs).memWf = true := by
  unfold State.writePiece; dsimp only; split
  · exact memWf_of_mem (markDirty_mem _ _) h
  · have hk : ((s.writeKeys p d a).foldl (fun (t : State) k => t.putPhysList k bs) s).memWf = true :=
      foldl_memWf _ (fun t k ht => putPhysList_memWf k bs ht) _ _ h
    split <;> first | exact memWf_of_mem (markDirty_mem _ _) hk | exact hk
  · exact h

theorem writeFor_memWf {p : Nat} {d : Option Nat} {a : Nat} {bs : List Byte} (h : s.memWf = true) (hw : s.writeFor p d a bs = .ok t) :
    t.memWf = true := by
  unfold State.writeFor at hw; split at hw
  · cases hw
  · split at hw
    · cases hw
    · cases hw; exact foldl_memWf _ (fun t e ht => writePiece_memWf _ _ _ _ ht) _ _ h

theorem writeZ_memWf (p a : Nat) (bs : List Byte) (h : s.memWf = true) : (s.writeZ p a bs).memWf = true := by
  unfold State.writeZ; split
  · rename_i hw; exact writeFor_memWf h hw
  · exact h

theorem zeroRange_memWf (p a n : Nat) (h : s.memWf = true) : (s.zeroRange p a n).memWf = true := by
  unfold State.zeroRange
  exact foldl_memWf _ (fun t e ht => by split; exacts [zeroPhys_memWf _ _ ht, ht]) _ _ h

theorem undefRange_memWf (p a n : Nat) (h : s.memWf = true) : (s.undefRange p a n).memWf = true := by
  unfold State.undefRange
  exact foldl_memWf _ (fun t e ht => by split; exacts [writePiece_memWf _ _ _ _ ht, ht]) _ _ h

theorem copyPhys_memWf (a b n : Nat) (h : s.memWf = true) : (s.copyPhys a b n).memWf = true := by
  unfold State.copyPhys; dsimp only
  exact foldl_memWf _ (fun t e ht => putPhys_memWf _ _ ht) _ _ (zeroPhys_memWf _ _ h)

/-- A byte written reads back, and every other byte reads as before. -/
theorem putPhys_physByte (k j : Nat) (b : Byte) (h : s.memWf = true) :
    (s.putPhys k b).physByte j = if j = k then b else s.physByte j := tabGet_tabPut h

/-- Bytes written read back, and every other byte reads as before. -/
theorem putPhysList_physByte (k j : Nat) (bs : List Byte) (h : s.memWf = true) :
    (s.putPhysList k bs).physByte j = if k ≤ j ∧ j < k + bs.length then nth 0#8 bs (j - k) else s.physByte j := by
  induction bs generalizing s k with
  | nil => rw [if_neg (by simp)]; rfl
  | cons b bs ih =>
    have e : s.putPhysList k (b :: bs) = (s.putPhys k b).putPhysList (k + 1) bs := rfl
    rw [e, ih (k + 1) (putPhys_memWf k b h), putPhys_physByte k j b h]
    by_cases hj : j = k
    · subst hj; rw [if_neg (by omega), if_pos rfl, if_pos (by simp)]; simp [nth]
    · rw [if_neg hj]
      by_cases hin : k + 1 ≤ j ∧ j < k + 1 + bs.length
      · have : j - k = (j - (k + 1)) + 1 := by omega
        rw [if_pos hin, if_pos ⟨by omega, by simp; omega⟩, this]; simp [nth]
      · rw [if_neg hin, if_neg (by simp; omega)]

end Sys2Proof.Machine
end

