-- ==== Sys2Proof/Tests/Slice0.lean ====
section
/-! SUPPORT. The model's own tests: ill-formed commands refused, values the spec states, and for each obligation with hypotheses a
concrete state and operands that meet them. Expected values are worked out by hand from the rules named. -/

namespace Sys2Proof.Tests

open Sys2Proof Sys2Proof.Machine

-- Each test in turn: their kernel evaluations side by side would need many deep stacks at once.
set_option Elab.async false

/-! ### Small states -/

/-- A header with nothing but VERSION, LENGTH and a tag. -/
def tHdr (len : Nat) : CapHdr :=
  ⟨1#8, BitVec.ofNat 16 len, 0#16, 0#8, 0#8, 7#64, 0#64, 0#32, 0#32, 0#32, 0#32, 0#32, 0#32, 0#32, 0#32, 0#64⟩

/-- Fields of 2, 4 and 8 bytes put into a block. -/
def put2 (bs : List Byte) (e : Nat × Nat) : List Byte := patch bs e.1 (leBytes 2 e.2)
def put4 (bs : List Byte) (e : Nat × Nat) : List Byte := patch bs e.1 (leBytes 4 e.2)
def put8 (bs : List Byte) (e : Nat × Nat) : List Byte := patch bs e.1 (leBytes 8 e.2)

/-- A body of n bytes with 8-byte fields, then 4-byte fields, then bytes set. -/
def tBody (n : Nat) (eights fours ones : List (Nat × Nat)) : List Byte :=
  ones.foldl (fun b e => patch b e.1 (leBytes 1 e.2)) (fours.foldl put4 (eights.foldl put8 (List.replicate n 0#8)))

/-- A setup block: 16 commands in flight, queue pair 5, rings of 16, 8 MiB of resident share, 64 semaphores of die 0, every slot number
and communicators 0 to 15. -/
def tSetup : List Byte :=
  ([(0x04, 16), (0x06, 5), (0x08, 1), (0x0A, 5), (0xB0, 0), (0xB2, 64), (0xC0, 0), (0xC2, 16), (0xC4, 0), (0xC6, 16), (0xC8, 0), (0xCA, 16),
    (0xCC, 0), (0xCE, 16)] : List (Nat × Nat)).foldl put2
    (tBody 256 [(0x10, 0x1000), (0x18, 0x80000), (0x20, 0x90000), (0x28, 0x2000), (0x40, 0), (0x48, 0x800000)] [] [(0x0C, 4), (0x0D, 4)])

/-- An ACTIVE partition with that setup block. -/
def tPart : Part := { partFree with
  st := .active
  setup := tSetup
  windows := true }

/-- The device ready, with HBM trained. -/
def tOn : State := { State.reset with start := { Startup.atRelease with
  stage := 6
  hbmDone := true
  ready := true } }

/-- Partition 1 ACTIVE on it. -/
def tRun : State := tOn.setPart 1 tPart

/-- Queue pair 5 in RTS with a 1,024-byte path MTU, on sub-port 0 with its link up. -/
def tLive : State :=
  (tRun.setQp 5 { qpReset with ctx := patch (List.replicate 64 0#8) 0 [1#8, 0#8, 3#8] }).setSub 0 { subDown with up := true }

/-- A NOP of partition 1, waiting to issue. -/
def tNop : Cmd := newCmd ⟨0, 0⟩ 1 opNOP (tHdr 64) []

/-- The same command in a later phase. -/
def tIn (c : Cmd) (f : Phase) : Cmd := { c with phase := f }

/-- A state with these commands in flight. -/
def tWith (s : State) (cs : List Cmd) : State := { s with
  cmds := cs
  nextSeq := cs.length }

/-- The bytes at an address of the HBM zone. -/
def tMem (s : State) (a : Nat) (bs : List Byte) : State := s.putPhysList a bs

/-- A model record: 1 layer, BF16 keys, 1 head of 16, 64 positions, a batch of 1, one stage, forward list at 0x400000, context at 0x410000,
prefill list at 0x420000 and context at 0x430000, 16 tokens. -/
def tModel : List Byte :=
  tBody 256 [(0x10, 0x400000), (0x20, 0x410000), (0x40, 0x420000), (0x50, 0x430000)]
    [(0x08, 64), (0x18, 1), (0x1C, 16), (0x48, 1), (0x4C, 256)]
    [(0, 1), (2, 1), (4, 1), (6, 16), (0xC, 1), (0xE, 1), (0x28, 0xFF), (0x29, 0xFF), (0x2A, 0xFF), (0x2B, 0xFF)]

/-- Partition 1 serving that model: serving area at 0x500000, frames of 8 KiB, pool of 16 frames at 0x600000. -/
def tServe : State := tMem (tRun.setPart 1 { tPart with
  setup := put8 tSetup (0x30, 0x500000)
  srv := { servingOff with
    enabled := true
    config := [(oSRV_SRV_CFG, 8 * 65536), (oSRV_HBM_POOL_LO, 0x600000), (oSRV_HBM_FRAMES, 16)] } }) 0x500000 tModel

/-! ### Hypotheses of the statements met: acceptance, issue, commit -/

theorem test_CapsuleAccepted : capsuleRow (.nop 1 (tHdr 64) []) = some (1, 0, tHdr 64, []) ∧ hIsList (tHdr 64) = false ∧
    (tRun.part 1).st = .active ∧ tRun.listWaits 1 = false ∧ tRun.room 1 = true ∧
    tRun.checks 1 0 (tHdr 64) [] false false = none := by decide +kernel

theorem test_CapsuleWaits_free : capsuleRow (.nop 2 (tHdr 64) []) = some (2, 0, tHdr 64, []) ∧ (tRun.part 2).st ≠ .active ∧
    (tRun.part 2).st ≠ .resuming := by decide +kernel

/-- Partition 1 with a list of one record not yet accepted. -/
def tList : State := { tRun with lists := [⟨0, 1, 7, false, 0x3000, 0, 1⟩] }

theorem test_CapsuleWaits_list : tList.listWaits 1 = true := by decide +kernel

theorem test_CapsuleWaits_full : hIsList (tHdr 64) = false ∧
    (tRun.setPart 1 { tPart with setup := put2 tSetup (4, 0) }).room 1 = false := by decide +kernel

theorem test_CapsuleWaits_lists : hIsList { tHdr 64 with flags := 1#16 } = true ∧
    64 ≤ (({ tRun with lists := List.replicate 64 ⟨0, 1, 7, false, 0x3000, 1, 1⟩ } : State).listsOf 1).length := by decide +kernel

theorem test_CapsuleRejected : capsuleRow (.nop 1 (tHdr 65) []) = some (1, 0, tHdr 65, []) ∧
    tRun.checks 1 0 (tHdr 65) [] false false = some ⟨stBAD_HEADER, 0x02, 0, 0xFF, none⟩ := by decide +kernel

theorem test_ChecksReportFirst : ({ tHdr 64 with version := 2#8 } : CapHdr).version ≠ 1#8 ∧
    ((tHdr 65).version = 1#8 ∧ hIsList (tHdr 65) = false ∧ (tHdr 65).length.toNat ≠ 64 + ([] : List Byte).length) ∧
    headerBad 0x11 (tHdr 64) 0 none false = none ∧ hRnd (tHdr 64) < 2 := by decide +kernel

/-- A list capsule naming one record at 0x3000. -/
def tListBody : List Byte := tBody 16 [(0, 0x3000)] [(8, 1)] []

theorem test_ListCapsuleAccepted : (tRun.listsOf 1).length < 64 ∧
    tRun.listBad 1 0x00 { tHdr 80 with flags := 1#16 } tListBody = none := by decide +kernel

theorem test_SendCapsule_down : tRun.linked 0 = false ∧ (tRun.qp 5).subport = 0 := by decide +kernel

theorem test_SendCapsule_live : (tLive.qp 5).subport = 0 ∧ tLive.linked 0 = true ∧ tLive.qpLive 5 = some 1 ∧ (tLive.qp 5).order 0 = 0 ∧
    tLive.intakeFull 1 (List.replicate 64 0#8) = false ∧ tLive.intakeFull 1 (List.replicate 4096 0#8) = false ∧
    (tLive.setPart 1 { tPart with st := .suspended }).intakeFull 1 (List.replicate 64 0#8) = true ∧
    (tLive.setPart 1 { tPart with st := .suspended }).qpLive 5 = some 1 := by decide +kernel

/-- A 16-byte intake entry: address, LENGTH, byte 0x0F. -/
def tEntry (a n b : Nat) : List Byte := leBytes 8 a ++ leBytes 2 n ++ List.replicate 5 0#8 ++ leBytes 1 b

theorem test_IntakeEntry_hyps : tRun.takes 1 = true ∧ tRun.listWaits 1 = false ∧ tRun.room 1 = true ∧
    ((tMem tRun 0x1000 (tEntry 0x3000 64 0x80)).readBytes 1 0x1000 16).toOption = some (tEntry 0x3000 64 0x80) := by decide +kernel

theorem test_IntakeEntry_old : bit (fld (tEntry 0x3000 64 0x00) 0xF 1) 7 ≠ (tRun.part 1).intakePhase := by decide +kernel

theorem test_IntakeEntry_clauses : (bit (fld (tEntry 0x3000 64 0x80) 0xF 1) 7 = (tRun.part 1).intakePhase) ∧
    fld (tEntry 0x3000 64 0x81) 0xF 1 % 128 ≠ 0 ∧ fld (tEntry 0x3000 63 0x80) 8 2 < 64 ∧ 4096 < fld (tEntry 0x3000 4097 0x80) 8 2 ∧
    fld (tEntry 0x3001 64 0x80) 0 8 % 64 ≠ 0 ∧ tRun.inWindow 1 false 0x800000 64 = false ∧ tRun.inWindow 1 false 0x7FFFC0 64 = true := by
  decide +kernel

theorem test_IntakeEntry_capsule : fld (patch (List.replicate 64 0#8) 2 (leBytes 2 64)) 2 2 = 64 ∧
    hIsList (hdrOf (patch (List.replicate 64 0#8) 2 (leBytes 2 64))) = false := by decide +kernel

theorem test_ConsumeEntry : (tRun.part 1).intakeCount = 0 ∧ ({ tPart with intakeCount := 15 } : Part).intakeCount + 1 = 16 := by decide +kernel

/-- A list at 0x3000 whose record there is a capsule of 64 bytes. -/
def tListMem : State := tMem tList 0x3000 [1#8, 0#8, 64#8]

theorem test_ListRecord : (tRun.listsOf 1).find? (fun l => l.accepted < l.total) = none ∧
    (tListMem.listsOf 1).find? (fun l => l.accepted < l.total) = some ⟨0, 1, 7, false, 0x3000, 0, 1⟩ ∧
    tListMem.inWindow 1 false 0x3000 64 = true ∧
    (tListMem.readBytes 1 0x3000 64).toOption = some ([1#8, 0#8, 64#8] ++ List.replicate 61 0#8) ∧
    fld ([1#8, 0#8, 64#8] ++ List.replicate 61 0#8) 2 2 = 64 := by decide +kernel

theorem test_ListRecord_short : ((tMem tList 0x3000 [1#8, 0#8, 63#8]).readBytes 1 0x3000 64).toOption =
    some ([1#8, 0#8, 63#8] ++ List.replicate 61 0#8) := by decide +kernel

/-- A NOP waiting for semaphore 3 to reach 1 (GEQ). -/
def tWaits : Cmd := newCmd ⟨0, 0⟩ 1 opNOP { tHdr 64 with wait0 := 0x40010003#32 } []

theorem test_CommandIssue_clauses : tRun.cmd? ⟨0, 0⟩ = none ∧ (tWith tRun [tNop]).cmd? ⟨0, 0⟩ = some tNop ∧
    (tWith tRun [tNop]).canIssue tNop = true ∧ (tWith tRun [tNop]).earlierReady tNop = false ∧
    (tWith tRun [tNop]).stagingFor tNop ≠ none ∧ (tWith tRun [tNop]).energyCheck tNop = some false ∧
    (tWith tRun [tWaits]).canIssue tWaits = false ∧
    entKind 0x40010003 = 1 ∧ ((tRun.setSem 3 ⟨0, 0, false, false, true⟩).sem (entSem 0x40010003)).poison = true := by decide +kernel

theorem test_NopIssues : (tWith tRun [tNop]).cmd? ⟨0, 0⟩ = some tNop ∧ tNop.opcode = opNOP ∧ tNop.phase = .waiting ∧
    ((tWith tRun [tNop]).part tNop.part).st = .active ∧
    (∀ e ∈ hWaits tNop.hdr, entKind e ≠ 0 → ((tWith tRun [tNop]).sem (entSem e)).poison = false) ∧
    (tWith tRun [tNop]).waitsMet tNop = true ∧ (tWith tRun [tNop]).earlierReady tNop = false ∧ tNop.hdr.info = 0#64 := by decide +kernel

theorem test_CommandCommit_clauses : (tWith tRun [tIn tNop .issued]).workDone (tIn tNop .issued) = true ∧
    ((tWith tRun [tIn tNop .applying]).energyDies (tIn tNop .applying)).all (fun q => !((tRun.die q).inReset)) = true ∧
    (tWith tRun [tNop]).workDone tNop = false := by decide +kernel

/-- A NOP issued with QUIET and ADD 5 of semaphore 3. -/
def tSignals : Cmd := tIn (newCmd ⟨0, 0⟩ 1 opNOP { tHdr 64 with
  flags := 0x20#16
  signal0 := 0x40050003#32 } []) .issued

theorem test_NopCommits : (tWith tRun [tSignals]).cmd? ⟨0, 0⟩ = some tSignals ∧ hQuiet tSignals.hdr = true ∧
    (∀ x ∈ tSignals.ranges, x.lo = x.hi) ∧ tSignals.landing = [] ∧ tSignals.halo = [] ∧ tSignals.landSems = [] ∧ tSignals.fills = [] ∧
    tSignals.takes = [] ∧ tSignals.spoiled = [] ∧ tSignals.status = stOK ∧ (tWith tRun [tSignals]).unacked ⟨0, 0⟩ = false ∧
    (tRun.part 1).ring.waiting = [] ∧ (tRun.part 1).ring.heldFull = none ∧ entKind tSignals.hdr.signal0.toNat = 1 ∧
    entKind tSignals.hdr.signal1.toNat = 0 ∧ entN tSignals.hdr.signal0.toNat = 5 ∧ (tRun.sem 3).poison = false ∧
    (tRun.sem 3).value + 5 ≤ 0xFFFFFFFF := by decide +kernel

/-- A TABLE_SWITCH that drains. -/
def tDrain : Cmd := tIn (newCmd ⟨0, 0⟩ 1 opSWITCH (tHdr 96) []) .draining

theorem test_SwitchDrains : (tWith tRun [tDrain]).cmd? ⟨0, 0⟩ = some tDrain ∧ (tWith tRun [tDrain]).draining tDrain = false ∧
    (tWith tRun [{ tDrain with fetched := [8192] }, { tIn tNop .issued with ref := ⟨1, 0⟩ }]).draining { tDrain with fetched := [8192] } = true := by
  decide +kernel

/-- A ring with one completion waiting. -/
def tRing : State := tLive.setPart 1 { tPart with ring := ⟨0, 0, [⟨[List.replicate 32 0#8], some ⟨0, 0⟩⟩], none⟩ }

theorem test_RecordWrite : (tRun.part 1).st ≠ .free ∧ (tRun.part 1).changing = none ∧ (tRun.part 1).ring.heldFull = none ∧
    (tRun.part 1).ring.waiting = [] ∧ (tRing.part 1).ring.waiting = [⟨[List.replicate 32 0#8], some ⟨0, 0⟩⟩] ∧ tRing.complRts 1 = true ∧
    1 ≤ (tRing.part 1).ringFree := by decide +kernel

theorem test_Cancel : tRun.i3cAnswers (pgCMD 1) = true ∧ State.reset.i3cAnswers (pgCMD 1) = false ∧
    ((tWith tRun [tNop]).setField (pgCMD 1) oCMD_CANCEL_TAG_LO 31 0 7).field (pgCMD 1) oCMD_CANCEL_TAG_LO 31 0 = 7 ∧
    (tWith tRun [tNop]).cmds.filter (fun c => c.part = 1 && c.ref.sub = 0 && c.hdr.tag.toNat = 7) = [tNop] := by decide +kernel

/-- Bodies of commands that partition 1 may run on an empty device. -/
def bProduct : List Byte := tBody 104 [(0x10, 0x10000), (0x18, 0x20000), (0x20, 0x30000)] [(0, 1), (4, 1), (8, 1)] [(0xC, 2), (0xD, 2), (0xE, 0)]
def bAttend : List Byte :=
  tBody 96 [(0x10, 0x10000), (0x18, 0x20000), (0x20, 0x30000), (0x28, 0x40000), (0x48, 0x50000)] [(0x50, 1), (0x54, 1)]
    [(1, 2), (2, 2), (4, 1), (6, 1), (8, 16)]
def bCombine : List Byte :=
  tBody 96 [(0x10, 0x10000), (0x18, 0x20000), (0x20, 0x40), (0x28, 0x40000)] [(0x50, 1), (0x54, 1)] [(0, 1), (4, 2), (6, 1), (8, 16)]
def bGather : List Byte := tBody 40 [(8, 0x10000), (0x18, 0x30000)] [(4, 1)] []
def bScatter : List Byte := tBody 32 [(8, 0x10000), (0x10, 0x30000)] [(4, 1)] []
def bSearch : List Byte := tBody 48 [(0x10, 0x10000), (0x20, 0x30000)] [(8, 1)] [(2, 1), (4, 16)]
def bSelect : List Byte := tBody 40 [(0x10, 0x10000), (0x18, 0x30000)] [(4, 1), (8, 16), (0xC, 1)] []
def bTokenize : List Byte := tBody 40 [(8, 0x10000), (0x20, 0x30000)] [(0x10, 1)] [(2, 0xFF), (3, 0xFF), (4, 1)]
def bDetok : List Byte := tBody 40 [(8, 0x10000), (0x18, 0x30000)] [(4, 1)] [(2, 0xFF), (3, 0xFF)]
def bPack : List Byte := tBody 40 [(0, 0x10000), (8, 0x20000), (0x18, 0x30000)] [(0x14, 16)] []
def bCopy : List Byte := tBody 32 [(0, 0x10000), (8, 0x30000), (0x10, 64)] [] [(0x18, 0xFF), (0x19, 0xFF)]
def bMigrate : List Byte := tBody 24 [(8, 0x200000)] [] [(0x11, 0xFF)]
def bCollect : List Byte := tBody 40 [(8, 0x10000), (0x10, 0x30000), (0x18, 64)] [] []
def bSemop : List Byte := tBody 16 [] [(8, 1)] [(2, 0xFF), (3, 0xFF), (4, 3)]
def bSwitch : List Byte := tBody 16 [(8, 0x10000)] [(4, 1)] []
def bMerge : List Byte := tBody 24 [(8, 0x200000), (0x10, 0x1000)] [(4, 1)] []

/-- A body of partition 1 that no check of R147 turns away. -/
def tGood (s : State) (op : Nat) (b : List Byte) : Bool := s.checks 1 op (tHdr (64 + b.length)) b false false = none

theorem test_CapsuleAccepted_rows : tGood tRun opPRODUCT bProduct ∧ tGood tRun opATTEND bAttend ∧ tGood tRun opATTEND bCombine ∧ tGood tRun opGATHER bGather ∧
    tGood tRun opSCATTER bScatter ∧ tGood tRun opSEARCH bSearch ∧ tGood tRun opSELECT bSelect ∧ tGood tRun opTOKENIZE bTokenize ∧
    tGood tRun opDETOKENIZE bDetok ∧ tGood tRun opPACK bPack ∧ tGood tRun opCOPY bCopy ∧ tGood tRun opMIGRATE bMigrate ∧
    tGood tRun opCOLLECT bCollect ∧ tGood tRun opSEMOP bSemop ∧ tGood tRun opSWITCH bSwitch ∧ tGood tRun opMERGE bMerge := by decide +kernel

theorem test_CapsuleAccepted_steps : tGood tServe opSTEP (withAction 0 (tBody 16 [] [] [])) ∧
    tGood tServe opSTEP (withAction 1 (tBody 16 [(8, 0x10000)] [(4, 1)] [])) ∧
    tGood tServe opSTEP (withAction 2 (tBody 16 [(8, 0x10000)] [(4, 1)] [])) := by decide +kernel

/-- Partition 1 owns core 0 of die 0. -/
def tCore : State := tRun.setCore 0 { coreDefault 0 with owner := 1 }

/-- A PRODUCT waiting to issue, and one whose K splits and stages. -/
def tProd : Cmd := newCmd ⟨1, 0⟩ 1 opPRODUCT (tHdr 168) bProduct
def tSplit : Cmd := newCmd ⟨1, 0⟩ 1 opPRODUCT (tHdr 168) (put4 bProduct (8, 0x100000))

theorem test_CommandIssue_later : (tWith tRun [tNop, { tNop with ref := ⟨1, 0⟩ }]).earlierReady { tNop with ref := ⟨1, 0⟩ } = true ∧
    (tWith tCore [tSplit]).canIssue tSplit = true ∧ (tWith tCore [tSplit]).stagingFor tSplit = none := by decide +kernel

theorem test_CommandIssue_energy : (tWith tCore [tProd]).canIssue tProd = true ∧ (tWith tCore [tProd]).stagingFor tProd ≠ none ∧
    (tWith tCore [tProd]).energyCheck tProd = none := by decide +kernel

/-- Core 1 of die 0, of partition 2, lends its share while its command runs; the die's budget holds the PRODUCT but not the loan. -/
def tPool : State := ((tWith tCore [{ tProd with heldPeriods := 1 }, { tIn tProd .issued with
  ref := ⟨0, 0⟩
  part := 2 }]).setCore 1 { coreDefault 1 with
    owner := 2
    lent := 4 }).setDie 0 { dieDefault with budget := 129 / 2 }

theorem test_CommandIssue_borrows : (tPool.canIssue { tProd with heldPeriods := 1 } = true) ∧
    tPool.earlierReady { tProd with heldPeriods := 1 } = false ∧ tPool.energyCheck { tProd with heldPeriods := 1 } = some true := by decide +kernel

theorem test_CommandCommit_migrate : ((tWith tRun [tIn (newCmd ⟨0, 0⟩ 1 opMIGRATE (tHdr 88) (tBody 24 [(0, ddrBase), (8, 0x200000)] [] [])) .issued]).workDone
    (tIn (newCmd ⟨0, 0⟩ 1 opMIGRATE (tHdr 88) (tBody 24 [(0, ddrBase), (8, 0x200000)] [] [])) .issued)) = false := by decide +kernel

/-- A PRODUCT of 512 rows, issued, its first stripe taken, with a halo semaphore for the second. -/
def tStripes : Cmd := { tIn (newCmd ⟨0, 0⟩ 1 opPRODUCT (tHdr 168) (put4 (put4 bProduct (0, 512)) (4, 512))) .issued with halo := [(3, 1)] }

theorem test_HaloCopy : (tWith tCore [tStripes]).cmd? ⟨0, 0⟩ = some tStripes ∧ tStripes.phase = .issued ∧
    0 + 1 < nth 0 ((tWith tCore [tStripes]).tilingOf 1 opPRODUCT tStripes.hdr tStripes.body).units 0 ∧
    (∀ x ∈ tStripes.ranges, ¬ (x.lo ≤ 0 ∧ 0 < x.hi)) ∧ tStripes.halo.find? (fun h => h.2 = 1) = some (3, 1) ∧
    (tCore.sem 3).poison = false ∧ (tCore.sem 3).value = 0 ∧ 1 ≤ ((tCore.setSem 3 ⟨1, 0, false, false, false⟩).sem 3).value := by
  decide +kernel

/-- A command whose landing tile waits for semaphore 3, in the hands of all four griddles of core 0. -/
def tLand : Cmd := { tProd with
  phase := .issued
  landSems := [3] }
def tHand : Option UnitRef := some ⟨⟨1, 0⟩, 0, true, false⟩
def tWaiting : State := ((tWith tCore [tLand]).setCore 0 { coreDefault 0 with
  owner := 1
  hand := [tHand, tHand, tHand, tHand] }).setField (pgSEM 0) oSEM_LEND_TICKS 31 0 100

theorem test_TakeUnit_waits : (((tWaiting.core 0).hand[(0 : Nat)]?).join = tHand) ∧ tWaiting.unitWaits ⟨⟨1, 0⟩, 0, true, false⟩ = true := by
  decide +kernel

theorem test_TakeUnit_able : (tCore.core 0).st = .enabled ∧ (tCore.core 0).owner < 16 ∧ (0 : Nat) ∉ (tCore.core 0).stopped ∧
    (tCore.die 0).held = false ∧ (tCore.die 0).inReset = false ∧ ((tCore.core 0).hand[(0 : Nat)]?).join = none ∧
    0 < tCore.openGriddles 0 ∧ tCore.firstUnit 0 none (tCore.dealt 1) = none ∧
    (tCore.setCore 0 { coreDefault 0 with
      owner := 1
      lent := 4 }).openGriddles 0 ≤ 0 := by decide +kernel

/-- One unit of die 0 still queued. -/
def tQueued : Cmd := { tIn tProd .issued with ranges := [⟨0, 0, 1⟩] }

theorem test_TakeUnit_unit : ((tWith tCore [tQueued]).firstUnit 0 none ((tWith tCore [tQueued]).dealt 1)).isSome = true := by decide +kernel

theorem test_PassWatchdog : ((tCore.core 0).hand[(0 : Nat)]?).join = none ∧
    ((((tWith tCore [tQueued]).setCore 0 { coreDefault 0 with
      owner := 1
      hand := [some ⟨⟨1, 0⟩, 0, false, false⟩] }).core 0).hand[(0 : Nat)]?).join = some ⟨⟨1, 0⟩, 0, false, false⟩ ∧
    (tWith tCore [tQueued]).unitWaits ⟨⟨1, 0⟩, 0, false, false⟩ = false := by decide +kernel

theorem test_SemaphoreOperations : tRun.i3cAnswers (pgSEM 0) = true ∧ State.reset.i3cAnswers (pgSEM 0) = false ∧
    (tRun.die 0).inReset = false ∧ ((tRun.setDie 0 { dieDefault with inReset := true }).die 0).inReset = true ∧
    ((tRun.setSem 3 ⟨0xFFFFFFFF, 0, false, false, false⟩).sem 3).value + 0 ≤ 0xFFFFFFFF ∧
    0xFFFFFFFF < ((tRun.setSem 3 ⟨0xFFFFFFFF, 0, false, false, false⟩).sem 3).value + 1 ∧ 0 ≤ (tRun.sem 3).value ∧ (tRun.sem 3).value < 1 := by
  decide +kernel

theorem test_LendAndReport : tWaiting.coreWaiting 0 = true ∧ (tWaiting.core 0).lent = 0 ∧ tWaiting.field (pgSEM 0) oSEM_LEND_TICKS 31 0 ≠ 0 ∧
    tCore.coreWaiting 0 = false ∧ (tWaiting.core 0).reported = false ∧
    (tWaiting.setField (pgSEM 0) oSEM_REPORT_TICKS 31 0 100).field (pgSEM 0) oSEM_REPORT_TICKS 31 0 ≠ 0 ∧
    ((tWaiting.core 0).hand.filterMap id).head? = some ⟨⟨1, 0⟩, 0, true, false⟩ ∧ tWaiting.cmd? ⟨1, 0⟩ = some tLand := by decide +kernel

/-! ### Hypotheses met: registers, serving, partitions, pages, arbiters -/

theorem test_ShadowCommits : commitRow (.shadowCommit (pgPORT 1)) = some (pgPORT 1) ∧ pageOf (pgPORT 1) = some (.netp, 1) ∧
    tRun.i3cAnswers (pgPORT 1) = true ∧ (tRun.regWrite .mgmt (pgPORT 1) oNETP_PORT_CFG 1#32).pendingCm (pgPORT 1) ≠ [] ∧
    tRun.pendingCm (pgPORT 1) = [] := by decide +kernel

theorem test_ShadowCommits_mdl : commitRow (.textSlotCommit 0) = some (pgMDL 0) ∧ pageOf (pgMDL 0) = some (.mdl, 0) ∧
    (tRun.regWrite .mgmt (pgMDL 0) oMDL_SLOT_KIND 1#32).pendingCm (pgMDL 0) ≠ [] := by decide +kernel

theorem test_CounterClears : tRun.i3cAnswers (pgGRD 207) = true ∧ (tRun.die (207 / 52)).inReset = false ∧
    State.reset.i3cAnswers (pgGRD 207) = false ∧ pageOf (pgGRD 207) = some (.grd, 207) := by decide +kernel

theorem test_RegisterWrites : tRun.heard .mgmt (pgTRV) = true ∧ State.reset.heard .mgmt pgTRV = false ∧ pageOf 9 = none ∧
    pageOf pgSEC = some (.sec, 0) ∧ i3cOnly .sec oSEC_KEY_SEL = true ∧ 0x40 ≤ oSEC_KEY_SEL ∧ i3cOnly .trv 0x40 = false ∧ tRun.heard .i3c 0x57E = true := by
  decide +kernel

/-- The I3C target addressed, its pointer at the trivet's first block register. -/
def tI3c : State := { tOn with
  i3cAddr := some 8#7
  i3cPtr := regBase + pgTRV * 0x1000 + 0x40 }

theorem test_I3cTarget : State.reset.alive = true ∧ ({ State.reset with start := { Startup.atRelease with inReset := true } } : State).alive = false ∧
    State.reset.i3cAddr = none ∧ tI3c.alive = true ∧ tI3c.i3cAddr = some 8#7 ∧
    ([1#8] : List Byte).length < 8 ∧ (List.replicate 9 0#8).length - 8 = 1 ∧ 264 < (List.replicate 265 0#8).length ∧
    regSpan (fld (leBytes 8 0) 0 8) 1 = false ∧
    tOn.i3cAnswers ((fld (leBytes 8 (regBase + 0x40)) 0 8 - regBase) / 0x1000) = true ∧
    State.reset.i3cAnswers ((fld (leBytes 8 (regBase + 0x2040)) 0 8 - regBase) / 0x1000) = false := by decide +kernel

theorem test_I3cTarget_word : (leBytes 8 (regBase + 0x40)).length = 8 ∧ regSpan (leNat (leBytes 8 (regBase + 0x40))) 1 = true ∧
    tI3c.i3cAnswers ((leNat (leBytes 8 (regBase + 0x40)) - regBase) / 0x1000) = true ∧ regSpan tI3c.i3cPtr 1 = true ∧
    tI3c.i3cAnswers ((tI3c.i3cPtr - regBase) / 0x1000) = true ∧ regSpan tI3c.i3cPtr 65 = true ∧ regSpan 0 1 = false := by decide +kernel

/-- A step of model 0 in progress: an empty batch. -/
def tStepRun : StepRun := ⟨0, ⟨0, 0⟩, [], [], [], [], [], ⟨[], [], [], []⟩⟩
def tStep : Cmd := tIn (newCmd ⟨0, 0⟩ 1 opSTEP (tHdr 80) (tBody 16 [] [] [])) .issued
def tStepping (cs : List Cmd) : State := (tWith tServe cs).modSrv 1 (fun v => { v with steps := [tStepRun] })

theorem test_ServingProgress_boundary : (tServe.srv 1).steps.find? (fun t => t.model = 0) = none ∧
    ((tStepping [tStep]).srv 1).steps.find? (fun t => t.model = 0) = some tStepRun ∧ ((tStepping [tStep]).model? 1 0).isSome = true ∧
    (tStepping [tStep]).cmd? ⟨0, 0⟩ = some tStep ∧ (tStepping [tStep]).recordsLeft 0 = false ∧ tStepRun.batch = [] ∧
    (tStepping [tStep, { tNop with ref := ⟨0, 1⟩ }]).recordsLeft 0 = true := by decide +kernel

/-- A pass of request 5 in progress. -/
def tPassRun : PassRun := ⟨0, ⟨passSeq 1 0, 0⟩, ⟨5, 0, 64⟩, ⟨[], [], [], []⟩⟩
def tPassing (cs : List Cmd) : State := (tWith tServe cs).modSrv 1 (fun v => { v with passes := [tPassRun] })

theorem test_ServingProgress_commit : (tServe.srv 1).passes.find? (fun t => t.chunk.req = 5) = none ∧
    ((tPassing []).srv 1).passes.find? (fun t => t.chunk.req = 5) = some tPassRun ∧ (tPassing []).recordsLeft (passSeq 1 0) = false ∧
    (tPassing [{ tNop with ref := ⟨passSeq 1 0, 1⟩ }]).recordsLeft (passSeq 1 0) = true := by decide +kernel

theorem test_ServingSwitches : tRun.i3cAnswers (pgSRV 1) = true ∧ State.reset.i3cAnswers (pgSRV 1) = false ∧ (tRun.srv 1).enabled = false ∧
    tRun.servingBad 1 = true ∧
    (((tRun.setPart 1 { tPart with setup := put8 tSetup (0x30, 0x500000) }).setField (pgSRV 1) oSRV_SRV_CFG 31 0 (8 * 65536)).servingBad 1 = false) ∧
    (tServe.srv 1).enabled = true := by decide +kernel

theorem test_PartitionChanges : tRun.i3cAnswers (pgPRT 1) = true ∧ State.reset.i3cAnswers (pgPRT 1) = false ∧
    (∀ q ∈ partIds, (tRun.part q).changing = none) ∧ tRun.changeQueue = [] ∧ tRun.start.ready = true ∧ (tRun.part 1).st = .active ∧
    (tRun.part 2).st = .free ∧ (((tRun.setField (pgPRT 2) oPRT_PRT_CTRL 8 4 31).setField (pgPRT 2) oPRT_PRT_CTRL 2 1 1).field (pgPRT 2) oPRT_PRT_CTRL 8 4 = 31) := by
  decide +kernel

/-- Partition 1 in the middle of a change. -/
def tMid (f : PState) (n : Nat) : State := tRun.setPart 1 { tPart with
  st := f
  stage := n
  changing := some (31, 2) }

theorem test_PartitionChangesEnd : ((tMid .suspending 0).part 1).st = .suspending ∧ ((tMid .suspending 0).part 1).stage = 0 ∧
    ((tMid .suspending 1).part 1).stage = 1 ∧ (tMid .suspending 1).coresUnderTest ((tMid .suspending 1).coresOf 1) = false ∧
    (tMid .resuming 0).runWaiting ≠ some 1 ∧ ((tMid .resuming 0).preloadPages 1) = [] ∧ ((tMid .resuming 0).part 1).flsShare.2 = 0 ∧
    ((tMid .resuming 0).part 1).shared.1 = 0 := by decide +kernel

theorem test_PartitionChangesEnd_under_test : (({ tMid .suspending 1 with errors := { State.reset.errors with
      tests := [⟨.coreUnit 0, [], true, false, false⟩] } } : State).setCore 0 { coreDefault 0 with owner := 1 }).coresUnderTest [0] = true := by
  decide +kernel

/-- A page of the HBM zone on its way into partition 1's window, and one with an old frame. -/
def tMoving : State := tRun.setPage (ddrBase / pageBytes) { pageDefault with moves := [⟨0, 1, 9, [], false, [], none, false⟩] }

theorem test_PageMoves : pageZone 0 = .hbm ∧ (tRun.page 0).moves = [] ∧ tRun.stalls = [] ∧ (tRun.page 0).old = [] ∧
    ((tRun.setPage 0 { pageDefault with old := [(7, [])] }).page 0).old = [(7, [])] ∧ (tRun.part 1).fillQueue = [] ∧
    ((tMoving.page (ddrBase / pageBytes)).moves ≠ []) := by decide +kernel

/-- A page queued by the funnel, with no window frame and with one. -/
def tFunnel (w : Nat) : State := tRun.setPart 1 { tPart with
  fillQueue := [ddrBase / pageBytes]
  setup := put4 (put8 (put8 tSetup (0x60, ddrBase)) (0x68, 0x200000)) (0x50, w) }

theorem test_PageMoves_funnel : (((tFunnel 0).page (ddrBase / pageBytes)).own 1).isNone = true ∧
    ((tFunnel 0).startFill 1 (ddrBase / pageBytes) none []).2 = false := by decide +kernel

theorem test_PageMoves_funnel_frame : ((tFunnel 2).startFill 1 (ddrBase / pageBytes) none []).2 = true := by
  have hm : 9 ∈ (tFunnel 2).freeFrames := by
    unfold State.freeFrames
    rw [List.mem_filter, List.mem_range]
    decide +kernel
  have hp : 0 < (tFunnel 2).freeFrames.length := List.length_pos_of_mem hm
  have hu : (tFunnel 2).winUsed 1 < ((tFunnel 2).part 1).winFrames := by decide +kernel
  have ht : (tFunnel 2).takeFrame 1 none [] =
      (tFunnel 2, (tFunnel 2).freeFrames[(tFunnel 2).choose 1 (tFunnel 2).freeFrames.length]?) := by
    unfold State.takeFrame
    rw [if_pos hu]
    exact if_pos hu
  have hl : (tFunnel 2).choose 1 (tFunnel 2).freeFrames.length < (tFunnel 2).freeFrames.length := Nat.mod_lt _ hp
  unfold State.startFill
  rw [ht, List.getElem?_eq_getElem hl]

/-- A request of no partition at arbiter 0, and the arbiter with a grant of it in service. -/
def tReq : ArbReq := ⟨0, 0x181#12, 31, 64, false, none, none⟩
def tGrant (x : ArbPort) : State := tRun.setArb 0 { arbIdle with
  grant := some (3, ⟨tReq, 0, 0, false⟩)
  ports := [(3, x)]
  limit := 0x1000 }

theorem test_ArbiterGrants : arbPortValid 0 27 = true ∧ ((tRun.refill 0 10 (tRun.arb 0)).port 3).out = false ∧
    32 ≤ (((tGrant { arbPortIdle with queue := List.replicate 32 ⟨tReq, 0, 0, false⟩ }).refill 0 10
      ((tGrant { arbPortIdle with queue := List.replicate 32 ⟨tReq, 0, 0, false⟩ }).arb 0)).port 3).queue.length ∧
    0 < (((tGrant { arbPortIdle with backoff := 2 }).refill 0 10 ((tGrant { arbPortIdle with backoff := 2 }).arb 0)).port 3).backoff ∧
    (((tGrant { arbPortIdle with losses := 1 }).refill 0 10 ((tGrant { arbPortIdle with losses := 1 }).arb 0)).grant.isSome = true) := by decide +kernel

theorem test_ArbiterGrants_idle : (tRun.refill 0 10 (tRun.arb 0)).grant = none ∧ (tRun.refill 0 10 (tRun.arb 0)).pick = none ∧
    (tRun.candidates 0 { (tRun.refill 0 10 (tRun.arb 0)).setPort 3 { arbPortIdle with queue := [⟨tReq, 0, 0, false⟩] } with arrivals := 1 }).1 ≠ [] := by
  decide +kernel

theorem test_PortOutOfService : (tRun.arb 0).grant = none ∧ ((tGrant arbPortIdle).arb 0).grant = some (3, ⟨tReq, 0, 0, false⟩) ∧
    ((tGrant arbPortIdle).arb 0).limit = 0x1000 ∧
    (((tGrant { arbPortIdle with lastBite := some 0 }).arb 0).port 3).lastBite = some 0 ∧
    (({ tGrant { arbPortIdle with lastBite := some 0 } with strobes := 1024 } : State).strobes ≤ 0 + 1024) ∧
    ¬ (({ tGrant { arbPortIdle with lastBite := some 0 } with strobes := 1025 } : State).strobes ≤ 0 + 1024) ∧
    (((tGrant { arbPortIdle with out := true }).refill 0 10 ((tGrant { arbPortIdle with out := true }).arb 0)).port 3).out = true ∧
    tRun.i3cAnswers (pgARB 0) = true ∧ State.reset.i3cAnswers (pgARB 0) = false := by decide +kernel

/-- Partition 1 serving with all of its request table but entry 0 past the end of HBM: only entry 0 can be read. -/
def tBase : Nat := 196592 * pageBytes - 0x10080
def tServeEnd : State := tMem (tServe.setPart 1 { tServe.part 1 with setup := put8 tSetup (0x30, tBase) }) tBase tModel

theorem test_ServingSwitches_off : (tServeEnd.srv 1).enabled = true ∧ tServeEnd.cmds = [] ∧ (tServeEnd.srv 1).passes = [] ∧
    tServeEnd.liveRequests 1 = [] := by decide +kernel

/-- A PREFILL request with a prompt of 10 tokens in entry 0, and a forward list of one NOP. -/
def tAsk : Request :=
  requestOf (tBody 128 [(0, 9), (0x40, 0x440000), (0x48, 0x450000), (0x50, 0x460000)] [(0xC, 10), (0x18, 4)]
    [(8, 2), (0x68, 0xFF), (0x69, 0xFF), (0x6A, 0xFF), (0x6B, 0xFF)])
def tPrefill : State := tMem (tServeEnd.setRequest 1 0 tAsk) 0x420000 ([1#8, 0#8] ++ leBytes 2 64)
def tPages : State × Option Taken := tPrefill.pagesFor 1 0 0 (modelOf tModel) tAsk 0 9
def tPassAt : State := tPages.1.modSrv 1 (fun x => { x with
  passes := x.passes ++ [⟨0, ⟨passSeq 1 0, 0⟩, ⟨0, 0, 9⟩, ⟨[], [], [], []⟩⟩]
  filling := [(0, 0)] })

theorem test_ServingProgress_start : (tPrefill.srv 1).enabled = true ∧ (tPrefill.part 1).st = .active ∧ tPrefill.chunkLen 1 = 0 ∧
    tPrefill.request 1 0 = tAsk ∧ tAsk.st = rqPREFILL ∧ tAsk.length + 1 < tAsk.prompt ∧ (tPrefill.srv 1).passes = [] ∧
    tPrefill.model? 1 0 = some (modelOf tModel) ∧ tPrefill.passTurn 1 0 = some 0 ∧
    tPrefill.nextChunk 1 0 (modelOf tModel) tAsk = ⟨0, 0, 9⟩ ∧ tPages.2 = some ⟨[], [], [], []⟩ := by decide +kernel

theorem test_ServingProgress_spawn : ((tPassAt.writeContext 1 ((modelOf tModel).layout 0x430000 256)
    (tPassAt.chunkTokens 1 tAsk ⟨0, 0, 9⟩ ⟨passSeq 1 0, 0⟩) (List.range' 0 9) [ctxEntry tAsk 9 0]).spawn 1 (passSeq 1 0) 0x420000 1).toOption.isSome
      = true := by decide +kernel

/-- A live handle 0 would be found by its number: none is on an empty table. -/
theorem test_ServingSwitches_handle : tRun.findHandle 1 0 = none ∧ (tRun.srv 1).enabled = false := by decide +kernel

theorem test_ServingSwitches_found : (tServe.setHandle 1 ((tServe.probes 1 0).headD 0) ⟨0, 1, 64, 0x440000, 0, 1⟩).findHandle 1 0 =
    some ((tServe.probes 1 0).headD 0) := by decide +kernel

/-! ### Hypotheses met: flash -/

/-- A small flash die: n blocks, two planes. -/
def tDie (n : Nat) : FlashDie := ⟨true, 1, 2, 128, 32, n, 3000, []⟩

/-- A flash tier of one die on channel 0 with these blocks, map ready. -/
def tFlash (n : Nat) (bs : Tab Blk) : State := { tRun with flash := { Flash.empty with
  chans := [(0, { chanEmpty with dies := [tDie n] })]
  blocks := bs
  mapState := 3 } }

/-- A data unit, a closed block of one unit, an open one, and an open parity block of band 1. -/
def tUnit : FUnit := ⟨5, 0, 1, [], false⟩
def tClosed : Blk := { blkFree with
  st := .closed
  band := 1
  units := [tUnit] }
def tOpen : Blk := { tClosed with st := .open }
def tParity : Blk := { blkFree with
  st := .open
  mode := 3
  band := 1 }
def tBuffer (n : Nat) : State := (tFlash 40 [(0, { tOpen with band := 2 })]).setChan 0 { chanEmpty with
  dies := [tDie 40]
  buffer := List.replicate n tUnit }

theorem test_FlashWrites : (0 : Nat) ∈ (tBuffer 24).liveDies 0 ∧ (tBuffer 24).lineFull 0 0 = true ∧ (tBuffer 1).lineFull 0 0 = false ∧
    ((tBuffer 1).chan 0).buffer ≠ [] ∧ ((tBuffer 0).chan 0).buffer = [] ∧ (1 : Nat) ∉ (tBuffer 1).liveDies 0 := by decide +kernel

theorem test_FlashWrites_page : tRun.i3cAnswers pgFLS = true ∧ State.reset.i3cAnswers pgFLS = false ∧ (tRun.chan 0).dies = [] ∧
    (∀ p ∈ partIds, (tRun.part p).nonFree = true → (tRun.part p).flsShare.2 = 0) ∧ ((tFlash 40 []).chan 0).dies ≠ [] := by decide +kernel

/-- What a drain of empty buffers leaves is the state itself. -/
theorem test_FlashWrites_shutdown : (({ tFlash 40 [] with flash := { (tFlash 40 []).flash with formatted := true } } : State).flash.formatted = true) ∧
    (List.range 32).all (fun ch => ((tFlash 40 []).chan ch).buffer = []) = true ∧ (tFlash 40 []).flash.formatted = false := by decide +kernel

theorem test_BlocksAreLeft : tRun.flash.mapState ≠ 3 ∧ (tFlash 1 [(0, tClosed)]).flash.mapState = 3 ∧
    50 * ((tFlash 1 [(0, tClosed)]).freeBlocks 0).length < ((tFlash 1 [(0, tClosed)]).goodBlocks 0).length ∧
    (tFlash 1 [(0, tClosed)]).bestBlock 0 (fun _ b => b.st = .closed && b.mode = 0 && b.leaving = 0)
      (fun x y => (tFlash 1 [(0, tClosed)]).liveCount x.1 < (tFlash 1 [(0, tClosed)]).liveCount y.1 ||
        ((tFlash 1 [(0, tClosed)]).liveCount x.1 = (tFlash 1 [(0, tClosed)]).liveCount y.1 && x.2.erases < y.2.erases)) = some 0 ∧
    ((tFlash 1 []).goodBlocks 0).length ≤ 50 * ((tFlash 1 []).freeBlocks 0).length := by decide +kernel

/-- Two blocks whose erase counts differ by 5,000. -/
def tWorn : State := tFlash 2 [(0, tClosed), (1, { tOpen with erases := 5000 })]

theorem test_BlocksAreLeft_wear : (tWorn.goodBlocks 0).map (fun k => (tWorn.blk k).erases) = [0, 5000] ∧
    0 + max 16 (tWorn.field pgFLS oFLS_WL_CFG 11 0) < 5000 ∧ (∀ e ∈ tWorn.flash.blocks, keyCh e.1 = 0 → e.2.leaving ≠ 2) ∧
    tWorn.bestBlock 0 (fun _ b => b.st = .closed && b.data && b.leaving = 0 && b.erases = 0) (fun _ _ => false) = some 0 := by decide +kernel

theorem test_BlocksAreLeft_fold : tWorn.slcTarget ≤ tWorn.slcHeld * 4096 ∧
    (tFlash 1 [(0, { tClosed with mode := 1 })]).bestBlock 0 (fun _ b => b.st = .closed && b.mode = 1 && b.leaving = 0) (fun _ _ => false) = some 0 ∧
    (tFlash 1 [(0, { tClosed with refresh := true })]).bestBlock 0 (fun _ b => b.st = .closed && b.refresh && b.leaving = 0) (fun _ _ => false) = some 0 ∧
    tWorn.bestBlock 0 (fun _ b => b.st = .closed && b.refresh && b.leaving = 0) (fun _ _ => false) = none := by decide +kernel

/-- A tier of 1,000 pages holds no SLC unit yet. -/
theorem test_BlocksAreLeft_target : ({ tWorn with flash := { tWorn.flash with goodRaw := 1000 } } : State).slcHeld * 4096 <
    ({ tWorn with flash := { tWorn.flash with goodRaw := 1000 } } : State).slcTarget := by decide +kernel

theorem test_BlocksChange : (tFlash 1 [(0, { tClosed with leaving := 1 })]).erasable (blkKey ⟨0, 0, 0⟩) = true ∧
    (tFlash 1 [(0, tClosed)]).erasable (blkKey ⟨0, 0, 0⟩) = false ∧ ((tFlash 1 [(0, tClosed)]).blk 0).st ≠ .open ∧
    ((tFlash 1 [(0, tOpen)]).blk 0).st = .open ∧ (((tFlash 1 [(0, tOpen)]).blk 0).data && (tFlash 1 [(0, tOpen)]).parityStands 0 1) = false ∧
    (((tFlash 2 [(0, tOpen), (1, tParity)]).blk 0).data && (tFlash 2 [(0, tOpen), (1, tParity)]).parityStands 0 1) = true := by decide +kernel

/-- A trim record on its way out of block 0. -/
def tReloc : Reloc := ⟨{ tUnit with kind := 1 }, 0, 0⟩
def tMove : State := (tFlash 40 [(0, tClosed), (1, tOpen)]).setChan 0 { chanEmpty with
  dies := [tDie 40]
  relocs := [tReloc] }

theorem test_BlocksChange_relocation : (tMove.chan 0).relocs.find? (fun r => r.unit.lua = 5) = some tReloc ∧
    (tMove.chan 0).relocs.find? (fun r => r.unit.lua = 6) = none ∧
    (tMove.liveDies 0).filter (fun d => (tMove.openBlock 0 d true).isSome) = [0] ∧ (tMove.openBlock 0 0 true).isSome = true ∧
    tReloc.unit.kind = 1 := by decide +kernel

/-- Of one die, the free choice takes that die. -/
theorem test_BlocksChange_die : ((tMove.liveDies 0).filter (fun d => (tMove.openBlock 0 d true).isSome))[tMove.choose 1
    ((tMove.liveDies 0).filter (fun d => (tMove.openBlock 0 d true).isSome)).length]? = some 0 := by
  have h : (tMove.liveDies 0).filter (fun d => (tMove.openBlock 0 d true).isSome) = [0] := by decide +kernel
  have hc : tMove.choose 1 1 = 0 := Nat.mod_one _
  rw [h]
  show [0][tMove.choose 1 1]? = some 0
  rw [hc]
  rfl

/-- A closed data block of band 1 with its parity still open. -/
def tBand : State := tFlash 2 [(0, tClosed), (1, tParity)]

theorem test_BlocksChange_verify : (tBand.flash.blocks.filter (fun e => keyCh e.1 = 0 && e.2.data && e.2.band = 1 && e.2.st ≠ .free)).map (·.1) = [0] ∧
    (tBand.blk 0).st ≠ .open ∧ tBand.parityStands 0 1 = true ∧ (tFlash 1 [(0, tClosed)]).parityStands 0 1 = false := by decide +kernel

theorem test_BlocksChange_patrol : tBand.flash.mapState = 3 ∧ tBand.flash.patrolPos < tBand.patrolTotal ∧
    patrolAt tBand.patrolPages tBand.flash.patrolPos = some 0 ∧ (tBand.flash.patrolDone + 1) % 100 ≠ 0 ∧
    tabFind tBand.flash.map 5 = none ∧
    (({ tBand with flash := { tBand.flash with map := [(5, (0, 0))] } } : State).blk 0).st = .closed ∧ (1 : Nat) ∉ tBand.liveDies 0 ∧
    (0 : Nat) ∈ (tFlash 40 []).liveDies 0 ∧ (tFlash 40 []).flash.blocks = [] := by decide +kernel

/-! ### Hypotheses met: networks -/

theorem test_Links : (tRun.sub 0).up = false ∧ tRun.alive = true ∧ tRun.start.halted = false ∧ 2 ≤ tRun.start.stage ∧
    0 % 4 < modeSubs (tRun.portMode 0) ∧ (tRun.rail 9).down = false ∧ 1 ∉ tRun.start.clocksLost ∧ (tRun.goodLanes 0).isSome = true ∧
    ({ tRun with net := { tRun.net with lanesBad := [(0, [0, 1, 2, 3])] } } : State).goodLanes 0 = none ∧ (tLive.sub 0).up = true := by decide +kernel

theorem test_Links_addresses : tLive.linked 0 = true ∧ tRun.linked 0 = false ∧ tLive.ownV4 0 0x0A000001 = false ∧
    ((tLive.setBankField pgFRONT oNETF_ADDR_SEL 0 31 31 1).setBankField pgFRONT oNETF_ADDR_W3 0 31 0 0x0A000001).ownV4 0 0x0A000001 = true ∧ tLive.solicited 0 1 = false := by decide +kernel

theorem test_Links_pfc : (0 : Nat) < 4 ∧ tRun.alive = true ∧
    ((tRun.setField (pgPORT 0) oNETP_PORT_CFG 3 3 1).field (pgPORT 0) oNETP_PORT_CFG 3 3 = 1) ∧
    ((tRun.setField (pgPORT 0) oNETP_PORT_CFG 6 4 7).field (pgPORT 0) oNETP_PORT_CFG 6 4 = 7) := by decide +kernel

/-- The frame counted, as an RDMA request on queue pair 5 counts it. -/
def tGot : State := (tLive.rxFrame 0 false).count (pgPORT 0) oNETP_RX_FRAMES 0

theorem test_RdmaRequests : tRun.linked (tRun.qp 5).subport = false ∧ tRun.flashWaits 0x3000 = false ∧ tLive.linked (tLive.qp 5).subport = true ∧
    tLive.qpLive 5 = some 1 ∧ (tLive.setQp 5 { tLive.qp 5 with ctx := [] }).qpLive 5 = none ∧
    (tLive.setQp 5 { tLive.qp 5 with ctx := [] }).linked 0 = true ∧ (tLive.qp 5).order 0 = 0 ∧ fldBe (tLive.qp 5).ctx 0x10 4 = 0 ∧
    tGot.rdmaWindow 1 true 0x800000 4 = false ∧ tGot.rdmaWindow 1 false 0x7FFFFD 4 = false ∧ tGot.rdmaWindow 1 true 0x7FFFFC 4 = true ∧
    (tGot.writeFor 1 none 0x3000 [1#8, 2#8]).isOk = true ∧ (tGot.readBytes 1 0x3000 4).toOption = some [0#8, 0#8, 0#8, 0#8] := by decide +kernel

/-- Queue pair 5 with one message not acknowledged, and RNR and ACK retries allowed. -/
def tSent (rnr retry : Nat) : State := tLive.setQp 5 { tLive.qp 5 with
  ctx := patch (patch (tLive.qp 5).ctx 0x15 (beBytes 1 retry)) 0x16 (beBytes 1 rnr)
  unacked := [(3, 0x90000, [1#8])] }

theorem test_RequesterAnswers : (tSent 0 0).linked ((tSent 0 0).qp 5).subport = true ∧ (tSent 0 0).qpLive 5 = some 1 ∧
    ((((tSent 0 0).rxFrame 0 false).qpAcked 5 2).qp 5).unacked ≠ [] ∧ ((((tSent 0 0).rxFrame 0 false).qpAcked 5 3).qp 5).unacked = [] ∧
    (fldBe ((((tSent 0 0).rxFrame 0 false).qpAcked 5 2).qp 5).ctx 0x16 1 = 0) ∧
    (fldBe ((((tSent 7 0).rxFrame 0 false).qpAcked 5 2).qp 5).ctx 0x16 1 = 7) ∧
    fldBe ((tSent 0 0).qp 5).ctx 0x15 1 ≤ ((tSent 0 0).qp 5).retries ∧ ((tSent 0 1).qp 5).retries < fldBe ((tSent 0 1).qp 5).ctx 0x15 1 := by decide +kernel

theorem test_RequesterAnswers_stray : tRun.linked 0 = false ∧ tLive.linked 0 = true ∧ tLive.subMtu 0 < 9217 := by decide +kernel

/-- CNP_RECEIVED's queue pair is live and no partition's COMPL_QP: queue pair 6 of partition 1. -/
def tSpare : State := (tLive.setPart 1 { tPart with setup := put2 tSetup (8, 2) }).setQp 6 (tLive.qp 5)

theorem test_RequesterAnswers_cnp : tSpare.qpLive 6 = some 1 ∧
    (∀ q ∈ partIds, ¬ ((tSpare.part q).nonFree = true ∧ (tSpare.part q).complQp = 6)) := by decide +kernel

/-! ### Hypotheses met: start-up -/

open Sys2Proof.Laws

/-- A bundle of one empty component, SVN 1, and a signature of zeros under the key to which that signature leads (R500, R501). -/
def tZeros (n : Nat) : List Byte := List.replicate n 0#8
def tHead : List Byte := patch
  (tBody 0x410 [] [(0, 0x59424E44), (8, 1), (0x0C, 2572)] [(4, 1), (6, 1), (0x18, 1)]) 0x210 (sha256 [])
def tOts : List Byte := beBytes 4 3 ++ tZeros 2176
def tTail : List Byte := tZeros 4 ++ (tOts ++ beBytes 4 6) ++ tZeros 320
def tCand : List Byte := (lmotsCandidate (tZeros 16) 0 tOts tHead).getD []
def tRoot : List Byte := lmsRoot (tZeros 16) (tZeros 320) 10 0 1024 (sha256 (tZeros 16 ++ beBytes 4 1024 ++ beBytes 2 0x8282 ++ tCand))
def tPubOf (r : List Byte) : List Byte := beBytes 4 6 ++ beBytes 4 3 ++ tZeros 16 ++ r
def tSigOf (r : List Byte) : List Byte := beBytes 4 1 ++ tPubOf r ++ (tZeros 4 ++ tTail)
def tSlot : List Byte := tHead ++ tSigOf tRoot
def tOtp (h : List Byte) : State := { State.reset with sec := { State.reset.sec with rootHash := h } }
def tBoot : State := tOtp (sha256 (beBytes 4 1 ++ tPubOf tRoot))

theorem tRoot_length : tRoot.length = 32 := lmsRoot_length _ _ _ _ _ _ (sha256_length _)
theorem tHead_length : tHead.length = 0x410 := by decide +kernel
theorem tTail_length : tTail.length = 2508 := by decide +kernel

theorem test_lmsVerify : lmsVerify (tPubOf tRoot) tTail tHead = true := by
  have hp : ∀ r, fldBe (tPubOf r) 0 4 = 6 ∧ fldBe (tPubOf r) 4 4 = 3 ∧ ((tPubOf r).drop 8).take 16 = tZeros 16 ∧ (tPubOf r).drop 24 = r := by
    intro r
    exact ⟨rfl, rfl, rfl, rfl⟩
  have ht : lmsSigLen tTail = some 2508 ∧ fldBe tTail 4 4 = 3 ∧ fldBe tTail 0 4 = 0 ∧ (tTail.drop 4).take (36 + 32 * 67) = tOts ∧
      fldBe tTail (40 + 32 * 67) 4 = 6 ∧ tTail.drop (44 + 32 * 67) = tZeros 320 := by decide +kernel
  have hk : ∀ m, lmotsCandidate (tZeros 16) 0 tOts m = some ((lmotsCandidate (tZeros 16) 0 tOts m).getD []) := by
    intro m
    have h3 : lmotsParams (fldBe tOts 0 4) = some (4, 67, 4) := by decide +kernel
    unfold lmotsCandidate
    rw [h3]
    rfl
  obtain ⟨h1, h2, h3, h4⟩ := hp tRoot
  obtain ⟨t1, t2, t3, t4, t5, t6⟩ := ht
  have e1 : lmsHeight 6 = some 10 := rfl
  have e2 : lmotsParams 3 = some (4, 67, 4) := rfl
  unfold lmsVerify
  rw [h1, t2, t1, e1, e2]
  simp only [h2, h3, h4, t3, t4, t5, t6, tTail_length]
  rw [hk tHead, List.take_of_length_le (Nat.le_of_eq tRoot_length)]
  simp only [tRoot, tCand, Nat.add_zero]
  simp only [show (2 : Nat) ^ 10 = 1024 from rfl, decide_true, Bool.and_true, Nat.le_refl, Nat.zero_lt_succ]

/-- A device whose OTP holds the hash of that key, and an SVN floor of at most 1, accepts the bundle. -/
theorem test_slotAccepted (s : State) (hr : s.sec.rootHash = sha256 (beBytes 4 1 ++ tPubOf tRoot)) (hv : s.sec.svnFloor ≤ 1) :
    s.slotFail (some tSlot) = 0 := by
  have hc : fld tHead 0x00C 4 = 2572 := by decide +kernel
  have htake : tSlot.take 0x410 = tHead := by rw [tSlot, ← tHead_length]; exact List.take_left
  have hdrop : tSlot.drop 0x410 = tSigOf tRoot := by rw [tSlot, ← tHead_length]; exact List.drop_left
  have hlen : tSlot.length = 0xE1C := by
    simp only [tSlot, tSigOf, tPubOf, tZeros, List.length_append, tHead_length, tTail_length, tRoot_length, beBytes_length, List.length_replicate]
  have hsig : (tSigOf tRoot).take 2572 = tSigOf tRoot := List.take_of_length_le (by
    have := hlen
    rw [tSlot, List.length_append, tHead_length] at this
    omega)
  have hf : ∀ o n, o + n ≤ 0x410 → fld tSlot o n = fld tHead o n := by
    intro o n h
    have : (tSlot.drop o).take n = (tHead.drop o).take n := by
      rw [tSlot, List.drop_append_of_le_length (by rw [tHead_length]; omega), List.take_append_of_le_length (by rw [List.length_drop, tHead_length]; omega)]
    simp only [fld, this]
  have hkey : (tSigOf tRoot).take 60 = beBytes 4 1 ++ tPubOf tRoot :=
    List.take_left' (by simp only [tPubOf, tZeros, List.length_append, tRoot_length, beBytes_length, List.length_replicate])
  have hrest : (tSigOf tRoot).drop 64 = tTail := by
    have e : tSigOf tRoot = (beBytes 4 1 ++ tPubOf tRoot ++ tZeros 4) ++ tTail := (List.append_assoc ..).symm
    rw [e]
    exact List.drop_left' (by simp only [tPubOf, tZeros, List.length_append, tRoot_length, beBytes_length, List.length_replicate])
  have hpub : ((tSigOf tRoot).drop 4).take 56 = tPubOf tRoot := by
    have e : (tSigOf tRoot).drop 4 = tPubOf tRoot ++ (tZeros 4 ++ tTail) := by
      rw [tSigOf, List.append_assoc]
      exact List.drop_left' (by simp only [beBytes_length])
    rw [e]
    exact List.take_left' (by simp only [tPubOf, tZeros, List.length_append, tRoot_length, beBytes_length, List.length_replicate])
  have hl : fldBe (tSigOf tRoot) 0 4 = 1 := rfl
  have hn : fldBe (tSigOf tRoot) 60 4 = 0 := by
    have e : tSigOf tRoot = (beBytes 4 1 ++ tPubOf tRoot) ++ (tZeros 4 ++ tTail) := rfl
    have e2 : (tSigOf tRoot).drop 60 = tZeros 4 ++ tTail := by
      rw [e]
      exact List.drop_left' (by simp only [tPubOf, tZeros, List.length_append, tRoot_length, beBytes_length, List.length_replicate])
    unfold fldBe
    rw [e2]
    rfl
  have hhead : headerOk tSlot = true := by
    have h : headerOk tHead = true := by decide +kernel
    unfold headerOk at h ⊢
    unfold compKind compOff compLen at h ⊢
    simp only [hlen, tHead_length] at h ⊢
    rw [hf 0 4 (by omega), hf 4 2 (by omega), hf 6 2 (by omega), hf 0xC 4 (by omega)]
    have h6 : fld tHead 6 2 = 1 := by decide +kernel
    have h0 : fld tHead 0x14 4 = 0 := by decide +kernel
    rw [h6] at h ⊢
    simp only [List.range_succ, List.range_zero, List.nil_append, List.all_cons, List.all_nil, Nat.mul_zero, Nat.add_zero] at h ⊢
    rw [hf 0x18 1 (by omega), hf 0x10 4 (by omega), hf 0x14 4 (by omega)]
    exact h
  have hdig : ((tSlot.drop 0x210).take 32) = sha256 [] := by
    have h : ((tHead.drop 0x210).take 32) = sha256 [] := by decide +kernel
    rw [tSlot, List.drop_append_of_le_length (by rw [tHead_length]; omega), List.take_append_of_le_length (by rw [List.length_drop, tHead_length]; omega), h]
  have h6 : fld tSlot 6 2 = 1 := by rw [hf 6 2 (by omega)]; decide +kernel
  have h8 : fld tSlot 8 4 = 1 := by rw [hf 8 4 (by omega)]; decide +kernel
  have hC : fld tSlot 0x00C 4 = 2572 := by rw [hf 0xC 4 (by omega), hc]
  have h0 : compLen tSlot 0 = 0 := by
    unfold compLen
    rw [hf _ 4 (by omega)]
    decide +kernel
  have hty : lmsTypesOk (tPubOf tRoot) = true := by
    have a : fldBe (tPubOf tRoot) 0 4 = 6 := rfl
    have b : fldBe (tPubOf tRoot) 4 4 = 3 := rfl
    unfold lmsTypesOk
    rw [a, b]
    rfl
  have hcomp : (List.range 1).all (fun i => decide (sha256 ((tSlot.drop (compOff tSlot i)).take (compLen tSlot i)) = compDigest tSlot i)) = true := by
    refine List.all_eq_true.mpr (fun i hi => ?_)
    obtain rfl : i = 0 := by have := List.mem_range.mp hi; omega
    rw [h0, List.take_zero]
    exact decide_eq_true hdig.symm
  have hh : hssVerify 0 (tPubOf tRoot) tTail tHead = true := test_lmsVerify
  have ht : (lmsSigLen tTail).getD 0 = 2508 := by decide +kernel
  unfold State.slotFail
  simp only [hhead, hdrop, hC, hsig, hkey, hr, hl, hpub, hty, hn, hrest, ht, tTail_length, htake, hh, h8, h6, hcomp, Nat.sub_self]
  have hv' : ¬ 1 < s.sec.svnFloor := by omega
  simp [hv']

theorem test_BringUp_boot : tBoot.alive = true ∧ tBoot.start.halted = false ∧ tBoot.start.stage = 0 ∧ tBoot.field pgMGT oMGT_BOOT_CFG 0 0 = 0 ∧
    (tBoot.extend 0 (sha256 tBoot.otpBytes)).slotFail none ≠ 0 ∧ tOn.start.stage ≠ 0 := by decide +kernel

theorem tOtp_keeps (h d : List Byte) (i : Nat) : ((tOtp h).extend i d).sec.rootHash = h ∧ ((tOtp h).extend i d).sec.svnFloor = 0 := ⟨rfl, rfl⟩

theorem test_BringUp_accepted : (tBoot.extend 0 (sha256 tBoot.otpBytes)).slotFail (some tSlot) = 0 :=
  test_slotAccepted _ (tOtp_keeps _ _ _).1 (by
    have h := (tOtp_keeps (sha256 (beBytes 4 1 ++ tPubOf tRoot)) (sha256 tBoot.otpBytes) 0).2
    unfold tBoot at h ⊢
    omega)

/-- Bring-up at order 3, nothing trained. -/
def tUp : State := { State.reset with start := { Startup.atRelease with stage := 2 } }

/-- 64 GiB modules on the even channels, one rank, 12,800 MT/s. -/
def tSpds : List (Option Spd) := (List.range 24).map (fun c => if c % 2 = 0 then some ⟨c, 64, 1, 12800, true, 1⟩ else none)

/-- Everything but the flash map and READY done. -/
def tDue : State := { tUp with start := { tUp.start with
  hbmDone := true
  hbmCleared := true
  ddrDone := true
  flashDone := true } }

theorem test_BringUp : State.reset.bringUp = false ∧ tUp.bringUp = true ∧ tUp.start.hbmDone = false ∧ tUp.start.ddrDone = false ∧ tUp.start.flashDone = false ∧
    (tUp.rail 7).down = false ∧ (tUp.rail 8).down = false ∧ (tUp.rail 10).down = false ∧ tUp.flash.mapState = 0 ∧
    (∀ x ∈ List.replicate 8 HbmTrain.full, x = HbmTrain.full) ∧ HbmTrain.failed ∈ [HbmTrain.failed] ∧
    ddrBad ((List.range 24).map (fun c => nth none tSpds c)) = [] ∧
    ddrBad ((List.range 24).map (fun c => nth none (tSpds.drop 1) c)) ≠ [] := by decide +kernel

theorem test_BringUp_ready : tDue.bringUp = true ∧ tDue.start.hbmDone = true ∧ tOn.start.hbmCleared = false ∧ tDue.readyDue = true ∧
    tDue.start.ready = false ∧ tUp.readyDue = false ∧
    (({ tUp with tiers := { tUp.tiers with ddrTrained := true } } : State).start.ddrCleared = false) ∧
    (({ tUp with flash := { tUp.flash with mapState := 1 } } : State).bringUp = true) := by decide +kernel

/-- The ready message's key is in slot 0, IPv4 address 10.0.0.1 is set, and the message is enabled. -/
def tAwait : State := ((({ tDue with
  start := { tDue.start with ready := true }
  sec := { tDue.sec with slots := [(0, ⟨some [1#8], false, 0, [], []⟩)] } } : State).setField pgMGT oMGT_READY_CFG 0 0 1).setBankField
    pgFRONT oNETF_ADDR_SEL 0 31 31 1).setBankField pgFRONT oNETF_ADDR_W3 0 31 0 0x0A000001

theorem test_BringUp_message : tAwait.alive = true ∧ tAwait.start.ready = true ∧ tAwait.start.answered = false ∧
    tAwait.field pgMGT oMGT_READY_CFG 0 0 = 1 ∧ (∃ j ∈ [0, 1, 2, 3, 4], (tAwait.frontAddr j).isSome = true) ∧
    (tAwait.keySlot (tAwait.field pgMGT oMGT_READY_CFG 2 1)).key = some [1#8] ∧ (tUp.keySlot 0).key = none := by decide +kernel

/-! ### Hypotheses met: management -/

/-- Key slot 0 loaded, IPv4 address 10.0.0.1 on a front sub-port that is up, HBM cleared, a frame of it at 0x1000 poisoned. -/
def tMgmt : State := (({ tLive with
  start := { tLive.start with hbmCleared := true }
  errors := { tLive.errors with poison := [0x1000] }
  sec := { tLive.sec with slots := [(0, ⟨some [1#8], false, 0, [], []⟩)] } } : State).setBankField pgFRONT oNETF_ADDR_SEL 0 31 31 1).setBankField
    pgFRONT oNETF_ADDR_W3 0 31 0 0x0A000001

/-- A request to it, and the same with its tag under the key in slot 0. -/
def tMg0 (addr : Nat) (body : List Byte) : MgmtReq := ⟨⟨false, 2, 9⟩, ⟨false, 0x0A000001, 18454⟩, 0xC4AB, 1, 0, 0, 0, 0, 1, 7, BitVec.ofNat 16 body.length, 0, BitVec.ofNat 64 addr, body, []⟩
def tMg (op addr : Nat) (body : List Byte) : MgmtReq := { tMg0 addr body with tag := mgmtTag [1#8] (reqHeader op (tMg0 addr body) ++ body) }

/-- The device has answered request 7 before. -/
def tTold : State := { tMgmt with sec := { tMgmt.sec with slots := [(0, ⟨some [1#8], false, 0, [], [(7, [2#8])]⟩)] } }

theorem test_KeptResponses : tMgmt.mgmtHears (tMg 0x0A 0 []) = true ∧ tRun.mgmtHears (tMg 0x0A 0 []) = false ∧
    tMgmt.mgmtKey 0x0A (tMg 0x0A 0 []) = some [1#8] ∧ tMgmt.mgmtKey 0x01 (tMg 0x0A 0 []) = none ∧
    (tMgmt.keySlot 0).kept.find? (fun e => e.1 = (tMg 0x0A 0 []).reqId.toNat) = none ∧
    tTold.mgmtHears (tMg 0x0A 0 []) = true ∧ tTold.mgmtKey 0x0A (tMg 0x0A 0 []) = some [1#8] ∧
    (tTold.keySlot 0).kept.find? (fun e => e.1 = (tMg 0x0A 0 []).reqId.toNat) = some (7, [2#8]) := by decide +kernel

/-- Every request of tMg carries its key's tag. -/
theorem test_ManagementActs_key (op addr : Nat) (body : List Byte) (h : body.length ≤ 1024) : tMgmt.mgmtKey op (tMg op addr body) = some [1#8] := by
  have hk : (tMgmt.keySlot 0).key = some [1#8] ∧ (tMgmt.keySlot 0).highest = 0 ∧ (tMgmt.keySlot 0).accepted = [] := by decide +kernel
  have hl : (tMg op addr body).length.toNat = body.length := by
    show (BitVec.ofNat 16 body.length).toNat = body.length
    rw [BitVec.toNat_ofNat, Nat.mod_eq_of_lt (by omega)]
  have hh : reqHeader op (tMg op addr body) = reqHeader op (tMg0 addr body) := rfl
  have hi : (tMg op addr body).keyId.toNat = 0 := rfl
  have hb : (tMg op addr body).body = body := rfl
  have ht : (tMg op addr body).tag = mgmtTag [1#8] (reqHeader op (tMg0 addr body) ++ body) := rfl
  have hs : (tMg op addr body).seq.toNat = 1 := rfl
  have hm : (tMg op addr body).magic.toNat = 0xC4AB ∧ (tMg op addr body).version = 0x01#8 := ⟨rfl, rfl⟩
  unfold State.mgmtKey
  simp [hi, hb, hl, hk, hh, ht, hs, hm, h]

theorem test_ManagementActs : (∀ op addr body, tMgmt.mgmtHears (tMg op addr body) = true) ∧
    regRangeBad regBase 4 = none ∧ tMgmt.tierWaits 0x3000 = false ∧ State.reset.tierWaits 0x3000 = true := by
  have h : tMgmt.mgmtHears (tMg 0 0 []) = true := by decide +kernel
  exact ⟨fun _ _ _ => h, by decide +kernel⟩

/-- How a read ends, where it fails: 0 for an access fault, 1 for poison. -/
def tWhy (r : Except MemErr (List Byte)) : Option Nat := match r with
  | .ok _ => none
  | .error (.access _) => some 0
  | .error (.data _) => some 1

/-- The request taken on front sub-port 0. -/
def tTaken (op addr : Nat) (body : List Byte) : State :=
  let r := tMg op addr body
  let s := tMgmt.rxFrame 0 false
  let s := s.setKeySlot 0 ((s.keySlot 0).take 1)
  let s := s.count pgFRONT oNETF_MGMT_OK 1
  if r.keyId.toNat = s.field pgMGT oMGT_READY_CFG 2 1 then { s with start := { s.start with answered := true } } else s

/-- Of one front sub-port, the free choice takes that one. -/
theorem tTaken_eq (op addr : Nat) (body : List Byte) : tMgmt.mgmtTake (tMg op addr body) = tTaken op addr body := by
  have h : tMgmt.frontUp = [0] := by decide +kernel
  have hc : tMgmt.choose 0xA0 1 = 0 := Nat.mod_one _
  have hp : tMgmt.mgmtPort = 0 := by
    unfold State.mgmtPort
    rw [h]
    show nth 0 [0] (tMgmt.choose 0xA0 1) = 0
    rw [hc]
    rfl
  unfold State.mgmtTake
  rw [hp]
  rfl

theorem test_ManagementActs_memory : ((tTaken 0x03 0x3000 (beBytes 4 4)).readBytes mgmtPart 0x3000 4).toOption = some [0#8, 0#8, 0#8, 0#8] ∧
    tWhy ((tTaken 0x03 hbmSize (beBytes 4 4)).readBytes mgmtPart hbmSize 4) = some 0 ∧
    tWhy ((tTaken 0x03 0x1000 (beBytes 4 4)).readBytes mgmtPart 0x1000 4) = some 1 ∧
    ((tTaken 0x04 0x3000 [1#8]).writeFor mgmtPart none 0x3000 [1#8]).isOk = true ∧
    ((tTaken 0x04 hbmSize [1#8]).writeFor mgmtPart none hbmSize [1#8]).isOk = false := by decide +kernel

/-- Queue pair 5 is in RTS there and 6 is not; communicator 3 is partition 1's, of 2 members listed at 0x1000. -/
theorem test_ManagementActs_records : ((tTaken 5 5 (tZeros 64)).qp 5).state = 1 ∧ ((tTaken 5 6 (tZeros 64)).qp 6).state ≠ 1 ∧
    (tTaken 7 0 []).net.fabric.length < 16384 ∧ fldBe [0#8, 1#8, 2#8, 1#8, 1#8] 4 1 ≠ 0 ∧
    ((tTaken 8 3 []).part 1).nonFree = true ∧ within 3 1 ((tTaken 8 3 []).part 1).commsRange.1 ((tTaken 8 3 []).part 1).commsRange.2 = true ∧
    within 0x1000 8 ((tTaken 8 3 []).part 1).resBase ((tTaken 8 3 []).part 1).resBytes = true := by decide +kernel

/-! ### Hypotheses met: fabric -/

/-- A packet from device 2, partition 3, with PSN n, for device 1. -/
def tPkt (n : Nat) : FabHdr := { fabHdr0 0xFFFF 7 with
  srcDev := 2#16
  dstDev := 1#16
  srcPart := 3#4
  psn := BitVec.ofNat 32 n }

/-- Device 1, with device 2's partition 3 mapped to partition 1, and a receiving context at CUM_PSN 5. -/
def tName : ConnId := ⟨1, 2#16, 3⟩
def tFar : ConnId := ⟨1, 2#16, 16⟩
def tFab : State := ({ tRun with net := { tRun.net with
  fabric := [(fabKey 2 3, 2)]
  rxConns := [⟨tName, 0xFFFF, 5, [], 0, 0, 0⟩] } } : State).setField pgFABRIC oNETB_DEVICE_ID 15 0 1

/-- That context. -/
def tRx : RxConn := ⟨tName, 0xFFFF, 5, [], 0, 0, 0⟩

/-- With no back sub-port up, an arrival counts on none. -/
theorem tFab_rxBack : tFab.rxBack false = tFab := by
  have h : tFab.backSubs = [] := by decide +kernel
  unfold State.rxBack
  rw [h]
  rfl

theorem test_FabricReceives : tFab.deviceId = 1 ∧ tRun.deviceId = 0xFFFF ∧ tFab.mapPacket (tPkt 5) = some 1 ∧
    tFab.mapPacket { tPkt 5 with srcPart := 4#4 } = none ∧ tFab.deaf 1 = false ∧ (tFab.peerUp 1 (tPkt 5)).rx? 1 (tPkt 5) = some tRx ∧
    tRx.place 5 false = .fresh ∧ tRx.place 5 true ≠ .outside ∧ tRx.place 4 false = .duplicate ∧ tRx.place 4 true ≠ .outside := by decide +kernel

/-- What partition 1 sees when packet 5 comes. -/
def tCame : State := (tFab.peerUp 1 (tPkt 5)).setRx tRx

theorem test_FabricReceives_data : (tCame.copyData (tPkt 5) [] 1).2 = none ∧ (tCame.copyData (tPkt 5) [1#8] 1).2 = none ∧
    (tCame.copyData { tPkt 5 with addr := 0x800000 } [1#8] 1).2 = some 1 := by decide +kernel

/-- A collective of partition 1 on communicator 3 that packet 5's does not match yet, and one it may drop. -/
theorem test_FabricReceives_collective : (tCame.collData { tPkt 5 with comm := 3 } [1#8]).2 = some 4 ∧
    (tCame.collData { tPkt 5 with
      comm := 3
      collSeq := 0xFFFF } [1#8]).2 = none := by decide +kernel

/-- An item record already answers the SEMOP. -/
def tAgain : State := { tCame with net := { tCame.net with items := [⟨2, 3, 0, 0xFFFFFFFF, 0, 0, true, some 0⟩] } }
theorem test_FabricReceives_semop : (tAgain.item? { tPkt 5 with item := 0xFFFFFFFF#32 }) = some ⟨2, 3, 0, 0xFFFFFFFF, 0, 0, true, some 0⟩ := by decide +kernel

/-- Device 1's sending connection to device 2, with packets 8 and, made to wait, 9 outstanding. -/
def tSentPkt (n : Nat) (w : Bool) : Sent := ⟨n, fbDATA, { fabHdr0 0xFFFF 7 with dstDev := 2#16 }, [1#8], none, 16, 0, w, n⟩
def tConn (rtos : Nat) : TxConn := { freshTx tFar with
  next := 10
  outstanding := [tSentPkt 8 false, tSentPkt 9 true]
  sentCount := 2
  rtos := rtos }
def tSender (rtos : Nat) : State := { tFab with net := { tFab.net with txConns := [tConn rtos] } }

theorem test_FabricSends : (tSender 0).deviceId = 1 ∧ (tSender 0).mapPacket (tPkt 5) = some 1 ∧
    ((tSender 0).net.txConns.find? (fun t => t.conn.dev = 2#16 && (t.conn.peer = 16) = (0xFFFF#16 = 0xFFFF#16)
      && t.outstanding.any (fun k => k.psn % 2 ^ 32 = 8 && k.hdr.comm = 0xFFFF#16))).isSome = true ∧
    tRun.txConn? tFar = none ∧ (tSender 0).txConn? tFar = some (tConn 0) ∧
    (tConn 0).outstanding.find? (fun k => k.psn % 2 ^ 32 = 8 && !k.waiting) = some (tSentPkt 8 false) ∧
    (tConn 0).outstanding.find? (fun k => k.psn % 2 ^ 32 = 9 && !k.waiting) = none ∧
    (tConn 0).outstanding.find? (fun k => k.psn % 2 ^ 32 = 9 && k.waiting) = some (tSentPkt 9 true) ∧
    (tConn 0).outstanding.find? (fun k => k.psn % 2 ^ 32 = 8 && k.waiting) = none ∧
    0 + 1 < (tSender 0).fabRetry ∧ (tSender 255).fabRetry ≤ 255 + 1 := by decide +kernel

theorem test_FabricSends_idle : (tConn 0).winAcked = 0 ∧ ({ tConn 0 with winAcked := 3 } : TxConn).winAcked ≠ 0 ∧ tFab.net.txConns = [] ∧
    (freshTx tFar).outstanding = [] ∧ (freshTx tFar).backlog = [] ∧ (freshTx tFar).down = false ∧ (freshTx tFar).conn = tFar := by decide +kernel

/-! ### Hypotheses met: power, pins, errors -/

/-- Rail 2 below its warning level; die 0 four periods at its trip level. -/
def tWarned : State := tRun.setRail 2 { tRun.rail 2 with warn := true }
def tHot : State := tRun.setDie 0 { tRun.die 0 with tripPeriods := 4 }

theorem test_StrobePeriod : tRun.alive = true ∧ ({ tRun with start := { tRun.start with inReset := true } } : State).alive = false := by decide +kernel

theorem test_RailsAndClocks : (tRun.rail 2).warn = false ∧ (tRun.rail 2).warnMv ≤ 700 ∧ 600 < (tRun.rail 2).warnMv ∧ (tWarned.rail 2).warn = true ∧
    railIslands 0 = 0 ∧ railIslands 7 ≠ 0 ∧ 0 ≤ railResetMv 7 ∧ railResetMv 2 < 500 ∧ 480 ≤ railResetMv 2 ∧ 0 ∉ tRun.start.clocksLost ∧
    (∀ i ∈ List.range 32, (tRun.sub i).up = false) ∧
    (0 : Nat) ∈ ({ tRun with start := { tRun.start with clocksLost := [0] } } : State).start.clocksLost := by decide +kernel

/-- No sub-port of the device right after reset is up. -/
theorem test_RailsAndClocks_links : ∀ i, (State.reset.sub i).up = false := fun _ => rfl

theorem test_ResetPins : tRun.start.tripped = false ∧ ({ tRun with start := { tRun.start with tripped := true } } : State).start.tripped = true ∧
    tRun.start.porLow = false ∧ tRun.start.inReset = false ∧
    (∀ r ∈ [4, 5, 6, 11], (({ tRun with start := { tRun.start with inReset := true } } : State).rail r).down = false) ∧
    tRun.tripInfo = none ∧ tHot.alive = true ∧ tHot.tripInfo = some 0 := by decide +kernel

/-- Core 3 (of die 0) under test. -/
def tTest (passes : List Passed) : State := { tRun with errors := { tRun.errors with
  tests := [⟨.coreUnit 3, [0], true, false, false⟩]
  passes := passes } }

theorem test_ErrorsAndTests : tRun.alive = true ∧ tRun.errors.tests.find? (fun t => t.started && t.site = .coreUnit 3) = none ∧
    (tTest []).errors.tests.find? (fun t => t.started && t.site = .coreUnit 3) = some ⟨.coreUnit 3, [0], true, false, false⟩ ∧
    (tTest []).passCount (.coreUnit 3) < max 1 ((tTest []).field pgERR oERR_ERR_CFG 3 0) := by decide +kernel

/-! ### Hypotheses met: security, the calendar, the general statements -/

def tHeld : State := { tRun with start := { tRun.start with inReset := true } }
def tSecure (n : Nat) : State := { tRun with sec := { tRun.sec with runningSvn := n } }

theorem test_SvnFloor : tRun.i3cAnswers pgMGT = true ∧ tHeld.i3cAnswers pgMGT = false ∧ (tSecure 3).sec.svnFloor < (tSecure 3).sec.runningSvn ∧
    (tSecure 3).sec.burned + ((tSecure 3).sec.runningSvn - (tSecure 3).sec.svnFloor) ≤ 32 ∧
    32 < (tSecure 40).sec.burned + ((tSecure 40).sec.runningSvn - (tSecure 40).sec.svnFloor) ∧ (tSecure 0).sec.runningSvn ≤ (tSecure 0).sec.svnFloor := by decide +kernel

/-- A report in progress at an address. -/
def tReport (a : Nat) (done : Bool) : State := { tMgmt with sec := { tMgmt.sec with
  att := some ⟨[], a⟩
  exhausted := done } }

theorem test_SecurityRows : tRun.i3cAnswers pgSEC = true ∧ tHeld.i3cAnswers pgSEC = false ∧ (tRun.keySlot 0).locked = false ∧
    (({ tRun with sec := { tRun.sec with slots := [(0, { keyEmpty with locked := true })] } } : State).keySlot 0).locked = true ∧
    tRun.sec.attResult ≠ 0xF ∧ tRun.sec.att = none ∧ (tReport 0x3000 true).sec.exhausted = true ∧ (tReport 0x3000 false).sec.exhausted = false ∧
    zoneOf 0x3000 = .hbm ∧ (tReport 0x3000 false).tierWaits 0x3000 = false ∧ zoneOf potBase ≠ .hbm ∧ zoneOf potBase ≠ .ddr := by decide +kernel

/-- The report is written, whatever its free signature. -/
theorem test_SecurityRows_report : ((tReport 0x3000 false).writeFor mgmtPart none 0x3000
    ((tReport 0x3000 false).reportBody [] ++ signature 0 ((tReport 0x3000 false).reportBody []))).isOk = true := by decide +kernel

theorem test_CalendarRows : tRun.i3cAnswers pgRTC = true ∧ tHeld.i3cAnswers pgRTC = false ∧ tRun.i3cAnswers pgTRV = true ∧
    tHeld.i3cAnswers pgTRV = false ∧ tRun.alive = true := by decide +kernel

/-! ### Hypotheses met: the general statements -/

theorem test_MarksHold (s : State) (hp : ∀ p ∈ partIds, s.inflight p % 1024 ≤ s.field (pgCMD p) oCMD_INFLIGHT 25 16)
    (hc : ∀ p ∈ partIds, (s.part p).srv.cancelUse % 8192 ≤ s.field (pgSRV p) oSRV_CANCEL_USE 28 16)
    (ht : ∀ e ∈ s.cores, e.1 < 208 → e.2.trayNow.1 % 8192 ≤ s.field (pgTRY e.1) oTRY_TRY_PEAK 12 0)
    (hn : s.contexts % 65536 ≤ s.field pgFABRIC oNETB_CONN_USE 31 16) : s.marksHold := ⟨hp, hc, ht, hn⟩

theorem tRun_marks : tRun.marksHold :=
  test_MarksHold tRun (by decide +kernel) (by decide +kernel) (by decide +kernel) (by decide +kernel)

/-- The running device is quiet, and a step of it that idles keeps its marks. -/
theorem test_SettleQuiet : tRun.Quiet :=
  ⟨by decide +kernel, by decide +kernel, by decide +kernel, by decide +kernel, by decide +kernel, by decide +kernel, tRun_marks⟩

theorem test_MarksHold_step : step tRun = .next tRun := rfl

theorem test_HbmReadsBack : tRun.memWf = true ∧ tRun.errors.poison = [] ∧ tRun.cmds = [] ∧ 0x3000 + 2 ≤ hbmSize ∧ 0x3000 % 4096 + 2 ≤ 4096 ∧
    tRun.backed 0x3000 = true ∧ tRun.backed 0x3001 = true ∧ (tRun.writeFor 1 none 0x3000 [1#8, 2#8]).isOk = true := by decide +kernel

/-- A frame for which no reserve frame was left. -/
theorem test_UncoveredFrames : ErrSite.hbm 0x1000 ∈ ({ tRun with errors := { tRun.errors with noSpare := [.hbm 0x1000] } } : State).errors.noSpare := by
  decide +kernel

/-! ### Ill-formed commands are refused -/

theorem test_illFormed_bodies : (Instr.nop 1 (tHdr 64) (List.replicate 4033 0#8)).wellFormed = false ∧
    (Instr.nop 1 (tHdr 64) (List.replicate 4032 0#8)).wellFormed = true ∧
    (Instr.fabricData (tPkt 5) (List.replicate 9217 0#8)).wellFormed = false ∧
    (Instr.icmpEcho 0 ⟨false, 0, 0, List.replicate 9217 0#8⟩).wellFormed = false ∧
    (Instr.i3cPrivateWrite (List.replicate 265 0#8)).wellFormed = false ∧ (Instr.i3cPrivateRead 65).wellFormed = false ∧
    (Instr.identify (tMg0 0 (List.replicate 1025 0#8))).wellFormed = false ∧
    (Instr.identify { tMg0 0 [] with tag := List.replicate 16 0#8 }).wellFormed = true ∧ (Instr.identify (tMg0 0 [])).wellFormed = false := by
  decide +kernel

theorem test_illFormed_numbers : (Instr.stepBoundary 1 0x10000).wellFormed = false ∧ (Instr.prefillPassStart 1 (2 ^ 32)).wellFormed = false ∧
    (Instr.prefillPassCommit 1 (2 ^ 32)).wellFormed = false ∧ (Instr.shadowCommit 0x580).wellFormed = false ∧
    (Instr.headerCounterClear 0x580).wellFormed = false ∧ (Instr.pageCopyDone (2 ^ 27)).wellFormed = false ∧
    (Instr.oldFrameRelease (2 ^ 27)).wellFormed = false ∧ (Instr.relocationDone 0 (2 ^ 35)).wellFormed = false ∧
    (Instr.unitLost (2 ^ 35)).wellFormed = false ∧ (Instr.registerWrite .mgmt 0x580 0 0).wellFormed = false ∧
    (Instr.registerWrite .mgmt 0 0x1000 0).wellFormed = false ∧ (Instr.registerWrite .mgmt 0 2 0).wellFormed = false := by decide +kernel

theorem test_illFormed_places : portExists 0 28 = false ∧ portExists 0 27 = true ∧ portExists 32 7 = false ∧ blockOk ⟨32, 0, 0⟩ = false ∧
    blockOk ⟨0, 16, 0⟩ = false ∧ (Instr.oldBlockErase ⟨32, 0, 0⟩).wellFormed = false ∧ (Instr.programFailure ⟨0, 16, 0⟩).wellFormed = false ∧
    (Instr.eraseFailure ⟨0, 16, 0⟩).wellFormed = false ∧ (Instr.readVerify 0 1 [⟨32, 0, 0⟩]).wellFormed = false ∧
    (Instr.correctedError (.sram 0x580 0)).wellFormed = false ∧ (Instr.correctedError (.stockpot 0 0x8000000)).wellFormed = false ∧
    (Instr.uncorrectedError (.hbm 0x8000000000) []).wellFormed = false ∧ (Instr.selfTestDone (.ddr 0x80000000000) .pass).wellFormed = false := by
  decide +kernel

theorem test_illFormed_lists : (Instr.hbmTrained []).wellFormed = false ∧
    (Instr.ddrTrained []).wellFormed = false ∧ (Instr.flashChannelsTrained []).wellFormed = false ∧
    (Instr.flashChannelsTrained (List.replicate 32 (List.replicate 17 (tDie 1)))).wellFormed = false ∧
    (Instr.strobeEdge ⟨[], [], [], [], [], []⟩).wellFormed = false := by decide +kernel

theorem test_illFormed_slot : slotOk none = true ∧ ∀ l : List Byte, 0x1000000 < l.length → slotOk (some l) = false ∧
    (Instr.bootVerified (some l) none).wellFormed = false := by
  refine ⟨rfl, fun l h => ?_⟩
  have : slotOk (some l) = false := decide_eq_false (by omega)
  exact ⟨this, by show (slotOk (some l) && slotOk none) = false; rw [this]; rfl⟩

theorem test_illFormed_data (l : List Byte) (h : 2 ^ 31 < l.length) : (Instr.sendCapsule 0 0 true l).wellFormed = false :=
  decide_eq_false (by omega)

/-! ### Values of the spec's worked examples and of the standards it names -/

/-- A take that loses to a subtract (07): semaphore 0x4100 after P1, X, P2, Y and Z. -/
def tTakes : State :=
  let a := (tRun.semAdd 0x4100 3 0 none).1.semReserve 0x4100 2
  (((a.semAdd 0x4100 1 0 none).1.semReserve 0x4100 2).semSub 0x4100 1 0 none).1

theorem test_semaphores : tTakes.sem 0x4100 = ⟨3, 4, false, false, false⟩ ∧ (tTakes.semTake 0x4100 2 none).1.sem 0x4100 = ⟨1, 2, false, false, false⟩ ∧
    ((tTakes.semTake 0x4100 2 none).1.semTake 0x4100 2 none).1.sem 0x4100 = ⟨0, 0, false, true, false⟩ := by decide +kernel

/-- Ties, signed zero and NaN in one top-k (10). -/
def tTop (k : Nat) : SelRow := (⟨0, 1, k, 8, 1, 0, 0, 0⟩ : SelDesc).dense
  (([0x4000, 0x7FC0, 0x8000, 0x4040, 0x4000, 0, 0x4000, 0xFF80] : List Nat).flatMap (leBytes 2)) 8

theorem test_topk : (tTop 4).slots.map (fun s => (leNat (s.take 4), leNat (s.drop 4))) =
      [(3, 0x40400000), (0, 0x40000000), (4, 0x40000000), (6, 0x40000000)] ∧ (tTop 4).nan = 1 ∧ (tTop 4).flags 4 = 32 ∧
    (tTop 6).slots.map (fun s => leNat (s.take 4)) = [3, 0, 4, 6, 2, 5] ∧ (tTop 8).slots.length = 7 ∧ bit ((tTop 8).flags 8) 0 = true := by
  decide +kernel

/-- Duplicates in one scatter-add (08): the tree, then the application. -/
theorem test_scatter : toF32 (treeSum [.fin false (pow2 (-24)), .fin false (pow2 (-24)), .fin false (pow2 (-25))]) = 0x34200000#32 ∧
    f32Add f32One 0x34200000#32 = 0x3F800001#32 ∧ f32Add f32One 0x33800000#32 = f32One := by decide +kernel

/-- Staging for a split reduction (02): the nodes of three uneven ranges of 32 chunks. -/
theorem test_nodes : (nodesOf 11 32 33 0).map (nodeSpan 32) = [(0, 8), (8, 10), (10, 11)] ∧
    (nodesOf 22 32 33 11).map (nodeSpan 32) = [(11, 12), (12, 16), (16, 20), (20, 22)] ∧
    (nodesOf 32 32 33 22).map (nodeSpan 32) = [(22, 24), (24, 32)] ∧ nodesOf 16 32 33 8 = [(3, 1)] := by decide +kernel

/-- A chunk in the sub-window corner (02). -/
def tCorner : List (Elem × Elem) :=
  (List.replicate 16 (((.fin false (3 * pow2 40), 40) : Elem), ((.fin false (pow2 40), 40) : Elem))) ++
  (List.replicate 16 ((.fin true (3 * pow2 40), 40), (.fin false (pow2 40), 40))) ++
  [((.fin false (pow2 (-35)), -40), (.fin false (pow2 (-35)), -40)), ((.fin false (pow2 (-45)), -40), (.fin false (pow2 (-45)), -40))]

theorem test_chunk : toF32 (chunkOf .e4m3 .e4m3 (tCorner.map (·.1)) (tCorner.map (·.2))) = 0x1C800000#32 := by decide +kernel

/-- Reservation across a power loss (20). -/
def tLeaves : State := ({ State.reset with sec := { State.reset.sec with
  leafNext := 1000040
  leafReserved := 1000064
  leafSeq := 15625 } }).leafStart

theorem test_leaves : tLeaves.sec.leafNext = 1000064 ∧ tLeaves.sec.leafReserved = 1000128 ∧ tLeaves.sec.leafSeq = 15626 := by decide +kernel

/-- Walking the list of a YV4816-B1-H384 (21), partitions FREE and no core retired. -/
theorem test_capabilities : State.reset.capWords.map (·.toNat) = [0x03010001, 0x10C, 0x30303030, 0x02010002, 0x114, 0x02010003, 0x11C,
    0x03010004, 0x128, 0xFFFFFFFF, 0x03010005, 0x134, 0x08400002, 0x03010006, 0x140, 0x830, 0x03010007, 0, 0x20000] := by decide +kernel

/-- A stop string completed by a later token (11). -/
def tTexts : List (List Byte) := [[0x44#8, 0x61#8], [0xC3#8], [0xA9#8], [0x0A#8, 0x23#8], [0x23#8, 0x23#8, 0x20#8, 0x78#8]]
def tStrain (n : Nat) (incl : Bool) : Strained :=
  (tTexts.take n).foldl (fun x t => strainTok [[0x0A#8, 0x23#8, 0x23#8, 0x23#8]] incl (some t) x) ⟨Strain.start, [], 0, 0, 0, 0, false⟩

theorem test_strainer : (tStrain 2 false).st.held = [0xC3#8] ∧ (tStrain 4 false).st.held = [0x0A#8, 0x23#8] ∧
    (tStrain 5 false).text = [0x44#8, 0x61#8, 0xC3#8, 0xA9#8] ∧ (tStrain 5 false).st.stopped = true ∧ (tStrain 5 false).consumed = 5 ∧
    (tStrain 5 true).text.length = 8 := by decide +kernel

/-- One stream in two buffers (11): the trie of the example. -/
def tNodes : List Byte := ([(0xFFFFF, 5, 0), (5, 1, 5), (6, 1, 6), (7, 0, 0), (0xFFFFF, 1, 7), (0xFFFFF, 1, 8), (9, 0, 0), (0xFFFFF, 1, 9), (8, 0, 0),
  (10, 0, 0), (11, 0, 0)] : List (Nat × Nat × Nat)).flatMap (fun n => leBytes 4 n.1 ++ leBytes 4 n.2.1 ++ leBytes 8 n.2.2)
def tEdges : List Byte := ([(0x20, 4), (0x63, 1), (0x6B, 10), (0x6F, 9), (0xC3, 7), (0x61, 2), (0x66, 3), (0x6F, 5), (0x6B, 6), (0xA9, 8)] :
  List (Nat × Nat)).flatMap (fun e => leBytes 4 e.1 ++ leBytes 4 e.2)
def tImage : Reader := fun a n => .ok (((padTo 0x1000 tNodes ++ tEdges).drop a).take n)
def tClasses : List Byte := (List.range 32).map (fun i => if i = generalCategory 0x63 then 1#8 else if i = generalCategory 0x20 then 0x12#8 else 0#8)
def tTok (pend text : List Byte) : Option (List Nat) × List Byte :=
  let u := (⟨0, 3, text.length, 1, 100, 0, 0, 0⟩ : TokDesc).units pend text
  ((((⟨true, 512, 11, 256, 0, 0, 0x1000, 0, 0, 0⟩ : Trie).allPieces tImage (piecesOf (some tClasses) u.1) ⟨[], 0, 0, 0⟩).toOption).map (·.toks), u.2)

theorem test_tokenize : tTok [] [0x63#8, 0x61#8, 0x66#8, 0xC3#8] = (some [7], [0xC3#8]) ∧
    tTok [0xC3#8] [0xA9#8, 0xFF#8, 0x20#8, 0x6F#8, 0x6B#8] = (some [8, 511, 9], []) := by decide +kernel

/-- FIPS 180-4's digest of "abc"; RFC 3720's check value; the published zero vector of Philox4x32-10. -/
theorem test_standards : (sha256 [0x61#8, 0x62#8, 0x63#8]).take 4 = [0xBA#8, 0x78#8, 0x16#8, 0xBF#8] ∧
    crc32c [0x31#8, 0x32#8, 0x33#8, 0x34#8, 0x35#8, 0x36#8, 0x37#8, 0x38#8, 0x39#8] = 0xE3069283#32 ∧
    philox 0 0 0 0 0 = (0x6627E8D5#32, 0xE169C58D#32, 0xBC57AC4C#32, 0x9B00DBD8#32) := by decide +kernel

/-- A square root whose exact value lies just above the middle of no two values (03): sqrt(1 + 2^-23) rounds to 1. -/
theorem test_whiskSqrt : whiskSqrt 0x3F800001#32 = 0x3F800000#32 ∧ whiskSqrt 0x40800000#32 = 0x40000000#32 := by decide +kernel

/-- Copies of one ID in a list (10): A with key 1, B with 5, A with 5. Of equal keys the lower index wins. -/
def tCopies : SelRow := (⟨0, 1, 1, 3, 1, 0, 0, 0⟩ : SelDesc).listRow
  (([(7, 0x3F800000), (8, 0x40A00000), (7, 0x40A00000)] : List (Nat × Nat)).flatMap (fun e => leBytes 8 e.1 ++ leBytes 4 e.2 ++ leBytes 4 0)) 3

theorem test_listTie : tCopies.slots.map (fun s => leNat (s.take 8)) = [8] := by decide +kernel

/-! ### Hypotheses of the clauses met, where the sections above leave one over -/

/-- Semaphore 3 poisoned, and a NOP that waits for it. -/
def tPoison : State := tRun.setSem 3 ⟨0, 0, false, false, true⟩

theorem test_CapsuleAccepted_poisoned : tPoison.checks 1 0 { tHdr 64 with wait0 := 0x40010003#32 } [] false false = none ∧
    (∃ e ∈ hWaits { tHdr 64 with wait0 := 0x40010003#32 }, entKind e ≠ 0 ∧ (tPoison.sem (entSem e)).poison = true) ∧
    (∀ e ∈ hWaits (tHdr 64), entKind e ≠ 0 → (tPoison.sem (entSem e)).poison = false) := by decide +kernel

theorem test_NopCommits_outs : tSignals.outs = [] := by decide +kernel

/-- The ring of partition 1 with one record waiting and COMPL_QP down. -/
def tRingDown : State := tRing.setQp 5 qpReset

theorem test_RecordWrite_clauses : (tRun.part 1).changing ≠ some (31, 3) ∧ (tRing.part 1).changing = none ∧ (tRing.part 1).ring.heldFull = none ∧
    tRingDown.complRts 1 = false ∧ (tRingDown.part 1).ring.waiting = [⟨[List.replicate 32 0#8], some ⟨0, 0⟩⟩] ∧
    ((tRing.setPart 1 { tRing.part 1 with ring := { (tRing.part 1).ring with written := 2 ^ 31 } }).part 1).ringFree < 1 := by
  decide +kernel

/-- Griddle 0 of core 0 with a plain tile in hand, with the next beside it, and with a stripe that waits at a halo semaphore. -/
def tTile (n : Nat) : UnitRef := ⟨⟨0, 0⟩, n, false, false⟩
def tHolds (a b : Option UnitRef) : State := (tWith tCore [{ tStripes with ranges := [⟨0, 0, 1⟩] }]).setHeld 0 0 a b

theorem test_TakeUnit_holds : (tCore.held 0 0 = (none, none)) ∧ (tHolds (some (tTile 0)) none).held 0 0 = (some (tTile 0), none) ∧
    (tHolds (some (tTile 0)) (some (tTile 1))).held 0 0 = (some (tTile 0), some (tTile 1)) ∧ tTile 0 ≠ tTile 1 ∧
    (tHolds (some (tTile 0)) none).unitWaits (tTile 0) = false ∧ (tHolds (some (tTile 1)) none).unitWaits (tTile 1) = true ∧
    (tTile 1).landing = false := by decide +kernel

/-- A landing tile not arrived gives a griddle its place to stand. -/
def tLands : State := tWith tCore [{ tLand with landing := [0] }]

theorem test_TakeUnit_stands : tLands.firstUnit 0 none (tLands.dealt 1) = none ∧ (tLands.standUnit 0 (tLands.dealt 1)).isSome = true := by decide +kernel

theorem test_PassWatchdog_waits : (tWaiting.held 0 0).1 = tHand ∧ (tWaiting.unitWaits ⟨⟨1, 0⟩, 0, true, false⟩) = true := by decide +kernel

/-- All four griddles of core 0 stand at the halo semaphore of stripe 1. -/
def tAtHalo : State := (((tWith tCore [tStripes]).setCore 0 { coreDefault 0 with
  owner := 1
  hand := List.replicate 4 (some (tTile 1)) }).setField (pgSEM 0) oSEM_REPORT_TICKS 31 0 100)

theorem test_LendAndReport_halo : tAtHalo.coreWaiting 0 = true ∧ (tAtHalo.core 0).reported = false ∧ tAtHalo.field (pgSEM 0) oSEM_REPORT_TICKS 31 0 ≠ 0 ∧
    ((tAtHalo.core 0).hand.filterMap id).head? = some (tTile 1) ∧ tAtHalo.cmd? ⟨0, 0⟩ = some tStripes ∧
    tStripes.halo.find? (fun h => h.2 = 1) = some (3, 1) := by decide +kernel

/-- The step's context can be read, of an empty batch; a record's forward list cannot where it starts with no record. -/
theorem test_ServingProgress_context : ((tStepping [tStep]).contextRead 1 (modelOf tModel) tStepRun).isOk = true ∧
    (({ tStepping [tStep] with errors := { State.reset.errors with poison := [0x410000] } } : State).contextRead 1 (modelOf tModel) tStepRun).isOk
      = false ∧ tStep.phase = .issued ∧
    (tRun.setPart 1 { tPart with setup := put8 tSetup (0x30, 0x700000000000) }).model? 1 0 = none := by decide +kernel

theorem test_ServingProgress_fates : (mapE ((tStepping [tStep]).fateOf 1 (modelOf tModel) tStepRun) []).isOk = true := rfl

/-- Where the model's pool has no frame, a pass has no pages; where its list is no record, its spawning fails. -/
def tNoPool : State := tMem (tPrefill.setPart 1 { tPrefill.part 1 with srv := { (tPrefill.part 1).srv with
  config := [(oSRV_SRV_CFG, 8 * 65536), (oSRV_HBM_POOL_LO, 0x600000)] } }) tAsk.dir (List.replicate 64 0xFF#8)

theorem test_ServingProgress_denied : (tNoPool.pagesFor 1 0 0 (modelOf tModel) tAsk 0 9).2 = none ∧
    (tServe.spawn 1 (passSeq 1 0) 0x420000 1).isOk = false ∧ tServeEnd.passTurn 1 0 = none := by decide +kernel

/-- The request of tPrefill is live. -/
theorem test_ServingSwitches_live : byAdmission (tPrefill.liveRequests 1) ≠ [] := by decide +kernel

/-- Partition 1 SUSPENDED with no record left, and with one that COMPL_QP cannot take. -/
def tAway (s : State) : State := s.setPart 1 { s.part 1 with st := .suspended }

theorem test_PartitionChanges_release : ((tAway tRun).part 1).st = .suspended ∧
    (((tAway tRun).setField (pgPRT 1) oPRT_PRT_CTRL 2 1 3).releaseStart 1).2 = true ∧
    (((tAway tRingDown).setField (pgPRT 1) oPRT_PRT_CTRL 2 1 3).releaseStart 1).2 = false := by decide +kernel

/-- A RUN of partition 2 from partition 1, and from nobody; and while partition 1 changes. -/
theorem test_PartitionChanges_run : ((tRun.setField (pgPRT 2) oPRT_PRT_CTRL 8 4 1).setField (pgPRT 2) oPRT_PRT_CTRL 2 1 1).field (pgPRT 2) oPRT_PRT_CTRL 8 4 = 1 ∧
    (((tRun.setPart 2 { tRun.part 2 with changing := some (31, 1) }).prtResult 2 15 0).runStart 2).2 = false ∧
    (∃ q ∈ partIds, ((tMid .suspending 0).part q).changing ≠ none) ∧ ((tMid .suspending 0).part 2).changing = none ∧
    (tMid .suspending 0).i3cAnswers (pgPRT 2) = true := by decide +kernel

theorem test_PartitionChangesEnd_past : (∃ c ∈ (tWith tRun [tIn tNop .applying]).cmds, c.part = 1 ∧
      (c.phase = .applying ∨ c.phase = .answering ∨ c.phase = .draining)) ∧ (tMid .suspending 0).cmds = [] ∧
    (tRun.setPart 2 { partFree with
      stage := 1
      changing := some (31, 1) }).runWaiting = some 2 ∧ (tRun.part 1).st ≠ .resuming := by decide +kernel

/-- A partition resuming with one page of DDR5 to preload. -/
def tPreload : State := tMem (tRun.setPart 1 { tPart with
  st := .resuming
  setup := put4 (put4 (put8 (put8 (put8 tSetup (0x58, 0x3000)) (0x60, ddrBase)) (0x68, 0x200000)) (0x50, 2)) (0x54, 1) }) 0x3000
    (leBytes 8 ddrBase ++ leBytes 8 0x200000)

theorem test_PartitionChangesEnd_preload : (∃ g ∈ tPreload.preloadPages 1, (tPreload.page g).own 1 = none) ∧ (tPreload.part 1).st = .resuming := by decide +kernel

/-- A page of flash on its way, and old frames of an HBM page: one with a reader that runs, then a free one. -/
def tReader : Cmd := tIn tNop .issued
def tOlds : State := (tWith tRun [tReader]).setPage 0 { pageDefault with old := [(7, [⟨0, 0⟩]), (8, [])] }

theorem test_PageMoves_old : (tOlds.page 0).old = [(7, [⟨0, 0⟩])] ++ (8, []) :: [] ∧
    (∃ c ∈ tOlds.cmds, c.running = true ∧ c.ref ∈ [(⟨0, 0⟩ : CmdRef)]) ∧ (∀ c ∈ tOlds.cmds, c.running = true → c.ref ∉ ([] : List CmdRef)) ∧
    pageZone (ddrBase / pageBytes) = .ddr ∧ pageZone (flsBase / pageBytes) = .fls ∧ tRun.flash.mapState ≠ 3 ∧
    (∀ c ∈ tRun.cmds, c.phase ≠ .applying) := by decide +kernel

/-- No open block and no room for one: nothing to take a relocated unit. A failed block of the band. A pass of the patrol over. -/
def tStuck : State := (tFlash 1 [(0, tClosed)]).setChan 0 { chanEmpty with
  dies := [tDie 1]
  relocs := [tReloc] }

theorem test_BlocksChange_clauses : (∀ d ∈ tStuck.liveDies 0, (tStuck.openBlock 0 d true).isNone = true) ∧
    ([0].filter (fun k => [(⟨0, 0, 0⟩ : BlockId)].any (fun b => blkKey b = k)) ≠ []) ∧
    (({ tBand with flash := { tBand.flash with patrolPos := 100000000 } } : State).patrolTotal ≤ 100000000) ∧
    patrolAt tBand.patrolPages 100000000 = none ∧
    (((tFlash 1 [(0, tClosed)]).flash.blocks.filter (fun e => keyCh e.1 = 0 && keyDie e.1 = 0 && e.2.st ≠ .free)).map (·.1)) = [0] ∧
    (tBand.blk 0).data = true := by decide +kernel

/-- A data unit that the map still names on its way. -/
theorem test_BlocksChange_mapped : ({ tReloc with unit := tUnit } : Reloc).unit.kind = 0 ∧
    tabFind (({ tMove with flash := { tMove.flash with map := [(5, (0, 0))] } } : State)).flash.map 5 = some (0, 0) := by decide +kernel

theorem test_RequesterAnswers_clauses : (∃ q ∈ partIds, (tLive.part q).nonFree = true ∧ (tLive.part q).complQp = 5) ∧
    (tLive.setField (pgPORT 0) oNETP_PORT_CFG 8 8 1).field (pgPORT 0) oNETP_PORT_CFG 8 8 = 1 ∧ tLive.field (pgPORT 0) oNETP_PORT_CFG 8 8 ≠ 1 ∧
    tLive.qpLive 9 = none ∧ tLive.qpLive 5 ≠ none := by decide +kernel

/-- Requests whose bodies, addresses or fields R430 refuses. -/
theorem test_ManagementActs_refused : regRangeBad (regBase + 2) 1 ≠ none ∧ regRangeBad (regBase + 0xFFC) 2 ≠ none ∧ beNat (beBytes 4 1025) = 1025 ∧
    fldBe [0#8, 1#8, 2#8, 16#8, 1#8] 3 1 = 16 ∧ fldBe [0#8, 1#8, 2#8, 1#8, 0#8] 4 1 = 0 ∧ within 3 1 5 1 = false ∧
    tWhy ((tTaken 0x04 hbmSize [1#8]).readBytes mgmtPart hbmSize 1) = some 0 := by decide +kernel

/-- A full mapping. -/
theorem test_ManagementActs_full (s : State) (h : s.net.fabric = (List.range 16384).map (fun i => (i, 1))) : 16384 ≤ s.net.fabric.length := by
  rw [h, List.length_map, List.length_range]

/-- A packet that opens its connection, one for a partition that takes none. -/
def tNew : FabHdr := { tPkt 9 with
  comm := 3#16
  flags := 1#8 }

theorem test_FabricReceives_opens : ((tFab.peerUp 1 tNew).rxFor 1 tNew).isSome = true ∧ ((tFab.peerUp 1 (tPkt 5)).rxFor 1 (tPkt 5)) = some tRx ∧
    (tFab.peerUp 1 { tPkt 5 with comm := 3#16 }).rxFor 1 { tPkt 5 with comm := 3#16 } = none ∧
    (tFab.setPart 1 { tPart with st := .suspended }).deaf 1 = true ∧
    tRx.place 70000 false = .outside := by decide +kernel

/-- Items of 65,536 accepted operations, none of them packet 5's, leave a SEMOP waiting. -/
theorem test_FabricReceives_busy (s : State) (h : s.item? { tPkt 5 with item := 0xFFFFFFFF#32 } = none) (hn : 65536 ≤ s.net.items.length) :
    (s.remoteOp (tPkt 5) 0 1 1).2 = some 2 := by
  have hb : s.itemBusy { tPkt 5 with item := 0xFFFFFFFF#32 } = true := by
    unfold State.itemBusy
    rw [h]
    exact decide_eq_true hn
  unfold State.remoteOp
  simp only [h, hb, if_true]

theorem test_FabricReceives_semops : (tAgain.remoteOp { tPkt 5 with item := 0xFFFFFFFF#32 } 0 1 1).2 = none := by decide +kernel

/-- 128 strobe periods have passed since the last check, or none; and die 0 has been adjusted in this period. -/
def tLate : State := { tRun with strobes := 128 }

theorem test_StrobePeriod_laggards : tLate.alive = true ∧ tLate.lagChecked < tLate.strobes / 128 ∧ tRun.strobes / 128 ≤ tRun.lagChecked ∧
    ((tLate.setDie 0 { tLate.die 0 with adjusted := 2 }).die 0).adjusted = tLate.strobes / 128 + 1 := by decide +kernel

theorem test_RailsAndClocks_islands : railIslands 9 ≠ 0 ∧ railIslands 10 ≠ 0 ∧ railIslands 8 ≠ 0 ∧ 0 ≤ railResetMv 9 ∧ 0 ≤ railResetMv 10 ∧
    (0 : Nat) ∉ tRun.start.clocksLost ∧ (1 : Nat) ∈ ({ tRun with start := { tRun.start with clocksLost := [1] } } : State).start.clocksLost ∧
    tHeld.alive = false := by decide +kernel

/-- A repair of a row that is being tested after it, and a core that has passed as often as ERR_CFG allows. -/
def tAfter : State := { tRun with errors := { tRun.errors with tests := [⟨.hbm 0x1000, [], true, false, true⟩] } }

theorem test_ErrorsAndTests_clauses : tAfter.errors.tests.find? (fun t => t.started && t.site = .hbm 0x1000) = some ⟨.hbm 0x1000, [], true, false, true⟩ ∧
    max 1 ((tTest (List.replicate 16 ⟨.coreUnit 3, 0⟩)).field pgERR oERR_ERR_CFG 3 0) ≤ (tTest (List.replicate 16 ⟨.coreUnit 3, 0⟩)).passCount (.coreUnit 3) ∧
    TestResult.pass ≠ TestResult.fail := by decide +kernel

/-- A list longer than a partition's tables can hold is never met at reset: the marks hold there. -/
theorem test_SettleKeeps : ∀ t ∈ tRun.net.txConns, t.down = true → t.backlog = [] := by decide +kernel

end Sys2Proof.Tests
end

section
/-! SUPPORT. Scope family: a write and a read of one block of the HBM zone, a commit of a page's pending fields, and a register
write by management or I3C; the statements O10, O31 and O33. -/

namespace Sys2Proof.Machine

/-! ### The HBM zone (R5, R353, R355, R479) -/

/-- What does not look at memory is the same after bytes are written at physical keys. -/
theorem putPhysList_keeps {α : Type} (g : State → α) (hg : ∀ (u : State) (m : Mem), g { u with mem := m } = g u) (s : State) (k : Nat)
    (bs : List Byte) : g (s.putPhysList k bs) = g s := by
  induction bs generalizing s k with
  | nil => rfl
  | cons b bs ih => exact (ih (s.putPhys k b) (k + 1)).trans (hg s _)

section
variable (s : State) (k : Nat) (bs : List Byte)

@[simp] theorem putPhysList_errors : (s.putPhysList k bs).errors = s.errors := putPhysList_keeps State.errors (fun _ _ => rfl) s k bs
@[simp] theorem putPhysList_cmds : (s.putPhysList k bs).cmds = s.cmds := putPhysList_keeps State.cmds (fun _ _ => rfl) s k bs
@[simp] theorem putPhysList_backed : (s.putPhysList k bs).backed = s.backed := putPhysList_keeps State.backed (fun _ _ => rfl) s k bs
@[simp] theorem putPhysList_hbmPhys : (s.putPhysList k bs).hbmPhys = s.hbmPhys := putPhysList_keeps State.hbmPhys (fun _ _ => rfl) s k bs

end

section
variable {s : State} {a i : Nat}

theorem zoneOf_hbm (ha : a < hbmSize) : zoneOf a = .hbm := if_pos ha

/-- A backed address of the HBM zone is the byte of its frame, for every partition and die (R355). -/
theorem locate_hbm (p : Nat) (d : Option Nat) (ha : a < hbmSize) (hb : s.backed a = true) :
    s.locate p d a = some (.phys (s.hbmPhys a)) := by
  simp only [State.locate, zoneOf_hbm ha, hb, if_true]

/-- Addresses of one 4 KiB block lie in one frame, at the same distance from each other. -/
theorem hbmPhys_add (h : a % 4096 + i < 4096) : s.hbmPhys (a + i) = s.hbmPhys a + i := by
  have hpage : (a + i) / pageBytes = a / pageBytes := by unfold pageBytes; omega
  have hoff : (a + i) % pageBytes = a % pageBytes + i := by unfold pageBytes; omega
  rw [State.hbmPhys, hpage, hoff, ← Nat.add_assoc, ← State.hbmPhys]

/-- A byte of the HBM zone reads as its physical byte where nothing is poisoned (R479) and no command is in flight, so that no span is
pending (R150). -/
theorem readByte_hbm (p : Nat) (ha : a < hbmSize) (hb : s.backed a = true) (hp : s.errors.poison = []) (hc : s.cmds = []) :
    s.readByte p none none a = .ok (s.physByte (s.hbmPhys a)) := by
  have hclean : s.poisoned (s.hbmPhys a) = false := by simp [State.poisoned, hp]
  have hclear : s.foggy none none a = false := by
    simp [State.foggy, State.pendingSpan, State.clouded, State.rawMoving, hc, zoneOf_hbm ha]
  simp [State.readByte, locate_hbm p none ha hb, State.locByte, hclean, hclear]

/-- A read answers the bytes that its single reads answer. -/
theorem readFor_of_readByte (p : Nat) (d : Option Nat) (me : Option CmdRef) (bs : List Byte)
    (h : ∀ i, i < bs.length → s.readByte p d me (a + i) = .ok (nth 0#8 bs i)) : s.readFor p d me a bs.length = .ok bs := by
  induction bs generalizing a with
  | nil => rfl
  | cons b bs ih =>
    have hhead : s.readByte p d me a = .ok b := h 0 (by simp)
    have htail : s.readFor p d me (a + 1) bs.length = .ok bs := ih fun i hi => by
      rw [Nat.add_assoc, Nat.add_comm 1 i]
      exact h (i + 1) (by simpa using hi)
    simp only [List.length_cons, State.readFor, hhead, htail]

end

/-- A range within one 4 KiB block is one piece. -/
theorem pieces_one_block {a n : Nat} (hn : 0 < n) (h : a % 4096 + n ≤ 4096) : pieces 4096 (n + 1) a n = [(a, n)] := by
  obtain ⟨n, rfl⟩ := Nat.exists_eq_succ_of_ne_zero hn.ne'
  have hmin : min (n + 1) (4096 - a % 4096) = n + 1 := by omega
  simp [pieces, hmin]

/-- A write of bytes of one block of backed HBM puts them behind the block's address and does nothing else, where nothing is poisoned. -/
theorem writePiece_hbm {s : State} (p a : Nat) (bs : List Byte) (ha : a < hbmSize) (hb : s.backed a = true) (hp : s.errors.poison = []) :
    s.writePiece p none a bs = s.putPhysList (s.hbmPhys a) bs := by
  have hkeys : s.writeKeys p none a = [s.hbmPhys a] := by simp only [State.writeKeys, zoneOf_hbm ha, locate_hbm p none ha hb]
  have hclean : (s.putPhysList (s.hbmPhys a) bs).errors.poison = [] := by rw [putPhysList_errors, hp]
  simp only [State.writePiece, locate_hbm p none ha hb, hkeys, List.foldl_cons, List.foldl_nil, zoneOf_hbm ha, hclean, List.filter_nil]
  -- what is left of the poison, none, is what there was
  rw [← hclean]

/-- A write within one 4 KiB block of backed HBM that is made puts its bytes behind the address (R353, R355). -/
theorem writeFor_hbm_block {s t : State} {p a : Nat} {bs : List Byte} (hp : s.errors.poison = []) (hz : a + bs.length ≤ hbmSize)
    (hblk : a % 4096 + bs.length ≤ 4096) (hb : ∀ i, i < bs.length → s.backed (a + i) = true) (hw : s.writeFor p none a bs = .ok t) :
    t = s.putPhysList (s.hbmPhys a) bs := by
  have hfold : t = (pieces 4096 (bs.length + 1) a bs.length).foldl
      (fun s e => s.writePiece p none e.1 ((bs.drop (e.1 - a)).take e.2)) s := by
    unfold State.writeFor at hw
    split at hw
    · cases hw
    · split at hw
      · cases hw
      · exact (Except.ok.inj hw).symm
  rcases Nat.eq_zero_or_pos bs.length with h0 | hpos
  · rw [hfold, List.length_eq_zero_iff.mp h0]; rfl
  · rw [hfold, pieces_one_block hpos hblk]
    simpa using writePiece_hbm p a bs (by omega) (hb 0 hpos) hp

/-- Settles O10: the write puts its bytes behind one run of physical keys, and a read of the block goes to the same keys. -/
theorem hbmReadsBack : Obligations.HbmReadsBack := by
  intro s t p a bs hwf hp hc hz hblk hb hw
  obtain rfl := writeFor_hbm_block hp hz hblk hb hw
  refine ⟨readFor_of_readByte p none none bs fun i hi => ?_, fun k hk => ?_⟩
  · have hback : (s.putPhysList (s.hbmPhys a) bs).backed (a + i) = true := by rw [putPhysList_backed, hb i hi]
    rw [readByte_hbm p (by omega) hback (by simpa using hp) (by simpa using hc), putPhysList_hbmPhys, hbmPhys_add (by omega),
      putPhysList_physByte _ _ _ hwf, if_pos (by omega), Nat.add_sub_cancel_left]
  · rw [putPhysList_physByte _ _ _ hwf, if_neg (by omega)]

/-! ### Commits of shadow registers (R10) -/

/-- Each row of shadow commits is a commit of the page it names, where that page answers. -/
theorem exec_of_commitRow {i : Instr} {page : Nat} {s : State} (h : commitRow i = some page) :
    exec i s = onPage s page (done (s.commitPage page)) := by
  unfold commitRow at h
  split at h
  · cases h; exact exec_shadowCommit _
  · cases h; exact exec_streamListCommit _
  · cases h; exact exec_portModeCommit _
  · cases h; exact exec_textSlotCommit _
  · cases h

section
variable {s : State} {page n : Nat} {k : PageKind}

/-- A commit with no field pending leaves the state. -/
theorem commitPage_idle (h : s.pendingCm page = []) : s.commitPage page = s := by
  unfold State.commitPage
  split
  · rfl
  · simp only [h, if_true]

/-- A commit of an MDL page with changes pending commits its slots (R265). -/
theorem commitPage_mdl (hk : pageOf page = some (.mdl, n)) (h : s.pendingCm page ≠ []) :
    s.commitPage page =
      State.commitSlots { s with shadow := s.shadow.filter (fun e => (shadowName e.1).1 ≠ page) } n (s.pendingCm page) := by
  simp only [State.commitPage, hk, h, if_false, if_true]

/-- A commit of any other page with changes pending applies every pending field, counts, and sets off what its home chapter ties to it. -/
theorem commitPage_fields (hk : pageOf page = some (k, n)) (hm : k ≠ .mdl) (h : s.pendingCm page ≠ []) :
    s.commitPage page =
      (let t : State := { s with shadow := s.shadow.filter (fun e => (shadowName e.1).1 ≠ page) }
       ((t.applyCm k page (s.pendingCm page)).hdrCount page oHDR_COMMITS).commitAction k n ((s.pendingCm page).map (·.1)) t) := by
  simp only [State.commitPage, hk, hm, h, if_false]

end

/-- Settles O31: the four rows are one commit, and a commit's cases are those of the page that it names. -/
theorem shadowCommits : Obligations.ShadowCommits := by
  intro i page s k n hrow hk
  rw [exec_of_commitRow hrow]
  refine ⟨fun hidle => ?_, fun hans hpend => ?_⟩
  · rcases Bool.eq_false_or_eq_true (s.i3cAnswers page) with hans | hsil
    · have hnone : s.pendingCm page = [] := hidle.resolve_left (by simp [hans])
      rw [onPage_of_answers hans, commitPage_idle hnone, done]
    · exact onPage_of_silent hsil _
  · rw [onPage_of_answers hans]
    refine ⟨fun hm => ?_, fun hm => ?_⟩
    · subst hm
      rw [commitPage_mdl hk hpend, done]
    · rw [commitPage_fields hk hm hpend, done]

/-! ### Register writes (R6, R522, R525, R526, R530) -/

/-- A write that a master is heard with, of an aligned word of a page, is made. -/
theorem exec_registerWrite_of_heard {s : State} {m : RegMaster} {page off : Nat} (v : Word) (hh : s.heard m page = true)
    (ha : off % 4 = 0) (ho : off < 0x1000) (hp : page < 0x580) :
    exec (.registerWrite m page off v) s = .next (s.regWrite m page off v).settle :=
  (exec_registerWrite m page off v).trans (if_pos (by simp [hh, ha, ho, hp]))

/-- Any other write does nothing. -/
theorem exec_registerWrite_of_unheard {s : State} {m : RegMaster} {page off : Nat} (v : Word)
    (h : s.heard m page = false ∨ off % 4 ≠ 0 ∨ 0x1000 ≤ off ∨ 0x580 ≤ page) :
    exec (.registerWrite m page off v) s = .next s.settle :=
  (exec_registerWrite m page off v).trans (if_neg (by
    simp only [Bool.and_eq_true, decide_eq_true_eq]
    rintro ⟨⟨⟨hh, ha⟩, ho⟩, hp⟩
    rcases h with h | h | h | h
    · simp [hh] at h
    · exact h ha
    · exact h.not_gt ho
    · exact h.not_gt hp))

/-- No register of a page's header takes writes from I3C only. -/
theorem i3cOnly_header (k : PageKind) {off : Nat} (h : off < 0x40) : i3cOnly k off = false := by
  unfold i3cOnly
  split <;> simp [oSEC_KEY_SEL, oSEC_KEY_CTRL, oMGT_SVN_CTRL, oMGT_DEBUG_CTRL] <;> omega

section
variable {s : State} {m : RegMaster} {page off n : Nat} {k : PageKind} (v : Word)

/-- Management and I3C write nothing to an absent page (R522). -/
theorem regWrite_absent (hm : m = .mgmt ∨ m = .i3c) (hk : pageOf page = none) : s.regWrite m page off v = s := by
  rcases hm with rfl | rfl <;> simp only [State.regWrite, hk]

/-- Management may not write what only I3C writes (R498, R515). -/
theorem regWrite_denied (hk : pageOf page = some (k, n)) (hi : i3cOnly k off = true) :
    s.regWrite .mgmt page off v = s.regDenied .mgmt page off := by
  simp [State.regWrite, hk, hi]

/-- What management or I3C may write is written, whatever windows and directories hold for control cores. -/
theorem regWrite_granted (hm : m = .mgmt ∨ m = .i3c) (hk : pageOf page = some (k, n)) (hi : m = .i3c ∨ i3cOnly k off = false) :
    s.regWrite m page off v = if off < 0x40 then s.writeHeader k page off v else s.writeBlock k n page off v := by
  have hwindow : s.regAllowed m k n off (some v) = true := by rcases hm with rfl | rfl <;> rfl
  have hdir : s.dirDenied m k n off = none := by rcases hm with rfl | rfl <;> rfl
  rcases hi with rfl | hi
  · simp [State.regWrite, hk, hwindow, hdir]
  · simp [State.regWrite, hk, hwindow, hdir, hi]

/-- ERR_STATUS clears the bits written as 1 (R525, R526). -/
theorem writeHeader_errStatus : s.writeHeader k page oHDR_ERR_STATUS v =
    s.setStored page oHDR_ERR_STATUS 0 (s.stored page oHDR_ERR_STATUS 0 &&& ~~~ v) := rfl

/-- ERR_MASK and EVENT_EN take the bits that the page defines. -/
theorem writeHeader_mask (h : off = oHDR_ERR_MASK ∨ off = oHDR_EVENT_EN) :
    s.writeHeader k page off v = s.setStored page off 0 (v &&& errMask k) := by
  rcases h with rfl | rfl <;> rfl

end

/-- Settles O33: a heard write is `regWrite`, and for management and I3C its guards leave the header and the block registers. -/
theorem registerWrites : Obligations.RegisterWrites := by
  intro s m page off v
  refine ⟨exec_registerWrite_of_unheard v, exec_registerWrite_of_heard v, fun hh ha ho hp hm => ?_⟩
  rw [exec_registerWrite_of_heard v hh ha ho hp]
  refine ⟨fun hk => by rw [regWrite_absent v hm hk], fun k n hk => ?_⟩
  have header : off < 0x40 → s.regWrite m page off v = s.writeHeader k page off v := fun h => by
    rw [regWrite_granted v hm hk (.inr (i3cOnly_header k h)), if_pos h]
  refine ⟨fun h => by rw [header h], ?_, fun h => ?_, ?_, fun h hi => ?_⟩
  · rintro rfl
    rw [header (by decide), writeHeader_errStatus]
  · have hlow : off < 0x40 := by rcases h with rfl | rfl <;> decide
    rw [header hlow, writeHeader_mask v h]
  · rintro - rfl hi
    rw [regWrite_denied v hk hi]
  · rw [regWrite_granted v hm hk hi, if_neg h.not_gt]

end Sys2Proof.Machine
end

section
/-! SUPPORT. Griddle family: every command ends settled, PEAK fields after settling and what settling does to a quiet state (O3, O4, O6); a
griddle's next unit (O27), halo semaphores and the pass watchdog (O28), counter clears (O32), the strobe period (O54), rails and clocks (O55). -/

namespace Sys2Proof.Machine

/-! ### Tables and fields that are written -/

section
variable {α : Type} [DecidableEq α] {d e : α}

/-- A value that is not the default is listed: it reads back from its key, and every other key reads as before, in any table. -/
theorem tabGet_tabPut_listed (t : Tab α) {i j : Nat} {v : α} (hv : v ≠ d) :
    tabGet e (tabPut d t i v) j = if j = i then v else tabGet e t j := by
  induction t with
  | nil => by_cases hj : j = i <;> simp [tabPut, tabGet, hv, hj]
  | cons x t ih =>
    obtain ⟨k, w⟩ := x
    simp only [tabPut, hv, if_false]
    rcases lt_trichotomy i k with h | h | h
    · rw [if_pos h]
      by_cases hj : j = i
      · simp [tabGet, hj]
      · by_cases hlt : j < i
        · simp [tabGet, hj, hlt, show j ≠ k by omega, show j < k by omega]
        · simp [tabGet, hj, hlt]
    · subst h
      by_cases hj : j = i <;> simp [tabGet, hj]
    · rw [if_neg h.not_gt, if_neg h.ne']
      simp only [tabGet, ih]
      by_cases hj : j = i
      · simp [hj, h.ne', h.not_gt]
      · simp [hj]

end

/-- 2^b - 2^a has the bits from a up to b. -/
theorem testBit_two_pow_sub_two_pow {a b : Nat} (h : a ≤ b) (i : Nat) :
    (2 ^ b - 2 ^ a).testBit i = (decide (a ≤ i) && decide (i < b)) := by
  have he : 2 ^ b - 2 ^ a = 2 ^ a * (2 ^ (b - a) - 1) := by
    rw [Nat.mul_sub, ← pow_add, Nat.add_sub_cancel' h, mul_one]
  rw [he, Nat.testBit_two_pow_mul, Nat.testBit_two_pow_sub_one]
  by_cases hi : a ≤ i
  · simp [hi]; omega
  · simp [hi]

/-- A mask has the bits of its field. -/
theorem getLsbD_fieldMask {hi lo : Nat} (hl : lo ≤ hi + 1) (hh : hi < 32) (i : Nat) :
    (fieldMask hi lo).getLsbD i = (decide (lo ≤ i) && decide (i ≤ hi)) := by
  rw [fieldMask, BitVec.getLsbD_ofNat, testBit_two_pow_sub_two_pow hl, Bool.eq_iff_iff]
  simp only [Bool.and_eq_true, decide_eq_true_eq]
  omega

/-- A field reads back what was put into it, where that fits (R5). -/
theorem bits_putField (w : Word) {hi lo v : Nat} (hl : lo ≤ hi) (hh : hi < 32) (hv : v < 2 ^ (hi + 1 - lo)) :
    bits (putField w hi lo v).toNat hi lo = v := by
  apply Nat.eq_of_testBit_eq
  intro i
  have hbit : (bits (putField w hi lo v).toNat hi lo).testBit i =
      (decide (i < hi + 1 - lo) && (putField w hi lo v).getLsbD (lo + i)) := by
    rw [bits, Nat.testBit_mod_two_pow, ← Nat.shiftRight_eq_div_pow, Nat.testBit_shiftRight, BitVec.testBit_toNat]
  rw [hbit]
  by_cases hi' : i < hi + 1 - lo
  · have hm := getLsbD_fieldMask (hi := hi) (lo := lo) (by omega) hh (lo + i)
    have h1 : lo + i ≤ hi := by omega
    have h2 : lo + i < 32 := by omega
    simp only [putField, BitVec.getLsbD_or, BitVec.getLsbD_and, BitVec.getLsbD_not, BitVec.getLsbD_ofNat, hm, Nat.testBit_mul_two_pow]
    simp [hi', h1, h2]
  · have := Nat.testBit_lt_two_pow (lt_of_lt_of_le hv (Nat.pow_le_pow_right two_pos (not_lt.mp hi')))
    simp [hi', this]

/-! ### PEAK fields -/

/-- The PEAK fields of INFLIGHT, CANCEL_USE, TRY_PEAK and CONN_USE (R82, R164, R330, R452). -/
inductive Mark where
  | inflight (p : Nat)
  | cancels (p : Nat)
  | tray (c : Nat)
  | contexts

namespace Mark

/-- The page is there: 16 partitions, 208 cores. -/
def Present : Mark → Prop
  | inflight p | cancels p => p < 16
  | tray c => c < 208
  | contexts => True

def page : Mark → Nat
  | inflight p => pgCMD p
  | cancels p => pgSRV p
  | tray c => pgTRY c
  | contexts => pgFABRIC

def off : Mark → Nat
  | inflight _ => oCMD_INFLIGHT
  | cancels _ => oSRV_CANCEL_USE
  | tray _ => oTRY_TRY_PEAK
  | contexts => oNETB_CONN_USE

def hi : Mark → Nat
  | inflight _ => 25
  | cancels _ => 28
  | tray _ => 12
  | contexts => 31

def lo : Mark → Nat
  | inflight _ => 16
  | cancels _ => 16
  | tray _ => 0
  | contexts => 16

/-- One more than what the field can hold. -/
def width : Mark → Nat
  | inflight _ => 1024
  | cancels _ | tray _ => 8192
  | contexts => 65536

theorem width_eq (m : Mark) : m.width = 2 ^ (m.hi + 1 - m.lo) := by cases m <;> simp [width, lo, hi]

theorem lo_le_hi (m : Mark) : m.lo ≤ m.hi := by cases m <;> simp [lo, hi]

theorem hi_lt (m : Mark) : m.hi < 32 := by cases m <;> simp [hi]

/-- An amount modulo the width of a mark fits it. -/
theorem fits (m : Mark) (v : Nat) : v % m.width < m.width := Nat.mod_lt _ (by cases m <;> simp [width])

/-- The registers of the marks read 0 at reset. -/
theorem reset_zero {m : Mark} (h : m.Present) : ∃ k n, pageOf m.page = some (k, n) ∧ resetWord k m.off 0 = 0#32 := by
  have cmd : ∀ p : Fin 16, pageOf (pgCMD p) = some (.cmd, p.val) := by decide
  have srv : ∀ p : Fin 16, pageOf (pgSRV p) = some (.srv, p.val) := by decide
  have tray : ∀ c : Fin 208, pageOf (pgTRY c) = some (.tray, c.val) := by decide +kernel
  cases m with
  | inflight p => exact ⟨_, _, cmd ⟨p, h⟩, rfl⟩
  | cancels p => exact ⟨_, _, srv ⟨p, h⟩, rfl⟩
  | tray c => exact ⟨_, _, tray ⟨c, h⟩, rfl⟩
  | contexts => exact ⟨_, _, rfl, rfl⟩

/-- No two marks share a register. -/
theorem eq_of_regKey_eq {m n : Mark} (hm : m.Present) (hn : n.Present) (h : regKey m.page m.off 0 = regKey n.page n.off 0) : m = n := by
  cases m <;> cases n <;>
    simp only [regKey, page, off, pgCMD, pgSRV, pgTRY, pgFABRIC, oCMD_INFLIGHT, oSRV_CANCEL_USE, oTRY_TRY_PEAK, oNETB_CONN_USE, Present,
      inflight.injEq, cancels.injEq, tray.injEq] at h hm hn ⊢ <;> omega

end Mark

/-- What a mark stands at. -/
def State.mark (s : State) (m : Mark) : Nat := s.field m.page m.off m.hi m.lo

/-- A mark raised to v where v is larger. -/
def State.raiseMark (s : State) (m : Mark) (v : Nat) : State := s.peak m.page m.off m.hi m.lo v

section
variable {s : State} {m n : Mark} {v : Nat}

/-- A mark that stands high enough stays as it is. -/
theorem raiseMark_of_le (h : v ≤ s.mark m) : s.raiseMark m v = s := if_neg (not_lt.mpr h)

/-- What a mark's register holds after the mark was set to more than it stood at: every other mark's register is as before. -/
theorem mark_setField (hm : m.Present) (hn : n.Present) (hv : v < m.width) (hlt : s.mark m < v) :
    (s.setField m.page m.off m.hi m.lo v).mark n =
      bits (if regKey n.page n.off 0 = regKey m.page m.off 0 then putField (s.stored m.page m.off 0) m.hi m.lo v
        else s.stored n.page n.off 0).toNat n.hi n.lo := by
  obtain ⟨k, i, hk, hz⟩ := Mark.reset_zero hm
  obtain ⟨k', i', hk', -⟩ := Mark.reset_zero hn
  have hne : putField (s.stored m.page m.off 0) m.hi m.lo v ≠ resetWord k m.off 0 := by
    intro h0
    have hput := bits_putField (s.stored m.page m.off 0) m.lo_le_hi m.hi_lt (m.width_eq ▸ hv)
    rw [h0, hz] at hput
    simp [bits] at hput
    omega
  simp only [State.mark, State.field, State.setField, State.setStored, hk, State.stored, hk'] at hne ⊢
  rw [tabGet_tabPut_listed _ hne]

/-- A mark raised to an amount that fits it is not below it. -/
theorem le_raiseMark (hm : m.Present) (hv : v < m.width) : v ≤ (s.raiseMark m v).mark m := by
  rcases le_or_gt v (s.mark m) with h | h
  · rwa [raiseMark_of_le h]
  · have hset : s.raiseMark m v = s.setField m.page m.off m.hi m.lo v := if_pos h
    rw [hset, mark_setField hm hm hv h, if_pos rfl, bits_putField _ m.lo_le_hi m.hi_lt (m.width_eq ▸ hv)]

/-- Raising a mark lowers none. -/
theorem mark_le_raiseMark (hm : m.Present) (hn : n.Present) (hv : v < m.width) : s.mark n ≤ (s.raiseMark m v).mark n := by
  rcases le_or_gt v (s.mark m) with h | h
  · rw [raiseMark_of_le h]
  · by_cases he : n = m
    · subst he
      exact h.le.trans (le_raiseMark hm hv)
    · have hset : s.raiseMark m v = s.setField m.page m.off m.hi m.lo v := if_pos h
      rw [hset, mark_setField hm hn hv h, if_neg fun hkey => he (Mark.eq_of_regKey_eq hn hm hkey)]
      rfl

end

/-! ### Every command ends settled -/

/-- An outcome is a next state, and that settled. -/
def Settles (o : Host.Outcome State Fault Refusal) : Prop := ∃ u : State, o = .next u.settle

section
variable {α ε : Type} {s : State} {o a b : Host.Outcome State Fault Refusal}

theorem settles_done : Settles (done s) := ⟨s, rfl⟩

theorem settles_ite {c : Prop} [Decidable c] (ha : Settles a) (hb : Settles b) : Settles (if c then a else b) := by
  split
  · exact ha
  · exact hb

theorem settles_awake (h : Settles o) : Settles (awake s o) := settles_ite h settles_done

theorem settles_onPage {g : Nat} (h : Settles o) : Settles (onPage s g o) := settles_ite h settles_done

end

/-- Every command answers a settled state: the branches of its meaning all end in `done`. -/
theorem exec_settles (i : Instr) (s : State) : Settles (exec i s) := by
  have here : ∀ {t : State}, Settles (done t) := settles_done
  cases i
  case nop | product | attend | gather | scatterAdd | search | select | tokenize | detokenize | pack | stepGenerate | stepAdmit |
      stepCancel | copy | migrate | collect | semop | tableSwitch | indexMerge | listCapsule | commandIssue | commandCommit |
      recordWrite | linkDown | mgmtReadReg | mgmtWriteReg | qpSet | qpGet | fabricSet | commSet | saSet | identify | fabricData |
      fabricSemop | fabricSemReply | cancelNotice | cancelAck | cancelConfirm | cancelDefer | fabricLag | fabricRelease | ackDelayTimer
      | i3cEntdaa | sendCapsule | cnpReceived | roceAck | roceRnrNak | mgmtReadMem | mgmtWriteMem | connectionIdle | clockLost | vbatLow
      | oscStop | porNAssert =>
    exact here
  case cancel | textSlotCommit | handleDrop | servingEnable | servingDisable | prtRun | prtSuspend | prtRelease | shadowCommit |
      streamListCommit | portModeCommit | portRestore | flashFlush | flashShutdown | flashFormat | keyLoad | keyLock | keyClear |
      attestationGo | measurementExtend | svnCommit | debugOpen | calendarSet | secLoLatch | energyLoLatch | headerCounterClear =>
    exact settles_onPage here
  case arbGrantDone | paceCalTimeout | correctedError | uncorrectedError =>
    exact settles_awake here
  case lend | suspendCommitsDone | writebackDone | pageCopyDone | wordLineProgrammed | writeBufferTimeout | mapLoadDone | mapRebuildDone
      | oldBlockErase | programFailure | eraseFailure | dieLost | pfcFrame | roceRdmaWrite | roceRdmaRead | strobeEdge | deviceRailReset
      | registerWrite | warmNAssert | resetRelease | readyRise | flashChannelsTrained =>
    exact settles_ite here here
  case readVerify | arpRequest | neighborSolicitation | icmpEcho | roceAckTimeout | supplyWarning | supplyRecover | coreRailReset |
      islandRailReset | i3cPrivateWrite | i3cPrivateRead | hbmTrained | ddrTrained =>
    exact settles_ite here (settles_ite here here)
  case semValueWrite | counterClear => exact settles_onPage (settles_ite here here)
  case laggardCheck => exact settles_awake (settles_ite here here)
  case clockRestored => exact settles_ite (settles_ite here here) here
  case bootVerified => exact settles_ite here (settles_ite here (settles_ite here here))
  case tierClearDone => exact settles_ite here (settles_ite (settles_ite here here) (settles_ite here here))
  case preloadDone => exact settles_ite here (settles_ite here (settles_ite here (settles_ite here here)))
  case arbRequest => exact settles_awake (settles_ite here (settles_ite here (settles_ite here (settles_ite here here))))
  case retrain island => cases island <;> exact settles_awake here
  case intakeEntry | listRecordAccept | tableSwitchDrain | takeUnit | haloCopy | passWatchdog | longWait | stepBoundary |
      prefillPassStart | prefillPassCommit | funnelFillStart | oldFrameRelease | arbWatchdog | reclaim | wearLevel | fold |
      relocationDone | patrolStep | unitLost | linkUp | readyMessage | fabricAck | fabricNack | fabricRto | nackResendTimer | rateUpdate
      | thermalTrip | selfTestDone | attestationDone | refresh | invalidRequest | stray | tapInstruction =>
    dsimp only [exec, execIntakeEntry, execListRecordAccept, execTableSwitchDrain, execTakeUnit, execHaloCopy, execPassWatchdog,
      execLongWait, execStepBoundary, execPrefillPassStart, execPrefillPassCommit, execFunnelFillStart, execOldFrameRelease,
      execArbWatchdog, execReclaim, execWearLevel, execFold, execRelocationDone, execPatrolStep, execUnitLost, execLinkUp,
      execReadyMessage, execFabricAck, execFabricNack, execFabricRto, execNackResendTimer, execRateUpdate, execThermalTrip,
      execSelfTestDone, execAttestationDone, execRefresh, execInvalidRequest, execStray, execTapInstruction]
    repeat' (first | with_reducible exact here | split)

/-! ### Marks after settling -/

section
variable {β γ : Type} {f : β → γ → β} {l : List γ}

/-- A fold each of whose steps brings about its own fact, and none of whose steps undoes another's, brings about all of them. -/
theorem foldl_reaches {P : γ → β → Prop} (hset : ∀ b, ∀ a ∈ l, P a (f b a))
    (hkeep : ∀ b, ∀ a ∈ l, ∀ c ∈ l, P c b → P c (f b a)) (b : β) :
    ∀ c ∈ l, P c (l.foldl f b) := by
  induction l generalizing b with
  | nil => simp
  | cons a l ih =>
    have tail := ih (fun b x hx => hset b x (List.mem_cons_of_mem a hx))
      (fun b x hx y hy => hkeep b x (List.mem_cons_of_mem a hx) y (List.mem_cons_of_mem a hy)) (f b a)
    intro c hc
    rcases List.mem_cons.mp hc with rfl | hc
    · exact List.foldlRecOn l f (motive := P c) (hset b c (List.mem_cons_self ..))
        fun b' hb' x hx => hkeep b' x (List.mem_cons_of_mem c hx) c (List.mem_cons_self ..) hb'
    · exact tail c hc

/-- A fold none of whose steps moves b leaves b. -/
theorem foldl_fixed {b : β} (h : ∀ a ∈ l, f b a = b) : l.foldl f b = b := by
  induction l with
  | nil => rfl
  | cons a l ih =>
    rw [List.foldl_cons, h a (List.mem_cons_self ..)]
    exact ih fun x hx => h x (List.mem_cons_of_mem a hx)

end

section
variable (s : State)

@[simp] theorem raiseMark_cores (m : Mark) (v : Nat) : (s.raiseMark m v).cores = s.cores := by simp [State.raiseMark]
@[simp] theorem raiseMark_net (m : Mark) (v : Nat) : (s.raiseMark m v).net = s.net := by simp [State.raiseMark]
@[simp] theorem raiseMark_inflight (m : Mark) (v p : Nat) : (s.raiseMark m v).inflight p = s.inflight p := by
  simp [State.raiseMark, State.inflight]
@[simp] theorem raiseMark_part (m : Mark) (v p : Nat) : (s.raiseMark m v).part p = s.part p := by
  simp [State.raiseMark, State.part]

/-- The marks of partition p are not below what it has in flight and in its cancel table. -/
def State.partMarked (s : State) (p : Nat) : Prop :=
  s.inflight p % 1024 ≤ s.mark (.inflight p) ∧ (s.part p).srv.cancelUse % 8192 ≤ s.mark (.cancels p)

/-- The mark of a core's tray is not below what the entry of the core table says. -/
def State.trayMarked (s : State) (e : Nat × Core) : Prop := e.1 < 208 → e.2.trayNow.1 % 8192 ≤ s.mark (.tray e.1)

/-- The mark of the connection contexts is not below those in use. -/
def State.contextsMarked (s : State) : Prop := s.contexts % 65536 ≤ s.mark .contexts

/-- The four marks by their names. -/
theorem marksHold_iff : s.marksHold ↔ (∀ p ∈ partIds, s.partMarked p) ∧ (∀ e ∈ s.cores, s.trayMarked e) ∧ s.contextsMarked :=
  ⟨fun ⟨hp, hc, ht, hn⟩ => ⟨fun p h => ⟨hp p h, hc p h⟩, ht, hn⟩,
    fun ⟨hp, ht, hn⟩ => ⟨fun p h => (hp p h).1, fun p h => (hp p h).2, ht, hn⟩⟩

/-- The two marks of a partition follow. -/
def State.peakPart (s : State) (p : Nat) : State :=
  (s.raiseMark (.inflight p) (s.inflight p % 1024)).raiseMark (.cancels p) ((s.part p).srv.cancelUse % 8192)

/-- The mark of a core's tray follows. -/
def State.peakTray (s : State) (e : Nat × Core) : State := s.raiseMark (.tray e.1) (e.2.trayNow.1 % 8192)

@[simp] theorem peakPart_cores (p : Nat) : (s.peakPart p).cores = s.cores := by simp [State.peakPart]
@[simp] theorem peakPart_net (p : Nat) : (s.peakPart p).net = s.net := by simp [State.peakPart]
@[simp] theorem peakTray_cores (e : Nat × Core) : (s.peakTray e).cores = s.cores := raiseMark_cores ..
@[simp] theorem peakTray_net (e : Nat × Core) : (s.peakTray e).net = s.net := raiseMark_net ..

/-- The entries of the core table whose tray marks follow: trays in use. -/
def State.traysInUse (s : State) : Tab Core := s.cores.filter (fun e => e.1 < 208 && e.2.trayNow.1 ≠ 0)

theorem mem_traysInUse {e : Nat × Core} : e ∈ s.traysInUse ↔ e ∈ s.cores ∧ e.1 < 208 ∧ e.2.trayNow.1 ≠ 0 := by
  simp [State.traysInUse]

theorem trayPeaks_eq : s.trayPeaks = s.traysInUse.foldl State.peakTray s := rfl

theorem peaks_eq : s.peaks = partIds.foldl State.peakPart (s.trayPeaks.raiseMark .contexts (s.contexts % 65536)) := rfl

end

section
variable {s : State} {m n : Mark}

theorem mark_le_peakPart {p : Nat} (hp : p < 16) (hn : n.Present) : s.mark n ≤ (s.peakPart p).mark n :=
  (mark_le_raiseMark (m := .inflight p) hp hn (Mark.fits (.inflight p) _)).trans
    (mark_le_raiseMark (m := .cancels p) hp hn (Mark.fits (.cancels p) _))

theorem peakPart_partMarked {p : Nat} (hp : p < 16) : (s.peakPart p).partMarked p := by
  refine ⟨?_, ?_⟩
  · simp only [State.peakPart, raiseMark_inflight]
    exact (le_raiseMark (m := .inflight p) hp (Mark.fits (.inflight p) _)).trans
      (mark_le_raiseMark (m := .cancels p) hp hp (Mark.fits (.cancels p) _))
  · simp only [State.peakPart, raiseMark_part]
    exact le_raiseMark (m := .cancels p) hp (Mark.fits (.cancels p) _)

theorem partMarked_peakPart {p q : Nat} (hp : p < 16) (hq : q < 16) (h : s.partMarked q) : (s.peakPart p).partMarked q := by
  obtain ⟨hin, hcan⟩ := h
  refine ⟨?_, ?_⟩
  · simpa [State.peakPart] using hin.trans (mark_le_peakPart (n := .inflight q) hp hq)
  · simpa [State.peakPart] using hcan.trans (mark_le_peakPart (n := .cancels q) hp hq)

theorem trayPeaks_trayMarked {e : Nat × Core} (he : e ∈ s.cores) : s.trayPeaks.trayMarked e := by
  intro hlt
  by_cases h0 : e.2.trayNow.1 = 0
  · simp [h0]
  · have low : ∀ a ∈ s.traysInUse, a.1 < 208 := fun a ha => ((mem_traysInUse s).mp ha).2.1
    rw [trayPeaks_eq]
    exact foldl_reaches (P := fun (e : Nat × Core) (t : State) => e.2.trayNow.1 % 8192 ≤ t.mark (.tray e.1))
      (fun t a ha => le_raiseMark (m := .tray a.1) (low a ha) (Mark.fits (.tray a.1) _))
      (fun t a ha c hc h => h.trans
        (mark_le_raiseMark (m := .tray a.1) (n := .tray c.1) (low a ha) (low c hc) (Mark.fits (.tray a.1) _))) s e
      ((mem_traysInUse s).mpr ⟨he, hlt, h0⟩)

/-- A fold of the partitions' marks lowers no mark. -/
theorem mark_le_peakParts (hn : n.Present) : s.mark n ≤ (partIds.foldl State.peakPart s).mark n :=
  List.foldlRecOn partIds State.peakPart (motive := fun t => s.mark n ≤ t.mark n) le_rfl
    fun _ h _ hp => h.trans (mark_le_peakPart (List.mem_range.mp hp) hn)

@[simp] theorem trayPeaks_cores (s : State) : s.trayPeaks.cores = s.cores := by
  rw [trayPeaks_eq, foldl_keeps State.cores _ peakTray_cores]
@[simp] theorem trayPeaks_net (s : State) : s.trayPeaks.net = s.net := by
  rw [trayPeaks_eq, foldl_keeps State.net _ peakTray_net]

/-- The PEAK fields are not below what they mark once they have followed it, from whatever state. -/
theorem peaks_marksHold (s : State) : s.peaks.marksHold := by
  have hcores : s.peaks.cores = s.cores := by
    rw [peaks_eq, foldl_keeps State.cores _ peakPart_cores, raiseMark_cores, trayPeaks_cores]
  have hnet : s.peaks.net = s.net := by
    rw [peaks_eq, foldl_keeps State.net _ peakPart_net, raiseMark_net, trayPeaks_net]
  have hmark : ∀ n : Mark, n.Present → (s.trayPeaks.raiseMark .contexts (s.contexts % 65536)).mark n ≤ s.peaks.mark n := fun n hn => by
    rw [peaks_eq]
    exact mark_le_peakParts hn
  refine (marksHold_iff _).mpr ⟨fun p hp => ?_, fun e he hlt => ?_, ?_⟩
  · rw [peaks_eq]
    exact foldl_reaches (P := fun p t => State.partMarked t p) (fun t p hp => peakPart_partMarked (List.mem_range.mp hp))
      (fun t p hp q hq h => partMarked_peakPart (List.mem_range.mp hp) (List.mem_range.mp hq) h) _ p hp
  · rw [hcores] at he
    exact (trayPeaks_trayMarked he hlt).trans
      ((mark_le_raiseMark (m := .contexts) (n := .tray e.1) trivial hlt (Mark.fits .contexts _)).trans (hmark (.tray e.1) hlt))
  · have hsame : s.peaks.contexts = s.contexts := by simp only [State.contexts, hnet]
    rw [State.contextsMarked, hsame]
    exact (le_raiseMark (m := .contexts) trivial (Mark.fits .contexts _)).trans (hmark .contexts trivial)

theorem fresh_marksHold {s : State} (h : s.marksHold) : s.fresh.marksHold := h

/-- After settling the marks hold, from whatever state. -/
theorem settle_marksHold (s : State) : s.settle.marksHold := by
  unfold State.settle
  exact fresh_marksHold (peaks_marksHold _)

/-- Settles O3: an idle step leaves the state, and every command ends with settling, after which the marks hold. -/
theorem marksHold : Obligations.MarksHold := by
  intro s t hs hstep
  rcases hq : s.pending with _ | ⟨c, rest⟩
  · rw [step, hq] at hstep
    obtain rfl := Host.Outcome.next.inj hstep
    exact hs
  · obtain ⟨u, hu⟩ := exec_settles c { s with pending := rest }
    rw [step, hq] at hstep
    obtain rfl := Host.Outcome.next.inj (hu.symm.trans hstep)
    exact settle_marksHold u

/-- Settles O4: at reset nothing is in flight or in use, and the tables are empty. -/
theorem marksHoldAtReset : Obligations.MarksHoldAtReset := by
  refine ⟨fun p _ => ?_, fun p _ => ?_, fun e he => ?_, ?_⟩
  · simp [State.inflight, State.reset]
  · simp [State.part, State.reset, tabGet, partFree, servingOff, Serving.cancelUse]
  · simp [State.reset] at he
  · simp [State.contexts, State.reset, Net.empty]

/-! ### Settling a quiet state -/

/-- PEAK fields that are not below what they mark stay as they are. -/
theorem peaks_of_marksHold {s : State} (h : s.marksHold) : s.peaks = s := by
  obtain ⟨hparts, htrays, hcontexts⟩ := (marksHold_iff s).mp h
  have tray : ∀ e ∈ s.traysInUse, s.peakTray e = s := fun e he => by
    obtain ⟨hmem, hlow, -⟩ := (mem_traysInUse s).mp he
    exact raiseMark_of_le (htrays e hmem hlow)
  have part : ∀ p ∈ partIds, s.peakPart p = s := fun p hp => by
    obtain ⟨hin, hcan⟩ := hparts p hp
    rw [State.peakPart, raiseMark_of_le hin, raiseMark_of_le hcan]
  rw [peaks_eq, trayPeaks_eq, foldl_fixed tray, raiseMark_of_le hcontexts, foldl_fixed part]

/-- What holds of every entry and of the default holds of what any key reads as. -/
theorem tabGet_of_forall {α : Type} {P : α → Prop} {d : α} {t : Tab α} (hd : P d) (h : ∀ e ∈ t, P e.2) (i : Nat) : P (tabGet d t i) := by
  induction t with
  | nil => exact hd
  | cons e t ih =>
    unfold tabGet
    split
    · exact h e (List.mem_cons_self ..)
    · split
      · exact hd
      · exact ih fun x hx => h x (List.mem_cons_of_mem e hx)

theorem tallyFlash_of_counted (h : s.flash.hostWr = []) : s.tallyFlash = s := if_pos h

/-- A lender whose wait ended takes its first quarter back (R178). -/
def State.endWait (s : State) (c : Nat) : State :=
  if (s.core c).lent = 4 && !(s.coreWaiting c) then s.returnQuarter c else s

/-- A core's wait that ended may be reported again, and its gates open when its borrower's loan ends (R177, R464). -/
def State.endLoan (s : State) (c : Nat) : State :=
  let x := s.core c
  let r := x.reported && s.coreWaiting c
  let g := if s.cmds.any (fun d => d.onLoan && d.part = x.owner) then x.borrowGate else 0
  if r = x.reported && g = x.borrowGate then s else s.setCore c { x with reported := r, borrowGate := g }

theorem settleLoans_eq : s.settleLoans =
    ((((s.cores.map (·.1)).foldl State.endWait s).cores.map (·.1)).foldl State.endLoan ((s.cores.map (·.1)).foldl State.endWait s)) := rfl

/-- With no loan and no reported wait in the core table, loans are settled. -/
theorem settleLoans_of_none (h : ∀ e ∈ s.cores, e.2.lent = 0 ∧ e.2.reported = false ∧ e.2.borrowGate = 0) : s.settleLoans = s := by
  have core : ∀ c, (s.core c).lent = 0 ∧ (s.core c).reported = false ∧ (s.core c).borrowGate = 0 := fun c =>
    tabGet_of_forall (P := fun x : Core => x.lent = 0 ∧ x.reported = false ∧ x.borrowGate = 0) ⟨rfl, rfl, rfl⟩ h c
  have wait : ∀ c, s.endWait c = s := fun c => by simp [State.endWait, (core c).1]
  have loan : ∀ c, s.endLoan c = s := fun c => by
    obtain ⟨-, hreported, hgate⟩ := core c
    simp [State.endLoan, hreported, hgate]
  rw [settleLoans_eq, foldl_fixed fun c _ => wait c, foldl_fixed fun c _ => loan c]

theorem failDown_of_no_backlog (h : ∀ t ∈ s.net.txConns, t.backlog = []) : s.failDown = s := by
  have none : s.net.txConns.filter (fun t => t.down && t.backlog ≠ []) = [] := by
    rw [List.filter_eq_nil_iff]
    intro t ht
    simp [h t ht]
  rw [State.failDown, none]
  rfl

theorem resumeLinks_of_idle (h : ∀ t ∈ s.net.txConns, t.backlog = [] ∧ t.outstanding = []) : s.resumeLinks = s := by
  unfold State.resumeLinks
  split
  · rfl
  · refine foldl_fixed fun t ht => ?_
    obtain ⟨hback, hout⟩ := h t ht
    rw [hback, hout]
    rfl

theorem releaseOwed_of_none (h : s.net.owed = []) : s.releaseOwed = s := by
  unfold State.releaseOwed
  rw [h]
  rfl

theorem settleHoles_of_none (h : s.errors.noSpare = []) : s.settleHoles = s := by
  unfold State.settleHoles
  rw [h]
  rfl

theorem notePn_of_low (h : ∀ e ∈ s.net.subs, ∀ a ∈ e.2.tx, a.nextPn ≤ 2 ^ 62) : s.notePn = s := by
  have none : s.net.subs.filter (fun e => e.2.tx.any (fun a => 2 ^ 62 < a.nextPn && !a.noted)) = [] := by
    rw [List.filter_eq_nil_iff]
    intro e he
    simp only [Bool.not_eq_true, List.any_eq_false, Bool.and_eq_true, decide_eq_true_eq, not_and]
    intro a ha hlt
    exact absurd (h e he a ha) hlt.not_ge
  rw [State.notePn, none]
  rfl

/-- Settles O6: each part of settling finds nothing to do, and the free values move on. -/
theorem settleQuiet : Obligations.SettleQuiet := by
  intro s ⟨hcounted, hloans, hpackets, howed, hholes, hnumbers, hmarks⟩
  rw [State.settle, tallyFlash_of_counted hcounted, settleLoans_of_none hloans, failDown_of_no_backlog fun t ht => (hpackets t ht).1,
    resumeLinks_of_idle hpackets, releaseOwed_of_none howed, settleHoles_of_none hholes, notePn_of_low hnumbers,
    peaks_of_marksHold hmarks, State.fresh]

end

/-! ### A griddle takes a unit (R62, R110, R114, R115) -/

section
variable {s : State} {core : Fin 208} {g : Fin 4} {c : Nat} {u v : UnitRef} {d : Cmd}

/-- Whether a griddle may start a pass: its core is enabled and owned, the griddle is not quiesced, and its die runs. -/
def State.mayPass (s : State) (c g : Nat) : Bool :=
  (s.core c).st = .enabled && (s.core c).owner < 16 && !((s.core c).stopped.contains g) && !((s.die (c / 52)).held) &&
    !((s.die (c / 52)).inReset)

theorem mayPass_iff {g : Nat} : s.mayPass c g = true ↔ (s.core c).st = .enabled ∧ (s.core c).owner < 16 ∧ g ∉ (s.core c).stopped ∧
    (s.die (c / 52)).held = false ∧ (s.die (c / 52)).inReset = false := by
  simp [State.mayPass, and_assoc]

/-- A griddle with nothing in hand takes the unit into its hand. -/
theorem gain_empty {g : Nat} (h : s.held c g = (none, none)) (stood : Bool) :
    s.gain c g u d stood = ((s.setCmd d).setHeld c g (some u) none).drawTray c := by
  simp only [State.gain, h, Option.or_none]

/-- A griddle with a tile in hand takes the unit as its next. -/
theorem gain_beyond {g : Nat} (h : s.held c g = (some v, none)) :
    s.gain c g u d false = ((s.setCmd d).setHeld c g (some v) (some u)).drawTray c := by
  simp [State.gain, h, State.freeSlots]

/-- With two units and nothing to take, the griddle goes on to the second and leaves the first. -/
theorem rest_next {g : Nat} (h : s.held c g = (some v, some u)) (hne : u ≠ v) :
    s.rest c g false = (s.setHeld c g (some u) none).freeSlots c (some v) := by
  simp [State.rest, h, hne]

end

/-- The unit that a griddle took last: the one beyond its hand, else the one in hand. -/
def State.lastTaken (s : State) (c g : Nat) : Option UnitRef := (s.held c g).2.or (s.held c g).1

/-- A griddle stands at a semaphore with the unit that it took last. -/
def State.stands (s : State) (c g : Nat) : Bool := match s.lastTaken c g with | some u => s.unitWaits u | none => false

/-- It stands at a halo semaphore. -/
def State.atHalo (s : State) (c g : Nat) : Bool := match s.lastTaken c g with | some u => s.stands c g && !u.landing | none => false

/-- The other griddles of its core that have a unit. -/
def State.othersBusy (s : State) (c g : Nat) : Nat := ((s.core c).hand.zipIdx.filter (fun e => e.2 ≠ g && e.1.isSome)).length

/-- What a griddle that may take a unit does. -/
def State.takeOpen (s : State) (c g : Nat) : Host.Outcome State Fault Refusal :=
  match s.firstUnit c (s.lastTaken c g) (s.dealt (s.core c).owner) with
  | some (u, d) => done (s.gain c g u d (s.stands c g))
  | none =>
    if s.stands c g then done (s.rest c g true)
    else match s.standUnit c (s.dealt (s.core c).owner) with
      | some (u, d) => done (s.gain c g u d false)
      | none => done (s.rest c g false)

theorem exec_takeUnit_eq (s : State) (core : Fin 208) (g : Fin 4) : exec (.takeUnit core g) s =
    if !(s.mayPass core.val g.val) then done s
    else if s.atHalo core.val g.val || s.openGriddles core.val ≤ s.othersBusy core.val g.val then
      done (s.rest core.val g.val (s.stands core.val g.val))
    else s.takeOpen core.val g.val := rfl

section
variable {s : State} {core : Fin 208} {g : Fin 4} {u : UnitRef} {d : Cmd} {c k : Nat}

theorem exec_takeUnit_barred (h : ¬ s.mayPass core.val g.val = true) : exec (.takeUnit core g) s = done s := by
  rw [exec_takeUnit_eq, if_pos (by simpa using h)]

theorem exec_takeUnit_gated (h : s.mayPass core.val g.val = true)
    (hg : s.atHalo core.val g.val = true ∨ s.openGriddles core.val ≤ s.othersBusy core.val g.val) :
    exec (.takeUnit core g) s = done (s.rest core.val g.val (s.stands core.val g.val)) := by
  rw [exec_takeUnit_eq, if_neg (by simpa using h), if_pos (by simpa using hg)]

theorem exec_takeUnit_open (h : s.mayPass core.val g.val = true) (hh : s.atHalo core.val g.val = false)
    (hb : s.othersBusy core.val g.val < s.openGriddles core.val) : exec (.takeUnit core g) s = s.takeOpen core.val g.val := by
  rw [exec_takeUnit_eq, if_neg (by simpa using h), if_neg (by simpa [hh] using hb)]

theorem takeOpen_first (h : s.firstUnit c (s.lastTaken c k) (s.dealt (s.core c).owner) = some (u, d)) :
    s.takeOpen c k = done (s.gain c k u d (s.stands c k)) := by
  rw [State.takeOpen, h]

theorem takeOpen_keeps (h : s.firstUnit c (s.lastTaken c k) (s.dealt (s.core c).owner) = none) (hs : s.stands c k = true) :
    s.takeOpen c k = done (s.rest c k true) := by
  rw [State.takeOpen, h]
  exact if_pos hs

theorem takeOpen_stand (h : s.firstUnit c (s.lastTaken c k) (s.dealt (s.core c).owner) = none) (hs : s.stands c k = false)
    (hu : s.standUnit c (s.dealt (s.core c).owner) = some (u, d)) : s.takeOpen c k = done (s.gain c k u d false) := by
  rw [State.takeOpen, h, hu]
  exact if_neg (by simp [hs])

theorem takeOpen_none (h : s.firstUnit c (s.lastTaken c k) (s.dealt (s.core c).owner) = none) (hs : s.stands c k = false)
    (hu : s.standUnit c (s.dealt (s.core c).owner) = none) : s.takeOpen c k = done (s.rest c k false) := by
  rw [State.takeOpen, h, hu]
  exact if_neg (by simp [hs])

end

/-- Settles O27: the clauses are the branches of TAKE_UNIT, and what a griddle gains or goes on to depends on what it holds. -/
theorem takeUnit : Obligations.TakeUnit := by
  intro s core g
  refine ⟨fun ha => exec_takeUnit_barred (mayPass_iff.not.mpr ha), fun ha => ?_, fun u d h stood => gain_empty h stood,
    fun u d v h => gain_beyond h, fun u v h hne => rest_next h hne⟩
  have able := mayPass_iff.mpr ha
  refine ⟨exec_takeUnit_gated able, fun hh hb => ?_⟩
  have take := exec_takeUnit_open able hh hb
  exact ⟨fun u d hf => take.trans (takeOpen_first hf), fun hf => ⟨fun hs => take.trans (takeOpen_keeps hf hs),
    fun hs u d hu => take.trans (takeOpen_stand hf hs hu), fun hs hu => take.trans (takeOpen_none hf hs hu)⟩⟩

/-! ### Halo semaphores and the pass watchdog (R79, R128) -/

section
variable {s : State} {r : CmdRef} {c : Cmd} {entry stripe k : Nat}

/-- The row block that stripe `stripe` of an entry is, in queue order. -/
def State.stripeAt (s : State) (c : Cmd) (entry stripe : Nat) : Nat :=
  ((s.tilingOf c.part c.opcode c.hdr c.body).units.take entry).sum + stripe

/-- An issued command has worked on the stripe, and the entry has a next one (R128). -/
def State.stripeLeft (s : State) (c : Cmd) (entry stripe : Nat) : Prop :=
  c.phase = .issued ∧ stripe + 1 < nth 0 (s.tilingOf c.part c.opcode c.hdr c.body).units entry ∧
    ∀ x ∈ c.ranges, ¬ (x.lo ≤ s.stripeAt c entry stripe ∧ s.stripeAt c entry stripe < x.hi)

/-- The rows are copied where the stripe is left and its semaphore has not risen. -/
def State.copiesHalo (s : State) (c : Cmd) (entry stripe k : Nat) : Bool :=
  c.phase = .issued && stripe + 1 < nth 0 (s.tilingOf c.part c.opcode c.hdr c.body).units entry &&
    !(c.ranges.any (fun x => x.lo ≤ s.stripeAt c entry stripe && s.stripeAt c entry stripe < x.hi)) && (s.sem k).read < 1

theorem copiesHalo_iff : s.copiesHalo c entry stripe k = true ↔ s.stripeLeft c entry stripe ∧ (s.sem k).read < 1 := by
  simp [State.copiesHalo, State.stripeLeft, and_assoc]

/-- HALO_COPY adds nothing where no semaphore guards the next stripe's halo. -/
theorem exec_haloCopy_unguarded (hc : s.cmd? r = some c) (hf : c.halo.find? (fun h => h.2 = s.stripeAt c entry stripe + 1) = none) :
    exec (.haloCopy r entry stripe) s = done s := by
  unfold State.stripeAt at hf
  simp only [exec_haloCopy, execHaloCopy, hc, hf]

theorem exec_haloCopy_guarded {h : Nat × Nat} (hc : s.cmd? r = some c)
    (hf : c.halo.find? (fun h => h.2 = s.stripeAt c entry stripe + 1) = some h) :
    exec (.haloCopy r entry stripe) s = if s.copiesHalo c entry stripe h.1 then
        done ((s.setCmd { c with haloRows := insertNat c.haloRows (s.stripeAt c entry stripe + 1) }).semAdd h.1 1 (semMaster h.1) c.evTag).1
      else done s := by
  unfold State.stripeAt at hf
  simp only [exec_haloCopy, execHaloCopy, hc, hf]
  rfl

theorem exec_haloCopy_barred (hc : s.cmd? r = some c) (hl : ¬ s.stripeLeft c entry stripe) :
    exec (.haloCopy r entry stripe) s = done s := by
  cases hf : c.halo.find? (fun h => h.2 = s.stripeAt c entry stripe + 1) with
  | none => exact exec_haloCopy_unguarded hc hf
  | some h => rw [exec_haloCopy_guarded hc hf, if_neg fun on => hl (copiesHalo_iff.mp on).1]

/-- A semaphore that is not poisoned and not full rises by what is added (R169). -/
theorem semAdd_of_room {n m : Nat} {tag : Option (Nat × Nat)} (hp : (s.sem k).poison = false) (hr : (s.sem k).value + n ≤ 0xFFFFFFFF) :
    s.semAdd k n m tag = (s.setSem k { s.sem k with value := (s.sem k).value + n }, false) := by
  simp [State.semAdd, hp, hr]

theorem read_of_sound {x : Sem} (h : x.poison = false) : x.read = x.value := by simp [Sem.read, h]

end

section
variable {s : State} {core : Fin 208} {g : Fin 4} {u : UnitRef}

/-- A griddle whose first unit is none runs no pass. -/
theorem exec_passWatchdog_idle (h : (s.held core.val g.val).1 = none) : exec (.passWatchdog core g) s = done s := by
  simp only [exec_passWatchdog, execPassWatchdog, h]

/-- A pass that does not end bites its griddle, unless it waits at a semaphore (R79, R111). -/
theorem exec_passWatchdog_unit (h : (s.held core.val g.val).1 = some u) : exec (.passWatchdog core g) s =
    if s.unitWaits u then done s
    else done ((((s.quiesce (.griddle core g)).setErr (pgGRD core.val) 2).killWhere
      (fun c => c.ref = u.cmd || (s.held core.val g.val).2.any (fun v => v.cmd = c.ref)) causePass).beginTest (.griddle core g) 2) := by
  simp only [exec_passWatchdog, execPassWatchdog, h]

end

/-- Settles O28: HALO_COPY by whether its stripe is left and its semaphore, PASS_WATCHDOG by the griddle's first unit. -/
theorem haloAndWatchdog : Obligations.HaloAndWatchdog := by
  refine ⟨fun s r c entry stripe k hc => ⟨fun hl => exec_haloCopy_barred hc hl, fun hl hf hp => ⟨fun hv => ?_, fun hv => ?_⟩⟩,
    fun s core g => ⟨fun hidle => exec_passWatchdog_idle hidle, fun u hu => ⟨fun hw => ?_, fun hw => ?_⟩⟩⟩
  · have on : s.copiesHalo c entry stripe k = true := copiesHalo_iff.mpr ⟨hl, by rw [read_of_sound hp, hv]; decide⟩
    have hsem : (s.setCmd { c with haloRows := insertNat c.haloRows (s.stripeAt c entry stripe + 1) }).sem k = s.sem k := rfl
    rw [exec_haloCopy_guarded hc hf, if_pos on, semAdd_of_room (hsem ▸ hp) (by rw [hsem, hv]; decide), hsem, hv]
    rfl
  · have off : ¬ s.copiesHalo c entry stripe k = true := fun on => by
      have := (copiesHalo_iff.mp on).2
      rw [read_of_sound hp] at this
      omega
    exact (exec_haloCopy_guarded hc hf).trans (if_neg off)
  · exact (exec_passWatchdog_unit hu).trans (if_pos hw)
  · exact (exec_passWatchdog_unit hu).trans (if_neg (by simp [hw]))

/-! ### Counter clears (R78, R525) -/

/-- Settles O32: the two clears write 0 to the registers of their lists. -/
theorem counterClears : Obligations.CounterClears := by
  refine ⟨fun s core => ⟨fun hans hup => ?_, fun hoff => ?_⟩, fun s page k hk => ⟨fun hans => ?_, fun hsil => ?_⟩⟩
  · rw [exec_counterClear, execCounterClear, onPage_of_answers hans, if_neg (by simp [hup])]
    rfl
  · rw [exec_counterClear, execCounterClear]
    rcases Bool.eq_false_or_eq_true (s.i3cAnswers (pgGRD core.val)) with hans | hsil
    · rw [onPage_of_answers hans, if_pos (hoff.resolve_left (by simp [hans]))]
      rfl
    · exact onPage_of_silent hsil _
  · rw [exec_headerCounterClear, execHeaderCounterClear, onPage_of_answers hans, hk]
    rfl
  · exact onPage_of_silent hsil _

/-! ### The strobe period (R57, R131, R458 to R467) -/

@[simp] theorem calendarTicks_start (s : State) : s.calendarTicks.start = s.start := by
  unfold State.calendarTicks
  dsimp only
  repeat' split
  all_goals rfl

/-- The start of a strobe period, in and out of reset: the counts move on, and events that come once in a period may come again. -/
def State.strobeStart (s : State) : State := ({ s with strobes := s.strobes + 1, eventOnce := [] } : State).calendarTicks

theorem strobeStart_alive (s : State) : s.strobeStart.alive = s.alive := by
  simp only [State.strobeStart, State.alive, calendarTicks_start]

theorem exec_strobeEdge_in_reset {s : State} (x : StrobeSample) (h : s.alive = false) : exec (.strobeEdge x) s = done s.strobeStart :=
  if_pos (by rw [Bool.not_eq_true', ← h]; exact strobeStart_alive s)

/-- A die is adjusted once in a laggard period (R132). -/
theorem adjustLaggard_again {s : State} {q : Nat} (short : Rat) (h : (s.die q).adjusted = s.strobes / 128 + 1) : s.adjustLaggard q short = s :=
  if_pos h

/-- Settles O54: each row is its reset case, or the chain of its readings and adjustments. -/
theorem strobePeriod : Obligations.StrobePeriod := by
  intro s
  refine ⟨fun x => ⟨fun hr => exec_strobeEdge_in_reset x hr, fun ha => ?_⟩,
    fun core => ⟨fun ha => awake_of_alive ha _, fun hr => awake_of_not_alive hr _⟩,
    fun hr => awake_of_not_alive hr _, fun ha hd => ?_, fun ha hd => ?_, fun q short h => adjustLaggard_again short h⟩
  · have up : s.strobeStart.alive = true := (strobeStart_alive s).trans ha
    exact if_neg (by rw [Bool.not_eq_true', Bool.not_eq_false]; exact up)
  · exact (awake_of_alive ha _).trans (if_pos hd)
  · exact (awake_of_alive ha _).trans (if_neg hd.not_ge)

/-! ### Rails and clocks (R468 to R471, R569) -/

/-- A sub-port's link that falls is of the networks; start-up stays as it is. -/
theorem linkFall_start (s : State) (i : Nat) : (s.linkFall i).start = s.start := by
  unfold State.linkFall
  dsimp only
  split
  · have h := flagEvent_beside (s.setSub i { s.sub i with up := false }) (pgPORT (i / 4)) 1 1 i none
    simp only [State.besideEvents, Prod.mk.injEq] at h
    obtain ⟨-, -, -, hstart, -⟩ := h
    exact hstart
  · rfl

/-- The links that a clock clocks fall: those of sub-ports 0 to 15 with REFCLK_A, 16 to 31 with REFCLK_B (R569). -/
def State.clockFall (s : State) (clk : Nat) : State :=
  match clk with
  | 1 => (List.range 16).foldl (fun (s : State) i => s.linkFall i) s
  | 2 => (List.range' 16 16).foldl (fun (s : State) i => s.linkFall i) s
  | _ => s

/-- Whether a clock clocks a sub-port's link. -/
def clocksLink (clk i : Nat) : Bool := decide ((clk = 1 ∧ i < 16) ∨ (clk = 2 ∧ 16 ≤ i))

theorem clockFall_eq_filter (s : State) (clk : Fin 3) :
    s.clockFall clk.val = ((List.range 32).filter (clocksLink clk.val)).foldl (fun (s : State) i => s.linkFall i) s := by
  have sys : (List.range 32).filter (clocksLink 0) = [] := by decide
  have refA : (List.range 32).filter (clocksLink 1) = List.range 16 := by decide
  have refB : (List.range 32).filter (clocksLink 2) = List.range' 16 16 := by decide
  obtain ⟨k, hk⟩ := clk
  interval_cases k
  · simp only [sys, State.clockFall, List.foldl_nil]
  · simp only [refA, State.clockFall]
  · simp only [refB, State.clockFall]

theorem clockFall_eq (s : State) (clk : Fin 3) : s.clockFall clk.val = (List.range 32).foldl
    (fun v i => if (clk.val = 1 ∧ i < 16) ∨ (clk.val = 2 ∧ 16 ≤ i) then v.linkFall i else v) s := by
  rw [clockFall_eq_filter, List.foldl_filter]
  simp only [clocksLink, decide_eq_true_eq]

theorem clockFall_alive (s : State) (clk : Nat) : (s.clockFall clk).alive = s.alive := by
  have h : (s.clockFall clk).start = s.start := by
    unfold State.clockFall
    split
    · exact foldl_keeps State.start _ linkFall_start _ _
    · exact foldl_keeps State.start _ linkFall_start _ _
    · rfl
  rw [State.alive, h, State.alive]

/-- A clock is marked as lost. -/
def State.markClock (s : State) (clk : Nat) : State := { s with start := { s.start with clocksLost := insertNat s.start.clocksLost clk } }

/-- A clock is back. -/
def State.unmarkClock (s : State) (clk : Nat) : State := { s with start := { s.start with clocksLost := s.start.clocksLost.filter (· ≠ clk) } }

theorem exec_clockLost_eq (s : State) (clk : Fin 3) : exec (.clockLost clk) s =
    done (if ((s.markClock clk.val).clockFall clk.val).alive then
      ((s.markClock clk.val).clockFall clk.val).flagEvent pgMGT 4 3 (2 ^ clk.val) none else (s.markClock clk.val).clockFall clk.val) := rfl

theorem markClock_alive (s : State) (clk : Nat) : (s.markClock clk).alive = s.alive := rfl

theorem exec_clockLost_out {s : State} (clk : Fin 3) (h : s.alive = true) : exec (.clockLost clk) s =
    done (((s.markClock clk.val).clockFall clk.val).flagEvent pgMGT 4 3 (2 ^ clk.val) none) := by
  rw [exec_clockLost_eq, if_pos (by rw [clockFall_alive, markClock_alive, h])]

theorem exec_clockLost_in_reset {s : State} (clk : Fin 3) (h : s.alive = false) : exec (.clockLost clk) s =
    done ((s.markClock clk.val).clockFall clk.val) := by
  rw [exec_clockLost_eq, if_neg (by rw [clockFall_alive, markClock_alive, h]; decide)]

/-- The islands that SYSCLK clocks are reset where it returned and the device is out of whole-device reset. -/
theorem keepsIslands_iff (s : State) (clk : Fin 3) :
    (decide (clk.val ≠ 0) || !((s.unmarkClock clk.val).alive)) = true ↔ clk.val ≠ 0 ∨ s.alive = false := by
  have same : (s.unmarkClock clk.val).alive = s.alive := rfl
  rw [same, Bool.or_eq_true, decide_eq_true_eq, Bool.not_eq_true']

/-- Settles O55: the guards of each row, in and out of whole-device reset; a lost clock's links are a part of all 32. -/
theorem railsAndClocks : Obligations.RailsAndClocks := by
  refine ⟨fun s rail mv low ticks => ?_, fun s die mv => ?_, fun s => ?_⟩
  · have level : s.warnMv rail.val = (s.rail rail.val).warnMv := rfl
    refine ⟨fun h => if_pos (by simpa [level] using h), fun hw hm => ?_, fun hw => if_pos (by simpa using hw), fun hw => ?_,
      fun h => if_pos (by simpa using h), fun hi hm => ?_⟩
    · have falls : ¬ ((s.rail rail.val).warn || s.warnMv rail.val ≤ mv) = true := by simp [level, hw, hm]
      exact ⟨fun hr => (if_neg falls).trans (if_pos (by simp [hr])), fun ha => (if_neg falls).trans (if_neg (by simp [ha]))⟩
    · exact ⟨fun hr => (if_neg (by simp [hw])).trans (if_pos (by simp [hr])),
        fun ha => (if_neg (by simp [hw])).trans (if_neg (by simp [ha]))⟩
    · exact ⟨fun hr => (if_neg (by simp [hi, hm])).trans (if_pos (by simp [hr])),
        fun ha => (if_neg (by simp [hi, hm])).trans (if_neg (by simp [ha]))⟩
  · exact ⟨fun h => if_pos h, fun h => ⟨fun hr => (if_neg h.not_gt).trans (if_pos (by simp [hr])),
      fun ha => (if_neg h.not_gt).trans (if_neg (by simp [ha]))⟩⟩
  · refine ⟨fun clk h => if_neg (by simpa using h), fun clk => ⟨fun ha => ?_, fun hr => ?_, fun hlost => ⟨fun h0 ha => ?_, fun h => ?_⟩⟩,
      fun hr i => awake_of_not_alive hr _, fun ha => ⟨fun i => awake_of_alive ha _, fun i => awake_of_alive ha _, fun i => awake_of_alive ha _,
      fun i => awake_of_alive ha _⟩⟩
    · rw [exec_clockLost_out clk ha, clockFall_eq]
      rfl
    · rw [exec_clockLost_in_reset clk hr, clockFall_eq]
      rfl
    · exact (if_pos (by simpa using hlost)).trans (if_neg (mt (keepsIslands_iff s clk).mp (by simp [h0, ha])))
    · exact (if_pos (by simpa using hlost)).trans (if_pos ((keepsIslands_iff s clk).mpr h))

end Sys2Proof.Machine
end

section
/-! SUPPORT. Fabric family: what the receiving side makes of a packet that carries a PSN (R434 to R438), and that the nine rows of such
packets are that reception with an act of their own; the statement O52. -/

namespace Sys2Proof.Machine

/-! ### A packet of the fabric that arrives (R434 to R438) -/

/-- A packet comes to the device that it names and is mapped to a partition (R435). -/
structure State.Reaches (r : State) (h : FabHdr) (p : Nat) : Prop where
  named : r.deviceId ≠ 0xFFFF
  here : h.dstDev.toNat = r.deviceId
  mapped : r.mapPacket h = some p

/-- A packet acted on is noted as received, or turned away with a NACK; BUSY and WAIT leave it unreceived (R436). -/
def State.answerPacket (x : RxConn) (h : FabHdr) (p : Nat) (r : State × Option Nat) : State :=
  match r.2 with
  | none => r.1.noteRx x h true
  | some k => if k = 2 || k = 4 then r.1.nack p h k else (r.1.nack p h k).noteRx x h true

/-- What is done with a packet by its place in the window: only a fresh one acts (R434, R438). -/
def State.atPlace (t : State) (x : RxConn) (h : FabHdr) (p : Nat) (act : State → Nat → State × Option Nat) : Place → State
  | .outside => t
  | .duplicate => (t.count pgFABRIC oNETB_DUPS 1).noteRx x h false
  | .fresh => State.answerPacket x h p (act (t.setRx x) p)

/-- A packet meets its receive context, where there is one (R434). -/
def State.placePacket (t : State) (p : Nat) (h : FabHdr) (act : State → Nat → State × Option Nat) : State :=
  match t.rxFor p h with
  | none => t
  | some x => t.atPlace x h p act (x.place h.psn.toNat (bit h.flags.toNat 0))

theorem answerPacket_taken (x : RxConn) (h : FabHdr) (p : Nat) (u : State) : State.answerPacket x h p (u, none) = u.noteRx x h true := rfl

theorem answerPacket_turned (x : RxConn) (h : FabHdr) (p : Nat) (u : State) (k : Nat) :
    State.answerPacket x h p (u, some k) = if k = 2 ∨ k = 4 then u.nack p h k else (u.nack p h k).noteRx x h true := by
  simp only [State.answerPacket, Bool.or_eq_true, decide_eq_true_eq]

section
variable {t : State} {h : FabHdr} {p : Nat} {x : RxConn} {pl : Place} {act : State → Nat → State × Option Nat}

theorem placePacket_no_context (hx : t.rxFor p h = none) : t.placePacket p h act = t := by
  rw [State.placePacket, hx]

theorem placePacket_context (hx : t.rxFor p h = some x) (hpl : x.place h.psn.toNat (bit h.flags.toNat 0) = pl) :
    t.placePacket p h act = t.atPlace x h p act pl := by
  rw [State.placePacket, hx, ← hpl]

end

section
variable {s : State} {h : FabHdr} {heed : Bool} {act : State → Nat → State × Option Nat} {p : Nat}

theorem receive_not_here (ha : (s.rxBack h.ce).deviceId = 0xFFFF ∨ h.dstDev.toNat ≠ (s.rxBack h.ce).deviceId) :
    s.receive h heed act = s.rxBack h.ce :=
  if_pos (by simpa using ha)

/-- The guard for packets of other devices passes over one that names this device. -/
theorem named_here_not_dropped (hid : (s.rxBack h.ce).deviceId ≠ 0xFFFF) (hd : h.dstDev.toNat = (s.rxBack h.ce).deviceId) :
    ¬ ((s.rxBack h.ce).deviceId = 0xFFFF || h.dstDev.toNat ≠ (s.rxBack h.ce).deviceId) = true := by
  simp [hid, hd]

theorem receive_unmapped (hid : (s.rxBack h.ce).deviceId ≠ 0xFFFF) (hd : h.dstDev.toNat = (s.rxBack h.ce).deviceId)
    (hm : (s.rxBack h.ce).mapPacket h = none) : s.receive h heed act = (s.rxBack h.ce).nack 0 h 3 := by
  refine (if_neg (named_here_not_dropped hid hd)).trans ?_
  rw [hm]

theorem receive_deaf (hr : (s.rxBack h.ce).Reaches h p) (hdeaf : (s.rxBack h.ce).deaf p = true) :
    s.receive h false act = s.rxBack h.ce := by
  refine (if_neg (named_here_not_dropped hr.named hr.here)).trans ?_
  rw [hr.mapped]
  exact if_pos (by simp [hdeaf])

/-- A packet that reaches a partition which answers for the fabric, or which heeds it all the same, meets its receive context. -/
theorem receive_placed (hr : (s.rxBack h.ce).Reaches h p) (hh : (s.rxBack h.ce).deaf p = false ∨ heed = true) :
    s.receive h heed act = ((s.rxBack h.ce).peerUp p h).placePacket p h act := by
  have heeded : ¬ ((s.rxBack h.ce).deaf p && !heed) = true := by
    rcases hh with hh | hh <;> simp [hh]
  refine (if_neg (named_here_not_dropped hr.named hr.here)).trans ?_
  rw [hr.mapped]
  refine (if_neg heeded).trans ?_
  extract_lets t syn start ox
  have hox : t.rxFor p h = ox := rfl
  rw [State.placePacket, hox]
  clear_value ox
  -- Where a PSN lies does not matter here; the kernel, asked to compare, would compute its place.
  obtain ⟨place, hplace⟩ : ∃ place, RxConn.place = place := ⟨_, rfl⟩
  rw [hplace]
  cases ox with
  | none => rfl
  | some x =>
    dsimp only [syn]
    cases place x h.psn.toNat (bit h.flags.toNat 0) <;> rfl

end

/-- Every row of a packet with a PSN is a reception, which a partition that is passing heeds for a SEM_REPLY alone (R174, R342). -/
theorem exec_of_fabricRow {i : Instr} {h : FabHdr} (s : State) (hi : fabricRow i = some h) :
    ∃ heed act, exec i s = done (s.receive h heed act) ∧ ((∀ res, i ≠ .fabricSemReply h res) → heed = false) := by
  unfold fabricRow at hi
  split at hi
  case h_3 h res =>
    obtain rfl := Option.some.inj hi
    exact ⟨true, _, exec_fabricSemReply h res, fun hne => absurd rfl (hne res)⟩
  case h_10 => cases hi
  all_goals
    obtain rfl := Option.some.inj hi
    exact ⟨false, _, rfl, fun _ => rfl⟩

section
variable {s u : State} {h : FabHdr} {heed : Bool} {act : State → Nat → State × Option Nat} {p k : Nat} {x : RxConn}
  (hr : (s.rxBack h.ce).Reaches h p) (hh : (s.rxBack h.ce).deaf p = false ∨ heed = true)
  (hx : ((s.rxBack h.ce).peerUp p h).rxFor p h = some x) (hpl : x.place h.psn.toNat (bit h.flags.toNat 0) = .fresh)

include hr hh hx hpl

theorem receive_taken (hv : act (((s.rxBack h.ce).peerUp p h).setRx x) p = (u, none)) : s.receive h heed act = u.noteRx x h true := by
  rw [receive_placed hr hh, placePacket_context hx hpl, State.atPlace, hv, answerPacket_taken]

theorem receive_turned (hv : act (((s.rxBack h.ce).peerUp p h).setRx x) p = (u, some k)) :
    s.receive h heed act = if k = 2 ∨ k = 4 then u.nack p h k else (u.nack p h k).noteRx x h true := by
  rw [receive_placed hr hh, placePacket_context hx hpl, State.atPlace, hv, answerPacket_turned]

end

/-- Settles O52: a packet's way up to its place is that of every row; a fresh one is answered by what its row's act says. -/
theorem fabricReceives : Obligations.FabricReceives := by
  refine ⟨fun i h s hi => ?_, fun h s p x => ?_⟩
  · obtain ⟨heed, act, hexec, hheed⟩ := exec_of_fabricRow s hi
    rw [hexec, done]
    refine ⟨fun ha => by rw [receive_not_here ha], fun hid hd => ⟨fun hm => by rw [receive_unmapped hid hd hm], fun p hm hdeaf hne => ?_,
      fun p hm hdeaf => ?_⟩⟩
    · rw [hheed hne, receive_deaf ⟨hid, hd, hm⟩ hdeaf]
    · rw [receive_placed ⟨hid, hd, hm⟩ (.inl hdeaf)]
      exact ⟨fun hx => by rw [placePacket_no_context hx], fun x hx => ⟨fun hpl => by rw [placePacket_context hx hpl, State.atPlace],
        fun hpl => by rw [placePacket_context hx hpl, State.atPlace]⟩⟩
  · intro r t taken turned hid hd hm hx hpl
    have reaches : r.Reaches h p := ⟨hid, hd, hm⟩
    have take : ∀ {heed : Bool} {act : State → Nat → State × Option Nat} {u : State}, (r.deaf p = false ∨ heed = true) →
        act t p = (u, none) → done (s.receive h heed act) = .next (taken u) := fun hh hv => by
      rw [receive_taken reaches hh hx hpl hv, done]
    refine ⟨fun res => (exec_fabricSemReply h res).trans (take (.inr rfl) rfl), fun hdeaf => ?_⟩
    have turn : ∀ {act : State → Nat → State × Option Nat} {u : State} {k : Nat}, act t p = (u, some k) →
        done (s.receive h false act) = .next (turned u k) := fun hv => by
      rw [receive_turned reaches (.inl hdeaf) hx hpl hv, done]
    refine ⟨fun bs u hc hv => ?_, fun bs u hc hv => ?_, fun bs u k hv => ?_, fun op n u hv => ?_, fun op n u k hv => ?_, ?_,
      fun l n => ?_, fun g => ?_, fun g => ?_, fun g => ?_, fun g => ?_⟩
    · exact (exec_fabricData h bs).trans (take (.inl hdeaf) ((if_pos hc).trans hv))
    · exact (exec_fabricData h bs).trans (take (.inl hdeaf) ((if_neg hc).trans hv))
    · exact (exec_fabricData h bs).trans (turn hv)
    · exact (exec_fabricSemop h op n).trans (take (.inl hdeaf) hv)
    · exact (exec_fabricSemop h op n).trans (turn hv)
    · exact (exec_fabricRelease h).trans (take (.inl hdeaf) rfl)
    · exact (exec_fabricLag h l n).trans (take (.inl hdeaf) rfl)
    · exact (exec_cancelNotice h g).trans (take (.inl hdeaf) rfl)
    · exact (exec_cancelAck h g).trans (take (.inl hdeaf) rfl)
    · exact (exec_cancelConfirm h g).trans (take (.inl hdeaf) rfl)
    · exact (exec_cancelDefer h g).trans (take (.inl hdeaf) rfl)

end Sys2Proof.Machine
end

section
/-! SUPPORT. Commands family: what settling never changes, part by part of it (O7). -/

namespace Sys2Proof.Machine

/-! ### What settling never changes -/

section
variable (s : State)

/-- The table and index slots, and the networks. -/
def State.slotsAndNet (s : State) := (s.tables, s.indexes, s.net)

/-- The table and index slots. -/
def State.slots (s : State) := (s.tables, s.indexes)

variable {s} in
theorem slots_of_beside {t : State} (h : t.besideEvents = s.besideEvents) : t.slots = s.slots := by
  simp only [State.besideEvents, Prod.mk.injEq] at h
  simp [State.slots, h]

variable {s} in
theorem slots_of_slotsAndNet {t : State} (h : t.slotsAndNet = s.slotsAndNet) : t.slots = s.slots := by
  simp only [State.slotsAndNet, Prod.mk.injEq] at h
  simp [State.slots, h]

/-- Bytes counted, and the grants of regulators, are no matter of slots and networks. -/
@[simp] theorem count_slotsAndNet (g o n : Nat) : (s.count g o n).slotsAndNet = s.slotsAndNet := by simp [State.slotsAndNet]

theorem countBytes_slotsAndNet (g o n : Nat) : (s.countBytes g o n).slotsAndNet = s.slotsAndNet := by
  rw [State.countBytes, count_slotsAndNet]
  rfl

theorem chargeFlash_slotsAndNet (c p n : Nat) : (s.chargeFlash c p n).slotsAndNet = s.slotsAndNet := by
  unfold State.chargeFlash State.charge
  split
  · rfl
  · change State.slotsAndNet (if _ then _ else _) = _
    split <;> simp

theorem tallyFlash_slotsAndNet : s.tallyFlash.slotsAndNet = s.slotsAndNet := by
  unfold State.tallyFlash
  split
  · rfl
  · exact (foldl_keeps State.slotsAndNet _ (fun t e => chargeFlash_slotsAndNet t ..) _ _).trans (countBytes_slotsAndNet ..)

theorem gateBorrowers_slotsAndNet (q n : Nat) : (State.gateBorrowers q n s).slotsAndNet = s.slotsAndNet := by
  induction n generalizing s with
  | zero => rfl
  | succ n ih =>
    unfold State.gateBorrowers
    dsimp only
    split
    · rfl
    · split
      · rfl
      · rw [ih]
        rfl

theorem endWait_slotsAndNet (c : Nat) : (s.endWait c).slotsAndNet = s.slotsAndNet := by
  unfold State.endWait
  split
  · exact gateBorrowers_slotsAndNet ..
  · rfl

theorem endLoan_slotsAndNet (c : Nat) : (s.endLoan c).slotsAndNet = s.slotsAndNet := by
  rw [State.endLoan]
  split
  · split <;> rfl
  · split <;> rfl

theorem settleLoans_slotsAndNet : s.settleLoans.slotsAndNet = s.slotsAndNet := by
  rw [settleLoans_eq]
  exact (foldl_keeps State.slotsAndNet _ endLoan_slotsAndNet _ _).trans (foldl_keeps State.slotsAndNet _ endWait_slotsAndNet _ _)

@[simp] theorem setTxConn_slots (t : TxConn) : (s.setTxConn t).slots = s.slots := rfl

variable {s} in
theorem fabEmit_slots {u : State} {t t' : TxConn} {k k' : Sent} {r : Bool} (h : s.fabEmit t k r = some (u, t', k')) :
    u.slots = s.slots := by
  unfold State.fabEmit at h
  split at h
  · cases h
  · cases h
    rw [slots_of_beside (send_beside ..), slots_of_beside (txFrames_beside ..)]
    rfl

theorem fabPump_slots (c : ConnId) (n : Nat) : (State.fabPump c n s).slots = s.slots := by
  induction n generalizing s with
  | zero => rfl
  | succ n ih =>
    unfold State.fabPump
    dsimp only
    split
    · rfl
    · split
      · rfl
      · split
        · rfl
        · next h => rw [ih, setTxConn_slots, fabEmit_slots h]

theorem resend_slots (c : ConnId) (k : Sent) (l : Bool) : (s.resend c k l).slots = s.slots := by
  unfold State.resend
  dsimp only
  split
  · rfl
  · next h => rw [slots_of_beside (count_beside ..), setTxConn_slots, fabEmit_slots h]

theorem resumeLinks_slots : s.resumeLinks.slots = s.slots := by
  unfold State.resumeLinks
  split
  · rfl
  · refine foldl_keeps State.slots _ (fun t c => ?_) _ _
    rw [fabPump_slots]
    exact foldl_keeps State.slots _ (fun t k => resend_slots ..) _ _

theorem fabQueue_slots (c : ConnId) (l : List Sent) : (s.fabQueue c l).slots = s.slots := by
  unfold State.fabQueue
  dsimp only
  split
  · rfl
  · rw [fabPump_slots, setTxConn_slots]

theorem releaseOwed_slots : s.releaseOwed.slots = s.slots := by
  unfold State.releaseOwed
  dsimp only
  refine foldl_keeps State.slots _ (fun t c => ?_) _ _
  split
  · rw [fabQueue_slots]
    rfl
  · rfl

theorem flagEvent_slots (g b e i : Nat) (t : Option (Nat × Nat)) : (s.flagEvent g b e i t).slots = s.slots :=
  slots_of_beside (flagEvent_beside ..)

theorem settleHoles_slots : s.settleHoles.slots = s.slots := by
  unfold State.settleHoles
  refine foldl_keeps State.slots _ (fun t c => ?_) _ _
  dsimp only
  split
  · split
    · rfl
    · exact flagEvent_slots ..
  · split
    · rfl
    · exact flagEvent_slots ..
  · rfl

theorem notePn_slots : s.notePn.slots = s.slots := by
  unfold State.notePn
  refine foldl_keeps State.slots _ (fun t e => ?_) _ _
  exact foldl_keeps State.slots _ (fun u a => flagEvent_slots ..) _ _

theorem peak_slots (g o h l v : Nat) : (s.peak g o h l v).slots = s.slots := slots_of_beside (peak_beside ..)

theorem peaks_slots : s.peaks.slots = s.slots := by
  rw [peaks_eq, trayPeaks_eq]
  refine (foldl_keeps State.slots _ (fun t p => ?_) _ _).trans
    ((peak_slots ..).trans (foldl_keeps State.slots _ (fun t e => peak_slots ..) _ _))
  exact (peak_slots ..).trans (peak_slots ..)

theorem fresh_slots : s.fresh.slots = s.slots := rfl

/-- With no packet queued for a peer that is down, none fails. -/
theorem failDown_of_reachable (h : ∀ t ∈ s.net.txConns, t.down = true → t.backlog = []) : s.failDown = s := by
  have none : s.net.txConns.filter (fun t => t.down && t.backlog ≠ []) = [] := by
    rw [List.filter_eq_nil_iff]
    intro t ht
    simpa using h t ht
  rw [State.failDown, none]
  rfl

theorem settle_steady : s.settle.steady = s.steady := by simp [State.settle]

/-- Settling leaves the slots where no packet waits for a peer that is down: no other part of it ends a command. -/
theorem settle_slots (h : ∀ t ∈ s.net.txConns, t.down = true → t.backlog = []) : s.settle.slots = s.slots := by
  have hcalm : s.tallyFlash.settleLoans.slotsAndNet = s.slotsAndNet := (settleLoans_slotsAndNet _).trans (tallyFlash_slotsAndNet s)
  have hnet : s.tallyFlash.settleLoans.net = s.net := congrArg (·.2.2) hcalm
  rw [State.settle, fresh_slots, peaks_slots, notePn_slots, settleHoles_slots, releaseOwed_slots, resumeLinks_slots,
    failDown_of_reachable _ (hnet ▸ h), slots_of_slotsAndNet hcalm]

end

/-- Settles O7: each part of settling keeps `steady`, and each but the failing of packets keeps the slots. -/
theorem settleKeeps : Obligations.SettleKeeps := by
  intro s
  have hsteady := settle_steady s
  simp only [State.steady, Prod.mk.injEq] at hsteady
  obtain ⟨hpending, hfitted, hstart, hstrobes, htiers, hdies, hrails, hseq, htexts, harbs, hsec, hcal, hi3c⟩ := hsteady
  exact ⟨hpending, hfitted, hstart, hstrobes, htiers, hdies, hrails, hseq, htexts, harbs, hsec, hcal, hi3c,
    fun h => Prod.mk.inj (settle_slots s h)⟩

end Sys2Proof.Machine
end

section
/-! SUPPORT. Commands family: the first checks of a command, and a capsule of an opcode row or of a list at the intake: taken into flight,
ended on poison, rejected or left with its sender (O11 to O15). -/

namespace Sys2Proof.Machine

/-! ### The first checks of a command (R147) -/

/-- The descriptor length that check 1 wants, where it is fixed. -/
def State.wantBody (s : State) (p op : Nat) (h : CapHdr) (body : List Byte) : Option Nat :=
  let cs := s.chainsOf p op body
  if hIsList h then some 16
  else if op = opPRODUCT then some (if cs.1.chained || (cs.1.missing && body.length = 208) then 208 else 104)
  else if op = opTOKENIZE then none
  else if op ≤ 0x10 then some (descBytes op) else none

section
variable {s : State} {p op d n : Nat} {h : CapHdr} {body : List Byte}

/-- What check 1 finds is what the checks report. -/
theorem checks_of_headerBad (hbad : headerBad op h body.length (s.wantBody p op h body) false = some d) :
    s.checks p op h body false false = some ⟨stBAD_HEADER, d, 0, 0xFF, none⟩ := by
  unfold State.checks
  extract_lets cs want hdr
  have hhdr : hdr = some ⟨stBAD_HEADER, d, 0, 0xFF, none⟩ := by
    have hwant : want = s.wantBody p op h body := rfl
    simp only [hdr, hwant, hbad]
    rfl
  rw [hhdr]
  rfl

theorem wantBody_of_unknown (hop : 0x10 < op) (hl : hIsList h = false) : s.wantBody p op h body = none := by
  have hprod : op ≠ opPRODUCT := by simp [opPRODUCT]; omega
  simp [State.wantBody, hl, hprod, hop.not_ge]

/-- With a good header an unknown opcode is what check 2 reports. -/
theorem checks_of_unknown (hop : 0x10 < op) (hl : hIsList h = false) (hgood : headerBad op h body.length none false = none) :
    s.checks p op h body false false = some ⟨stBAD_OPCODE, 0, 0, 0xFF, none⟩ := by
  have htok : op ≠ opTOKENIZE := by simp [opTOKENIZE]; omega
  unfold State.checks
  extract_lets cs want hdr known
  have hhdr : hdr = none := by
    have hwant : want = none := wantBody_of_unknown hop hl
    simp [hdr, hwant, hgood, htok]
  have hknown : known = some ⟨stBAD_OPCODE, 0, 0, 0xFF, none⟩ := if_pos hop
  rw [hhdr, hknown]
  rfl

theorem headerBad_version (hv : h.version ≠ 1#8) (want : Option Nat) : headerBad op h n want false = some 0x00 := by
  simp [headerBad, firstOf, hv]

theorem headerBad_length (hv : h.version = 1#8) (hl : hIsList h = false) (hlen : h.length.toNat ≠ 64 + n) (want : Option Nat) :
    headerBad op h n want false = some 0x02 := by
  simp [headerBad, firstOf, hv, hl, hlen]

/-- A reserved byte that is not 0 is the first fault of a header whose fields before it are right. -/
theorem headerBad_reserved (hv : h.version = 1#8) (hl : hIsList h = false) (hlen : h.length.toNat = 64 + n) (hn : n ≤ 4032)
    (hf : h.flags.toNat < 0x80) (hr : hRnd h < 2) (he : h.energy.toNat < 16) (hz : h.rsv ≠ 0#8) :
    headerBad op h n none false = some 0x07 := by
  have hshort : ¬ 4096 < 64 + n := by omega
  have hbit : bit h.flags.toNat 7 = false := by
    simp only [bit, decide_eq_false_iff_not]
    omega
  have hhigh : h.flags.toNat / 256 = 0 := by omega
  have henergy : h.energy.toNat / 16 = 0 := by omega
  simp [headerBad, firstOf, hv, hl, hlen, hshort, hbit, hhigh, hr.not_ge, henergy, hz]

end

/-- Settles O14: checks 1 and 2 stand first, and the fields of check 1 are tested in the order of their offsets. -/
theorem checksReportFirst : Obligations.ChecksReportFirst := by
  intro s p op h body
  refine ⟨fun hv => checks_of_headerBad (headerBad_version hv _), fun hv hl hlen => checks_of_headerBad (headerBad_length hv hl hlen _),
    fun hop hv hlen hn hf hl hr he hz => ?_, fun hop hgood hl => checks_of_unknown hop hl hgood⟩
  exact checks_of_headerBad (wantBody_of_unknown hop hl ▸ headerBad_reserved hv hl hlen hn hf hr he hz)

/-! ### Capsules of the opcode rows (R136, R137, R141, R147) -/

section
variable {s : State} {p op : Nat} {h : CapHdr} {body : List Byte} {i : Instr}

/-- The row of an opcode offers its capsule to the checks. -/
theorem exec_of_capsuleRow {p : Fin 16} (hrow : capsuleRow i = some (p, op, h, body)) : exec i s = done (s.offer p op h body) := by
  unfold capsuleRow at hrow
  split at hrow
  case h_21 => cases hrow
  all_goals
    cases hrow
    rfl

theorem takes_iff : s.takes p = true ↔ (s.part p).st = .active ∨ (s.part p).st = .resuming := by
  simp [State.takes]

/-- A capsule that the intake takes, with room in flight, is checked. -/
theorem offer_command (ht : s.takes p = true) (hw : s.listWaits p = false) (hl : hIsList h = false) (hr : s.room p = true) :
    s.offer p op h body = s.acceptCapsule p op h body false := by
  simp [State.offer, ht, hw, hl, hr]

theorem offer_list (ht : s.takes p = true) (hw : s.listWaits p = false) (hl : hIsList h = true) (hr : (s.listsOf p).length < 64) :
    s.offer p op h body = s.acceptCapsule p op h body false := by
  simp [State.offer, ht, hw, hl, hr]

/-- Backpressure: what the intake cannot take waits with its sender (R137, R578). -/
theorem offer_waits (hb : s.takes p = false ∨ s.listWaits p = true ∨ (hIsList h = false ∧ s.room p = false) ∨
    (hIsList h = true ∧ 64 ≤ (s.listsOf p).length)) : s.offer p op h body = s := by
  unfold State.offer
  rcases hb with ht | hw | ⟨hl, hr⟩ | ⟨hl, hn⟩
  · simp [ht]
  · simp [hw]
  · simp [hl, hr]
  · simp [hl, hn.not_gt]

theorem acceptCapsule_rejected {r : Reject} (hl : hIsList h = false) (hc : s.checks p op h body false false = some r) :
    s.acceptCapsule p op h body false =
      ({ s with nextSeq := s.nextSeq + 1 } : State).rejectCmd (newCmd ⟨s.nextSeq, 0⟩ p op h body) r := by
  simp [State.acceptCapsule, hl, hc]

theorem acceptCapsule_passed (hl : hIsList h = false) (hc : s.checks p op h body false false = none) :
    s.acceptCapsule p op h body false =
      ({ s with nextSeq := s.nextSeq + 1 } : State).enterFlight (newCmd ⟨s.nextSeq, 0⟩ p op h body) := by
  simp [State.acceptCapsule, hl, hc]

/-- A list capsule without a fault is in flight with none of its records accepted (R141). -/
theorem acceptCapsule_list (hl : hIsList h = true) (hc : s.listBad p op h body = none) :
    s.acceptCapsule p op h body false =
      { s with nextSeq := s.nextSeq + 1, lists := s.lists ++ [⟨s.nextSeq, p, h.tag.toNat, hQuiet h, fld body 0 8, 0, fld body 8 4⟩] } := by
  simp [State.acceptCapsule, hl, hc]

/-- A command waits on poison where a semaphore of one of its wait entries is poisoned, unless it is carried (R179, R340). -/
theorem waitsOnPoison_iff {c : Cmd} : s.waitsOnPoison c = true ↔
    c.carried = false ∧ ∃ e ∈ hWaits c.hdr, entKind e ≠ 0 ∧ (s.sem (entSem e)).poison = true := by
  simp [State.waitsOnPoison]

theorem enterFlight_clean {c : Cmd} (hp : ∀ e ∈ hWaits c.hdr, entKind e ≠ 0 → (s.sem (entSem e)).poison = false) :
    s.enterFlight c = { s with cmds := s.cmds ++ [c] } := by
  refine if_neg fun hwait => ?_
  obtain ⟨-, e, he, hk, hpoison⟩ := waitsOnPoison_iff.mp hwait
  have hclean : (s.sem (entSem e)).poison = false := hp e he hk
  exact absurd (hclean.symm.trans hpoison) (by decide)

theorem enterFlight_poisoned {c : Cmd} (hc : c.carried = false)
    (hp : ∃ e ∈ hWaits c.hdr, entKind e ≠ 0 ∧ (s.sem (entSem e)).poison = true) :
    s.enterFlight c = ({ s with cmds := s.cmds ++ [c] } : State).endCmd c stDATA_ERROR 0 :=
  if_pos (waitsOnPoison_iff.mpr ⟨hc, hp⟩)

end

/-- Settles O11: the row's capsule passes the checks, and enters flight or ends there. -/
theorem capsuleAccepted : Obligations.CapsuleAccepted := by
  intro i s p op h body hrow hl hst hw hr hc
  rw [exec_of_capsuleRow hrow, offer_command (takes_iff.mpr hst) hw hl hr, acceptCapsule_passed hl hc]
  exact ⟨fun hp => congrArg done (enterFlight_clean hp), fun hp => congrArg done (enterFlight_poisoned rfl hp)⟩

/-- Settles O12: the row's capsule is not taken. -/
theorem capsuleWaits : Obligations.CapsuleWaits := by
  intro i s p op h body hrow hb
  have hclosed : ((s.part p).st ≠ .active ∧ (s.part p).st ≠ .resuming) ↔ s.takes p = false := by
    rw [← not_or, ← takes_iff, Bool.not_eq_true]
  rw [exec_of_capsuleRow hrow, offer_waits (by rwa [hclosed] at hb), done]

/-- Settles O13: the row's capsule is taken and fails its checks. -/
theorem capsuleRejected : Obligations.CapsuleRejected := by
  intro i s p op h body r hrow hl hst hw hr hc
  rw [exec_of_capsuleRow hrow, offer_command (takes_iff.mpr hst) hw hl hr, acceptCapsule_rejected hl hc, done]

/-! ### The list flag -/

/-- The header of a list capsule: LIST is the lowest bit of FLAGS (R139). -/
def listHdr (h : CapHdr) : CapHdr := { h with flags := h.flags ||| 1#16 }

theorem bit_or_one (v b : Nat) : bit (v ||| 1) b = (decide (b = 0) || bit v b) := by
  have hbit : ∀ v, bit v b = v.testBit b := fun v => by simp [bit, Nat.testBit_eq_decide_div_mod_eq]
  have hone : Nat.testBit 1 b = decide (b = 0) := by cases b <;> simp [Nat.testBit_succ]
  rw [hbit, hbit, Nat.testBit_or, hone, Bool.or_comm]

theorem hIsList_listHdr (h : CapHdr) : hIsList (listHdr h) = true := by simp [hIsList, listHdr, bit_or_one]

theorem hQuiet_listHdr (h : CapHdr) : hQuiet (listHdr h) = hQuiet h := by simp [hQuiet, listHdr, bit_or_one]

theorem exec_listCapsule_eq (s : State) (p : Fin 16) (h : CapHdr) (body : List Byte) :
    exec (.listCapsule p h body) s = done (s.offer p 0x00 (listHdr h) body) := rfl

/-- Settles O15: LIST_CAPSULE sets its flag, which turns it to the checks of R141; QUIET stays what it was. -/
theorem listCapsuleAccepted : Obligations.ListCapsuleAccepted := by
  intro s p h body hst hw hn hbad
  rw [exec_listCapsule_eq, offer_list (takes_iff.mpr hst) hw (hIsList_listHdr h) hn, acceptCapsule_list (hIsList_listHdr h) hbad,
    hQuiet_listHdr, done]
  rfl

end Sys2Proof.Machine
end

section
/-! SUPPORT. Commands family: entries of an intake ring, records of a list and cancels by tag (O17 to O19, O26). -/

namespace Sys2Proof.Machine

/-! ### Intake rings (R136, R582) -/

/-- The partition's ring with one more entry consumed. -/
def Part.consumed (x : Part) : Part :=
  { x with
    intakePos := (x.intakePos + 1) % 2 ^ x.intakeLog2
    intakePhase := if (x.intakePos + 1) % 2 ^ x.intakeLog2 = 0 then !x.intakePhase else x.intakePhase
    intakeCount := (x.intakeCount + 1) % 2 ^ 32 }

theorem consumeEntry_eq (s : State) (p : Nat) : s.consumeEntry p =
    if (s.part p).consumed.intakeCount % 16 = 0 then (s.setPart p (s.part p).consumed).reportIntake p
    else s.setPart p (s.part p).consumed := rfl

/-- Settles O18: every sixteenth count is reported. -/
theorem consumeEntry : Obligations.ConsumeEntry := fun s p =>
  ⟨fun h => (consumeEntry_eq s p).trans (if_neg h), fun h => (consumeEntry_eq s p).trans (if_pos h)⟩

section
variable {s : State} {p : Nat} {e b : List Byte}

/-- Where the intake takes an entry that can be read, it is consumed if its PHASE is the ring's. -/
theorem exec_intakeEntry_open {p : Fin 16} (ht : s.takes p.val = true) (hw : s.listWaits p.val = false) (hr : s.room p.val = true)
    (he : s.readBytes p.val ((s.part p.val).intakeBase + 16 * (s.part p.val).intakePos) 16 = .ok e) : exec (.intakeEntry p) s =
      if bit (fld e 0xF 1) 7 = (s.part p.val).intakePhase then done (s.takeEntry p.val e) else done (s.reportIntake p.val) := by
  have hopen : ¬ (!(s.takes p.val) || s.listWaits p.val || !(s.room p.val)) = true := by simp [ht, hw, hr]
  refine (if_neg hopen).trans ?_
  rw [he]

/-- An entry's reserved fields are zero. -/
def entryPlain (e : List Byte) : Prop := fld e 0xA 5 = 0 ∧ fld e 0xF 1 % 128 = 0

/-- The length that an entry names is one of a capsule. -/
def entrySized (e : List Byte) : Prop := 64 ≤ fld e 8 2 ∧ fld e 8 2 ≤ 4096

theorem takeEntry_reserved (h : ¬ entryPlain e) : s.takeEntry p e = (s.consumeEntry p).rejectEntry p [] stBAD_HEADER 0xF0 :=
  if_pos (by simpa [entryPlain, imp_iff_not_or] using h)

/-- Past the reserved fields, an entry is judged by the capsule that it names. -/
theorem takeEntry_plain (h : entryPlain e) : s.takeEntry p e =
    if fld e 8 2 < 64 || 4096 < fld e 8 2 then (s.consumeEntry p).rejectEntry p [] stBAD_HEADER 0xF1
    else if fld e 0 8 % 64 ≠ 0 then (s.consumeEntry p).rejectEntry p [] stBAD_HEADER 0xF2
    else if !(s.inWindow p false (fld e 0 8) (fld e 8 2)) then (s.consumeEntry p).rejectEntry p [] stBAD_HEADER 0xF3
    else match s.readBytes p (fld e 0 8) (fld e 8 2) with
      | .error _ => (s.consumeEntry p).rejectEntry p (s.headerAt p (fld e 0 8)) stDATA_ERROR 0xF4
      | .ok b =>
        if fld b 2 2 ≠ fld e 8 2 then (s.consumeEntry p).rejectEntry p (b.take 64) stBAD_HEADER 0x02
        else if hIsList (hdrOf b) && 64 ≤ (s.listsOf p).length then s
        else (s.consumeEntry p).acceptBytes p b false :=
  if_neg (by simp [h.1, h.2])

theorem takeEntry_length (h : entryPlain e) (hn : fld e 8 2 < 64 ∨ 4096 < fld e 8 2) :
    s.takeEntry p e = (s.consumeEntry p).rejectEntry p [] stBAD_HEADER 0xF1 := by
  rw [takeEntry_plain h, if_pos (by simpa using hn)]

theorem takeEntry_misaligned (h : entryPlain e) (hn : entrySized e) (ha : fld e 0 8 % 64 ≠ 0) :
    s.takeEntry p e = (s.consumeEntry p).rejectEntry p [] stBAD_HEADER 0xF2 := by
  rw [takeEntry_plain h, if_neg (by simpa [entrySized] using hn), if_pos ha]

theorem takeEntry_outside (h : entryPlain e) (hn : entrySized e) (ha : fld e 0 8 % 64 = 0)
    (hw : s.inWindow p false (fld e 0 8) (fld e 8 2) = false) :
    s.takeEntry p e = (s.consumeEntry p).rejectEntry p [] stBAD_HEADER 0xF3 := by
  rw [takeEntry_plain h, if_neg (by simpa [entrySized] using hn), if_neg (not_not.mpr ha), if_pos (by simp [hw])]

theorem takeEntry_capsule (h : entryPlain e) (hn : entrySized e) (ha : fld e 0 8 % 64 = 0)
    (hw : s.inWindow p false (fld e 0 8) (fld e 8 2) = true) (hb : s.readBytes p (fld e 0 8) (fld e 8 2) = .ok b)
    (hlen : fld b 2 2 = fld e 8 2) (hl : hIsList (hdrOf b) = false) :
    s.takeEntry p e = (s.consumeEntry p).acceptBytes p b false := by
  rw [takeEntry_plain h, if_neg (by simpa [entrySized] using hn), if_neg (not_not.mpr ha), if_neg (by simp [hw]), hb]
  simp [hlen, hl]

end

/-- Settles O17: an old entry reports the count, and a new one is judged in the order of R582. -/
theorem intakeEntry : Obligations.IntakeEntry := by
  intro s p e ht hw hr he a n reject
  have hopen := exec_intakeEntry_open ht hw hr he
  refine ⟨fun hold => hopen.trans (if_neg hold), fun hnew => ?_⟩
  have htake : exec (.intakeEntry p) s = done (s.takeEntry p.val e) := hopen.trans (if_pos hnew)
  have reject_of : ∀ {d : Nat}, s.takeEntry p.val e = (s.consumeEntry p.val).rejectEntry p.val [] stBAD_HEADER d → reject d :=
    fun h => htake.trans (congrArg done h)
  refine ⟨fun hbad => reject_of (takeEntry_reserved fun hplain => ?_), fun h1 h2 hn => reject_of (takeEntry_length ⟨h1, h2⟩ hn),
    fun h1 h2 hlo hhi => ⟨fun ha => reject_of (takeEntry_misaligned ⟨h1, h2⟩ ⟨hlo, hhi⟩ ha),
      fun ha hout => reject_of (takeEntry_outside ⟨h1, h2⟩ ⟨hlo, hhi⟩ ha hout),
      fun b ha hin hb hlen hl => htake.trans (congrArg done (takeEntry_capsule ⟨h1, h2⟩ ⟨hlo, hhi⟩ ha hin hb hlen hl))⟩⟩
  exact hbad.elim (fun h => h hplain.1) (fun h => h hplain.2)

/-! ### Records of lists (R141, R578) -/

section
variable {s : State} {l : ListCap} {h b : List Byte}

theorem exec_listRecordAccept_none {p : Fin 16} (hf : (s.listsOf p.val).find? (fun l => l.accepted < l.total) = none) :
    exec (.listRecordAccept p) s = done s := by
  simp only [exec_listRecordAccept, execListRecordAccept, hf]
  exact ite_self _

theorem exec_listRecordAccept_some {p : Fin 16} (ht : s.takes p.val = true) (hr : s.room p.val = true)
    (hf : (s.listsOf p.val).find? (fun l => l.accepted < l.total) = some l) : exec (.listRecordAccept p) s = done (s.takeRecord l) := by
  have hopen : ¬ (!(s.takes p.val) || !(s.room p.val)) = true := by simp [ht, hr]
  refine (if_neg hopen).trans ?_
  rw [hf]

/-- A list whose record was taken: it goes on to the next multiple of 64. -/
def ListCap.advanced (l : ListCap) (n : Nat) : ListCap := { l with next := l.next + roundUp n 64, accepted := l.accepted + 1 }

/-- A list replaced. -/
def State.setList (s : State) (l m : ListCap) : State := { s with lists := s.lists.map (fun k => if k.seq = l.seq then m else k) }

variable (hin : s.inWindow l.part false l.next 64 = true) (hh : s.readBytes l.part l.next 64 = .ok h)
include hin hh

theorem takeRecord_bad (hn : fld h 2 2 < 64 ∨ 4096 < fld h 2 2) : s.takeRecord l = s.failList l (fld h 2 2) := by
  simp [State.takeRecord, hin, hh, hn]

theorem takeRecord_taken (hlo : 64 ≤ fld h 2 2) (hhi : fld h 2 2 ≤ 4096) (hw : s.inWindow l.part false l.next (fld h 2 2) = true)
    (hb : s.readBytes l.part l.next (fld h 2 2) = .ok b) : s.takeRecord l =
      if l.accepted + 1 = l.total then
        ((s.setList l (l.advanced (fld h 2 2))).acceptBytes l.part b true).endList (l.advanced (fld h 2 2)) stOK
      else (s.setList l (l.advanced (fld h 2 2))).acceptBytes l.part b true := by
  simp [State.takeRecord, hin, hh, hlo.not_gt, hhi.not_gt, hw, hb, ListCap.advanced, State.setList]

end

/-- Settles O19: the record's length decides whether it is taken, and its number whether the list ends. -/
theorem listRecord : Obligations.ListRecord := by
  intro s p ht hr
  refine ⟨fun hf => exec_listRecordAccept_none hf, ?_⟩
  intro l h hf hin hh n m u
  have hexec := exec_listRecordAccept_some ht hr hf
  refine ⟨fun hn => hexec.trans (congrArg done (takeRecord_bad hin hh hn)), fun b hlo hhi hw hb => ?_⟩
  have htake := hexec.trans (congrArg done (takeRecord_taken hin hh hlo hhi hw hb))
  refine ⟨fun hmore => htake.trans ?_, fun hlast => htake.trans ?_⟩
  · rw [if_neg hmore, done]
    rfl
  · rw [if_pos hlast, done]
    rfl

/-! ### Cancels (R159) -/

section
variable {s : State} {p n : Nat} {c : Cmd}

/-- The tag that CANCEL_TAG names. -/
def State.cancelled (s : State) (p : Nat) : Nat :=
  s.field (pgCMD p) oCMD_CANCEL_TAG_LO 31 0 + 2 ^ 32 * s.field (pgCMD p) oCMD_CANCEL_TAG_HI 31 0

/-- The commands of their own, and the lists, that carry the tag. -/
def State.tagCmds (s : State) (p : Nat) : List Cmd :=
  s.cmds.filter (fun c => c.part = p && c.ref.sub = 0 && c.hdr.tag.toNat = s.cancelled p)
def State.tagLists (s : State) (p : Nat) : List ListCap := s.lists.filter (fun l => l.part = p && l.tag = s.cancelled p)

theorem cancelTag_none (hc : s.tagCmds p = []) (hl : s.tagLists p = []) : s.cancelTag p = s.setField (pgCMD p) oCMD_CANCEL_CTRL 3 2 3 := by
  unfold State.tagCmds State.tagLists State.cancelled at *
  simp only [State.cancelTag, hc, hl]
  rfl

theorem cancelTag_cmd (hc : s.tagCmds p = [c]) (hl : s.tagLists p = []) (hd : s.cmd? ⟨c.ref.seq, 0⟩ = some c) : s.cancelTag p =
    if c.phase = .waiting || c.phase = .issued then (s.endCmd c stCANCELLED 0).setField (pgCMD p) oCMD_CANCEL_CTRL 3 2 1
    else s.setField (pgCMD p) oCMD_CANCEL_CTRL 3 2 2 := by
  have hnone : s.lists.find? (fun l => l.part = p && l.tag = s.cancelled p && l.seq = c.ref.seq) = none := by
    rw [List.find?_eq_none]
    intro l hmem hl'
    have : l ∈ s.tagLists p := List.mem_filter.mpr ⟨hmem, by simp_all⟩
    simp [hl] at this
  unfold State.tagCmds State.tagLists State.cancelled at *
  simp only [State.cancelTag, hc, hl, List.map_cons, List.map_nil, List.append_nil, List.min?_singleton, hnone, hd]

end

/-- Settles O26: by what carries the tag, and by the phase of the one command that does. -/
theorem cancel : Obligations.Cancel := by
  intro s p g tag
  refine ⟨fun hsil => onPage_of_silent hsil _, fun hans hl => ?_⟩
  have hexec : exec (.cancel p) s = done (s.cancelTag p.val) := onPage_of_answers hans _
  rw [hexec, done]
  refine ⟨fun hc => by rw [cancelTag_none hc hl], fun c hc hd _ => ?_⟩
  rw [cancelTag_cmd hc hl hd]
  refine ⟨fun hph => ?_, fun hw hi => ?_⟩
  · rw [if_pos (by simpa using hph)]
  · rw [if_neg (by simp [hw, hi])]

end Sys2Proof.Machine
end

section
/-! SUPPORT. Commands family: a command at its turn to issue and to commit (O20, O22), and what of that turn is nothing for a NOP (O21). -/

namespace Sys2Proof.Machine

/-! ### Issue (R140, R148, R149, R179, R461) -/

section
variable {s : State} {r : CmdRef} {c : Cmd}

/-- A command that has not issued waits for a poisoned semaphore (R179). -/
def State.endsOnPoison (s : State) (c : Cmd) : Bool := c.unissued && s.waitsOnPoison c

theorem endsOnPoison_iff : s.endsOnPoison c = true ↔
    c.phase = .waiting ∧ c.carried = false ∧ ∃ e ∈ hWaits c.hdr, entKind e ≠ 0 ∧ (s.sem (entSem e)).poison = true := by
  rw [State.endsOnPoison, Bool.and_eq_true, waitsOnPoison_iff, Cmd.unissued, decide_eq_true_eq]

/-- The issue of a command that R148 lets issue: borrowed energy is counted, and a STEP issues with its action. -/
def State.issueWith (s : State) (c : Cmd) (borrowed : Bool) : State :=
  let s := if borrowed then s.count pgTRV oTRV_BORROWS 1 else s
  if c.opcode = opSTEP then s.issueStep c borrowed else s.issueCmd c borrowed

theorem tryIssue_absent (h : s.cmd? r = none) : s.tryIssue r = s := by rw [State.tryIssue, h]

theorem tryIssue_poisoned (h : s.cmd? r = some c) (hp : s.endsOnPoison c = true) : s.tryIssue r = s.endCmd c stDATA_ERROR 0 := by
  rw [State.tryIssue, h]
  exact if_pos hp

/-- What a command in flight that waits for no poisoned semaphore does at its turn. -/
theorem tryIssue_sound (h : s.cmd? r = some c) (hp : s.endsOnPoison c = false) : s.tryIssue r =
    if !(s.canIssue c) || s.earlierReady c then s
    else if (s.stagingFor c).isNone then s.holdStaging c
    else match s.energyCheck c with
      | none => s.holdEnergy c
      | some b => s.issueWith c b := by
  rw [State.tryIssue, h]
  refine (if_neg ?_).trans rfl
  rw [← State.endsOnPoison, hp]
  decide

theorem tryIssue_barred (h : s.cmd? r = some c) (hp : s.endsOnPoison c = false) (hb : s.canIssue c = false ∨ s.earlierReady c = true) :
    s.tryIssue r = s := by
  rw [tryIssue_sound h hp, if_pos (by simpa using hb)]

section
variable (h : s.cmd? r = some c) (hp : s.endsOnPoison c = false) (hcan : s.canIssue c = true) (hfirst : s.earlierReady c = false)
include h hp hcan hfirst

theorem tryIssue_unstaged (hs : s.stagingFor c = none) : s.tryIssue r = s.holdStaging c := by
  rw [tryIssue_sound h hp, if_neg (by simp [hcan, hfirst]), if_pos (by simp [hs])]

theorem tryIssue_staged (hs : s.stagingFor c ≠ none) : s.tryIssue r = match s.energyCheck c with
    | none => s.holdEnergy c
    | some b => s.issueWith c b := by
  rw [tryIssue_sound h hp, if_neg (by simp [hcan, hfirst]), if_neg (by simpa using hs)]

theorem tryIssue_held (hs : s.stagingFor c ≠ none) (he : s.energyCheck c = none) : s.tryIssue r = s.holdEnergy c := by
  rw [tryIssue_staged h hp hcan hfirst hs, he]

theorem tryIssue_ready {b : Bool} (hs : s.stagingFor c ≠ none) (he : s.energyCheck c = some b) : s.tryIssue r = s.issueWith c b := by
  rw [tryIssue_staged h hp hcan hfirst hs, he]

end
end

/-- Settles O20: the conditions of R148 in the order in which a command meets them. -/
theorem commandIssue : Obligations.CommandIssue := by
  intro s r c
  rw [exec_commandIssue, execCommandIssue, done]
  refine ⟨fun h => by rw [tryIssue_absent h], ?_⟩
  intro h poisoned
  refine ⟨fun hp => by rw [tryIssue_poisoned h (endsOnPoison_iff.mpr hp)], fun hnot => ?_⟩
  have hp : s.endsOnPoison c = false := Bool.eq_false_iff.mpr (mt endsOnPoison_iff.mp hnot)
  refine ⟨fun hb => by rw [tryIssue_barred h hp hb], fun hcan hfirst => ⟨fun hs => ?_,
    fun hs he => ?_, fun hs he => ?_, fun hs he => ?_⟩⟩
  · rw [tryIssue_unstaged h hp hcan hfirst hs]
  · rw [tryIssue_held h hp hcan hfirst hs he]
  · rw [tryIssue_ready h hp hcan hfirst hs he]
    rfl
  · rw [tryIssue_ready h hp hcan hfirst hs he]
    rfl

/-! ### Commit (R151, R152, R360) -/

section
variable {s : State} {r : CmdRef} {c : Cmd}

/-- An interrupted application of updates can go on. -/
def State.resumes (s : State) (c : Cmd) : Bool := c.phase = .applying && (s.energyDies c).all (fun q => !((s.die q).inReset))

theorem tryCommit_eq (h : s.cmd? r = some c) : s.tryCommit r =
    if s.workDone c then s.commitCmd c
    else if s.resumes c then s.scatterApply c
    else if c.phase = .issued && c.opcode = opMIGRATE then (s.copiesLeft c).foldl (fun t g => t.startCopy c g) s
    else s := by
  rw [State.tryCommit, h]
  rfl

theorem workDone_of_not_issued (h : c.phase ≠ .issued) : s.workDone c = false := by simp [State.workDone, h]

theorem resumes_of_not_applying (h : c.phase ≠ .applying) : s.resumes c = false := by simp [State.resumes, h]

end

/-- Settles O22: only an issued command's work is complete, only an applying one resumes, and only an issued MIGRATE tries again. -/
theorem commandCommit : Obligations.CommandCommit := by
  intro s r c
  rw [exec_commandCommit, execCommandCommit, done]
  refine ⟨fun h => by rw [State.tryCommit, h], fun h => ?_⟩
  rw [tryCommit_eq h]
  refine ⟨fun hdone => by rw [if_pos hdone], fun hph hup => ?_, fun hnot hph hop => ?_, fun hnot hph hop => ?_⟩
  · have hwork : s.workDone c = false := workDone_of_not_issued (by simp [hph])
    rw [if_neg (by simp [hwork]), if_pos (by simp [State.resumes, hph, hup])]
  · have hidle : s.resumes c = false := resumes_of_not_applying (by simp [hph])
    rw [if_neg (by simp [hnot]), if_neg (by simp [hidle]), if_pos (by simp [hph, hop])]
  · have hidle : s.resumes c = false := resumes_of_not_applying hph
    rw [if_neg (by simp [hnot]), if_neg (by simp [hidle]), if_neg (by simpa using hop)]

/-! ### A NOP issues (R140, R142, R148, R149) -/

section
variable (s : State) (p : Nat) (body : List Byte)

/-- A NOP names no region. -/
theorem regions_nop (ptr : Nat) : s.regions p opNOP body ptr = [] := rfl

theorem outputsOf_nop (info ptr : Nat) : s.outputsOf p opNOP body info ptr = [] := by
  have hinfo : infoRegion opNOP info = [] := by
    simp [infoRegion, opNOP, opSEARCH, opMERGE, opGATHER, opSCATTER, opSELECT, opTOKENIZE, opDETOKENIZE, opPACK]
  have hop : ¬ (opNOP = opMIGRATE && (migOf body).tier ≠ 0xFE) = true := by simp [opNOP, opMIGRATE]
  rw [State.outputsOf, if_neg hop, regions_nop, hinfo]
  rfl

theorem tilingOf_nop (h : CapHdr) : s.tilingOf p opNOP h body = Tiling.none := rfl

end

section
variable (s : State) (p tn : Nat)

/-- Units dealt so far, none of them to any die, and none left. -/
def DealtNone (a : List (Nat × Nat) × Nat) : Prop := (∀ e ∈ a.1, e.2 = 0) ∧ a.2 = 0

/-- With none left the next die gets none. -/
theorem DealtNone.next {a : List (Nat × Nat) × Nat} (h : DealtNone a) (d k : Nat) :
    DealtNone (a.1 ++ [(d, min a.2 k)], a.2 - min a.2 k) := by
  obtain ⟨hnone, hleft⟩ := h
  refine ⟨fun e he => ?_, by simp [hleft]⟩
  rcases List.mem_append.mp he with he | he
  · exact hnone e he
  · simp_all

/-- Nor does the die that takes what is left. -/
theorem DealtNone.all {a : List (Nat × Nat) × Nat} (h : DealtNone a) (q : Nat) : ∀ e ∈ (q, a.2) :: a.1, e.2 = 0 :=
  List.forall_mem_cons.mpr ⟨h.2, h.1⟩

/-- Of no units every die's share is none. -/
theorem dealCounts_zero (set : List Nat) : ∀ e ∈ s.dealCounts p tn set 0, e.2 = 0 := by
  cases set with
  | nil => simp [State.dealCounts]
  | cons q rest =>
    rw [State.dealCounts]
    exact DealtNone.all (q := q) (List.foldlRecOn rest _ (motive := DealtNone) ⟨by simp, rfl⟩ fun a ha d _ => ha.next d _)

theorem rangesOf_empty {l : List (Nat × Nat)} (h : ∀ e ∈ l, e.2 = 0) (lo : Nat) : ∀ x ∈ rangesOf lo l, x.lo = x.hi := by
  induction l generalizing lo with
  | nil => simp [rangesOf]
  | cons e l ih =>
    intro x hx
    rcases List.mem_cons.mp hx with rfl | hx
    · simpa using h e (List.mem_cons_self ..)
    · exact ih (fun e he => h e (List.mem_cons_of_mem _ he)) _ x hx

theorem deal_zero : ∀ x ∈ s.deal p tn 0, x.lo = x.hi := rangesOf_empty (dealCounts_zero s p tn _) 0

end

section
variable {s : State} {c : Cmd} (hop : c.opcode = opNOP)
include hop

theorem moreOuts_nop : s.moreOuts c = [] := by
  simp [State.moreOuts, hop, opNOP, opSCATTER, opTOKENIZE, opDETOKENIZE]

theorem spansOf_nop : s.spansOf c = [] := by
  have hmore : s.moreSpans c = [] := by
    rw [State.moreSpans, if_neg (by simp [hop, opNOP, opMIGRATE]), if_neg (by simp [hop, opNOP, opSWITCH]), moreOuts_nop hop]
  rw [State.spansOf, hmore, hop, outputsOf_nop]
  rfl

theorem energyDies_nop : s.energyDies c = [] := if_neg (by rw [hop]; decide)

/-- A NOP raises no die's estimate. -/
theorem energyCheck_nop : s.energyCheck c = some false := by
  simp [State.energyCheck, energyDies_nop hop]

theorem stagingFor_nop : s.stagingFor c = some [] := by
  rw [State.stagingFor, hop, tilingOf_nop]
  rfl

/-- A NOP of an ACTIVE partition issues as soon as its waits hold. -/
theorem canIssue_nop (hph : c.phase = .waiting) (hst : (s.part c.part).st = .active) (hw : s.waitsMet c = true) : s.canIssue c = true := by
  have hcore : coreWork c.opcode = false := by rw [hop]; decide
  simp [State.canIssue, hph, hst, hw, spansOf_nop hop, State.spansClash, energyDies_nop hop, hcore]

theorem issueBad_nop : s.issueBad c = none := by
  simp [State.issueBad, hop, opNOP, opGATHER, opSCATTER, opSEARCH, opMERGE, opSELECT, opTOKENIZE, opDETOKENIZE,
    opSWITCH, opMIGRATE, opCOLLECT]

theorem expertPages_nop : s.expertPages c = [] := by
  simp [State.expertPages, hop, opNOP, opGATHER]

theorem takeReads_nop : s.takeReads c = (s, [], []) := by
  have hmore : s.moreInputs c = [] := by
    simp [State.moreInputs, hop, opNOP, opGATHER, opSCATTER, opSEARCH, opMERGE, opTOKENIZE, opDETOKENIZE, opATTEND]
  have hin : s.inputsOf c = [] := by
    rw [State.inputsOf, hmore, hop, regions_nop]
    rfl
  rw [State.takeReads, hin]
  rfl

end

/-- The reserved amounts of a list of takes raised (R140). -/
def State.reserveAll (s : State) (l : List (Nat × Nat)) : State := l.foldl (fun (t : State) e => t.semReserve e.1 e.2) s

section
variable (s : State) (l : List (Nat × Nat))

/-- What does not look at semaphores is the same after a reservation. -/
theorem reserveAll_keeps {α : Type} (g : State → α) (hg : ∀ (u : State) (k : Nat) (x : Sem), g (u.setSem k x) = g u) :
    g (s.reserveAll l) = g s := foldl_keeps g _ (fun u _ => hg u _ _) _ _

/-- What a reservation makes of the semaphores depends on them alone. -/
theorem reserveAll_sems_congr {s t : State} (h : s.sems = t.sems) : (s.reserveAll l).sems = (t.reserveAll l).sems := by
  induction l generalizing s t with
  | nil => exact h
  | cons e l ih => exact ih (by simp only [State.semReserve, State.setSem, State.sem, h])

end

/-- The record of a NOP that issued. -/
def State.nopIssued (s : State) (c : Cmd) : Cmd := { s.issued c false with takes := c.takeEntries, reads := [], fills := [], fetched := [] }

theorem setCmd_cmds (s : State) (d : Cmd) : (s.setCmd d).cmds = s.cmds.map (fun k => if k.ref = d.ref then d else k) := rfl

/-- A command's record replaces what was written for it before. -/
theorem setCmd_setCmd {s : State} {d e : Cmd} (h : d.ref = e.ref) : (s.setCmd d).setCmd e = s.setCmd e := by
  have hmap : (s.cmds.map fun k => if k.ref = d.ref then d else k).map (fun k => if k.ref = e.ref then e else k) =
      s.cmds.map fun k => if k.ref = e.ref then e else k := by
    rw [List.map_map]
    refine List.map_congr_left fun k _ => ?_
    by_cases hk : k.ref = e.ref <;> simp [hk, h]
  simp only [State.setCmd, hmap]

section
variable {s : State} {c : Cmd} (hop : c.opcode = opNOP)
include hop

theorem issueCmd_nop : s.issueCmd c false =
    (((s.setCmd (s.issued c false)).setCmd { s.issued c false with takes := c.takeEntries }).reserveAll c.takeEntries).setCmd (s.nopIssued c) := by
  have hd : (s.issued c false).opcode = opNOP := hop
  have hcoll : opNOP ≠ opCOLLECT := by decide
  have hcopy : opNOP ≠ opCOPY := by decide
  have hmig : opNOP ≠ opMIGRATE := by decide
  simp only [State.nopIssued, State.issueCmd, issueBad_nop, expertPages_nop, takeReads_nop, hd, State.holdPages, List.foldl_nil,
    List.filter_nil, List.append_nil, hcoll, hcopy, hmig, if_false]
  rfl

theorem nopIssued_spans : (s.nopIssued c).spans = [] := spansOf_nop hop

theorem nopIssued_outs : (s.nopIssued c).outs = [] := by
  have houts : (s.nopIssued c).outs = s.outputsOf c.part c.opcode c.body c.hdr.info.toNat (s.slotOf c.part c.opcode c.body).1 := rfl
  rw [houts, hop, outputsOf_nop]

/-- An issued NOP has no unit. -/
theorem nopIssued_ranges : ∀ x ∈ (s.nopIssued c).ranges, x.lo = x.hi := by
  have hranges : (s.nopIssued c).ranges = s.deal c.part 0 0 := by
    change s.deal c.part (s.tilingOf c.part c.opcode c.hdr c.body).tn (s.tilingOf c.part c.opcode c.hdr c.body).total = _
    rw [hop, tilingOf_nop]
    rfl
  rw [hranges]
  exact deal_zero s c.part 0

/-- Of the commands, the issue of a NOP changes its own record only. -/
theorem issueCmd_nop_cmds : (s.issueCmd c false).cmds = s.cmds.map (fun k => if k.ref = c.ref then s.nopIssued c else k) := by
  rw [issueCmd_nop hop, setCmd_setCmd (by rfl), setCmd_cmds, reserveAll_keeps _ _ State.cmds fun _ _ _ => rfl, ← setCmd_cmds,
    setCmd_setCmd (by rfl), setCmd_cmds]
  rfl

end

/-- Settles O21: a NOP meets every condition of R148 but its waits, and its issue writes its record and reserves. -/
theorem nopIssues : Obligations.NopIssues := by
  intro s r c hc hop hph hst hclean hwaits hfirst
  have hsound : s.endsOnPoison c = false := by
    rw [Bool.eq_false_iff, ne_eq, endsOnPoison_iff]
    rintro ⟨-, -, e, he, hk, hpoison⟩
    exact absurd ((hclean e he hk).symm.trans hpoison) (by decide)
  have hissue : s.tryIssue r = s.issueCmd c false := by
    rw [tryIssue_ready hc hsound (canIssue_nop hop hph hst hwaits) hfirst (by simp [stagingFor_nop hop]) (energyCheck_nop hop)]
    exact if_neg (by rw [hop]; decide)
  refine ⟨s.issueCmd c false, s.nopIssued c, by rw [exec_commandIssue, execCommandIssue, hissue, done], rfl, rfl, rfl, rfl,
    nopIssued_spans hop, nopIssued_outs hop, nopIssued_ranges hop, rfl, issueCmd_nop_cmds hop, ?_⟩
  rw [issueCmd_nop hop]
  exact ⟨reserveAll_sems_congr _ rfl, reserveAll_keeps _ _ State.mem fun _ _ _ => rfl, reserveAll_keeps _ _ State.pages fun _ _ _ => rfl,
    reserveAll_keeps _ _ State.regs fun _ _ _ => rfl, reserveAll_keeps _ _ State.tx fun _ _ _ => rfl⟩

end Sys2Proof.Machine
end

section
/-! SUPPORT. Commands family: what an arriving request finds at its queue pair, and the answers to a SEND and to RDMA (O16, O47). -/

namespace Sys2Proof.Machine

/-! ### Requests on a queue pair (R421 to R424) -/

section
variable (s : State)

@[simp] theorem count_qp (g o n i : Nat) : (s.count g o n).qp i = s.qp i := by simp [State.qp]
@[simp] theorem rxFrame_qp (i j : Nat) (ce : Bool) : (s.rxFrame i ce).qp j = s.qp j := by
  unfold State.rxFrame
  cases ce <;> simp

/-- The n unmarked packets of a request are counted at their sub-port. -/
def State.arrived (s : State) (i n : Nat) : State := (s.rxFrame i false).count (pgPORT (i / 4)) oNETP_RX_FRAMES (n - 1)

theorem arrived_qp (i n j : Nat) : (s.arrived i n).qp j = s.qp j := by simp [State.arrived]

end

section
variable {s : State} {qp psn n p : Nat} {ce : Bool} {act again : State → Nat → State}

theorem respond_unlinked (h : s.linked (s.qp qp).subport = false) : s.respond qp psn n ce act again = s :=
  if_pos (by simp [h])

theorem respond_dead (h : s.linked (s.qp qp).subport = true) (hd : s.qpLive qp = none) :
    s.respond qp psn n ce act again = s.strayPacket := by
  simp [State.respond, h, hd]

/-- The next request, unmarked, on a live queue pair of a linked sub-port is acted on once its packets are counted. -/
theorem respond_next (h : s.linked (s.qp qp).subport = true) (hl : s.qpLive qp = some p) (ho : (s.qp qp).order psn = 0) :
    s.respond qp psn n false act again = act (s.arrived (s.qp qp).subport n) p := by
  simp [State.respond, State.arrived, h, hl, ho]

end

/-- Whether the intake can take a capsule depends on the commands and lists in flight and on the partition. -/
theorem intakeFull_congr {s t : State} {p : Nat} {b : List Byte} (hc : t.cmds = s.cmds) (hl : t.lists = s.lists) (hp : t.parts = s.parts) :
    t.intakeFull p b = s.intakeFull p b := by
  unfold State.intakeFull State.takes State.listWaits State.listsOf State.room State.inflight State.part
  rw [hc, hl, hp]

theorem arrived_intakeFull (s : State) (i n p : Nat) (b : List Byte) : (s.arrived i n).intakeFull p b = s.intakeFull p b :=
  intakeFull_congr (s := s) (by simp [State.arrived, State.rxFrame]) (by simp [State.arrived, State.rxFrame])
    (by simp [State.arrived, State.rxFrame])

/-! ### SEND (R137, R424) -/

/-- What the next SEND of a capsule does. -/
def State.sendNext (i psn n : Nat) (bytes : List Byte) (t : State) (p : Nat) : State :=
  if bytes.length < 64 || 4096 < bytes.length then t.nakError i psn nakInvalid
  else if t.intakeFull p bytes then (t.count pgFRONT oNETF_RNR_NAKS 1).qpFrames i 1 (.roceAck i psn nakRnr)
  else (t.taken i psn n).acceptBytes p bytes false

section
variable {s t : State} {i psn n p : Nat} {bytes : List Byte}

theorem exec_sendCapsule_eq (s : State) (qp : Fin 4096) (psn : BitVec 24) (bytes : List Byte) : exec (.sendCapsule qp psn false bytes) s =
    done (s.respond qp.val psn.toNat ((s.qp qp.val).packets bytes.length) false
      (State.sendNext qp.val psn.toNat ((s.qp qp.val).packets bytes.length) bytes)
      (ackAgain qp.val psn.toNat ((s.qp qp.val).packets bytes.length))) := rfl

theorem sendNext_invalid (h : bytes.length < 64 ∨ 4096 < bytes.length) : State.sendNext i psn n bytes t p = t.nakError i psn nakInvalid :=
  if_pos (by simpa using h)

theorem sendNext_full (hlo : 64 ≤ bytes.length) (hhi : bytes.length ≤ 4096) (hf : t.intakeFull p bytes = true) :
    State.sendNext i psn n bytes t p = (t.count pgFRONT oNETF_RNR_NAKS 1).qpFrames i 1 (.roceAck i psn nakRnr) := by
  simp [State.sendNext, hlo.not_gt, hhi.not_gt, hf]

theorem sendNext_taken (hlo : 64 ≤ bytes.length) (hhi : bytes.length ≤ 4096) (hf : t.intakeFull p bytes = false) :
    State.sendNext i psn n bytes t p = (t.taken i psn n).acceptBytes p bytes false := by
  simp [State.sendNext, hlo.not_gt, hhi.not_gt, hf]

end

/-- Settles O16: the next request is answered by its length and by what the intake takes. -/
theorem sendCapsule : Obligations.SendCapsule := by
  intro s qp psn bytes p i n r
  refine ⟨fun hdown => by rw [exec_sendCapsule_eq, respond_unlinked hdown, done], fun hup hlive hord => ?_⟩
  have hr : r = s.arrived i n := rfl
  have hexec : exec (.sendCapsule qp psn false bytes) s = done (State.sendNext qp.val psn.toNat n bytes r p) := by
    rw [exec_sendCapsule_eq, respond_next hup hlive hord]
    rfl
  rw [hexec, done]
  refine ⟨fun hbad => by rw [sendNext_invalid hbad], fun hlo hhi hfull => ?_, fun hlo hhi hroom => ?_⟩
  · rw [sendNext_full hlo hhi (by rw [hr, arrived_intakeFull, hfull])]
  · rw [sendNext_taken hlo hhi (by rw [hr, arrived_intakeFull, hroom])]

/-! ### RDMA (R150, R160, R398, R423, R479, R497) -/

/-- What the next RDMA WRITE does. -/
def State.writeNext (i psn n a : Nat) (rkey : Word) (data : List Byte) (t : State) (p : Nat) : State :=
  if 2 ^ 31 < data.length then t.nakError i psn nakInvalid
  else if fldBe (t.qp i).ctx 0x10 4 ≠ rkey.toNat then t.nakError i psn nakAccess
  else if data ≠ [] && !(t.rdmaWindow p true a data.length) then t.rdmaDenied i psn p a
  else match t.writeFor p none a data with
    | .error (.access _) => t.rdmaDenied i psn p a
    | .error (.data _) => t.nakError i psn nakOperational
    | .ok _ => (t.taken i psn n).rdmaPlace p a data

section
variable {s t u : State} {i psn n a p len : Nat} {rkey : Word} {data bs : List Byte} {first : Bool}

theorem exec_rdmaWrite_of_home {va : Dword} (qp : Fin 4096) (psn : BitVec 24) (hw : s.flashWaits va.toNat = false) :
    exec (.roceRdmaWrite qp psn false rkey va data) s =
      done (s.respond qp.val psn.toNat ((s.qp qp.val).packets data.length) false
        (State.writeNext qp.val psn.toNat ((s.qp qp.val).packets data.length) va.toNat rkey data)
        (ackAgain qp.val psn.toNat ((s.qp qp.val).packets data.length))) :=
  if_neg (by simp [hw])

theorem exec_rdmaRead_of_home {va : Dword} {len : Word} (qp : Fin 4096) (psn : BitVec 24) (hw : s.flashWaits va.toNat = false) :
    exec (.roceRdmaRead qp psn false rkey va len) s =
      done (s.respond qp.val psn.toNat 1 false (fun t p => t.rdmaRead qp.val psn.toNat p va.toNat len.toNat rkey true)
        (fun t p => t.rdmaRead qp.val psn.toNat p va.toNat len.toNat rkey false)) :=
  if_neg (by simp [hw])

theorem writeNext_wrongKey (hn : data.length ≤ 2 ^ 31) (hk : fldBe (t.qp i).ctx 0x10 4 ≠ rkey.toNat) :
    State.writeNext i psn n a rkey data t p = t.nakError i psn nakAccess := by
  rw [State.writeNext, if_neg hn.not_gt, if_pos hk]

theorem writeNext_outside (hn : data.length ≤ 2 ^ 31) (hk : fldBe (t.qp i).ctx 0x10 4 = rkey.toNat) (hd : data ≠ [])
    (hw : t.rdmaWindow p true a data.length = false) : State.writeNext i psn n a rkey data t p = t.rdmaDenied i psn p a := by
  rw [State.writeNext, if_neg hn.not_gt, if_neg (not_not.mpr hk), if_pos (by simp [hd, hw])]

theorem writeNext_placed (hn : data.length ≤ 2 ^ 31) (hk : fldBe (t.qp i).ctx 0x10 4 = rkey.toNat)
    (hw : t.rdmaWindow p true a data.length = true) (hok : t.writeFor p none a data = .ok u) :
    State.writeNext i psn n a rkey data t p = (t.taken i psn n).rdmaPlace p a data := by
  rw [State.writeNext, if_neg hn.not_gt, if_neg (not_not.mpr hk), if_neg (by simp [hw]), hok]

theorem rdmaRead_wrongKey (hn : len ≤ 2 ^ 31) (hk : fldBe (t.qp i).ctx 0x10 4 ≠ rkey.toNat) :
    t.rdmaRead i psn p a len rkey first = t.nakError i psn nakAccess := by
  rw [State.rdmaRead, if_neg hn.not_gt, if_pos hk]

theorem rdmaRead_outside (hn : len ≤ 2 ^ 31) (hk : fldBe (t.qp i).ctx 0x10 4 = rkey.toNat) (hl : len ≠ 0)
    (hw : t.rdmaWindow p false a len = false) : t.rdmaRead i psn p a len rkey first = t.rdmaDenied i psn p a := by
  rw [State.rdmaRead, if_neg hn.not_gt, if_neg (not_not.mpr hk), if_pos (by simp [hl, hw])]

theorem rdmaRead_first (hn : len ≤ 2 ^ 31) (hk : fldBe (t.qp i).ctx 0x10 4 = rkey.toNat)
    (hw : t.rdmaWindow p false a len = true) (hok : t.readBytes p a len = .ok bs) : t.rdmaRead i psn p a len rkey true =
      ((t.refPages p a len).qpAdvance i ((t.qp i).packets len)).qpFrames i ((t.qp i).packets len) (.readResponse i psn bs) := by
  rw [State.rdmaRead, if_neg hn.not_gt, if_neg (not_not.mpr hk), if_neg (by simp [hw]), hok]
  rfl

theorem exec_invalidRequest_unlinked (qp : Fin 4096) (psn : BitVec 24) (h : s.linked (s.qp qp.val).subport = false) :
    exec (.invalidRequest qp psn) s = done s := if_pos (by simp [h])

theorem exec_invalidRequest_linked (qp : Fin 4096) (psn : BitVec 24) (h : s.linked (s.qp qp.val).subport = true) :
    exec (.invalidRequest qp psn) s = match s.qpLive qp.val with
      | none => done s.strayPacket
      | some _ => done ((s.rxFrame (s.qp qp.val).subport false).nakError qp.val psn.toNat nakInvalid) := if_neg (by simp [h])

end

/-- Settles O47: the next request is judged by its RKEY, its window and the access itself, in this order. -/
theorem rdmaRequests : Obligations.RdmaRequests := by
  intro s qp psn rkey va data len i a port n r w d
  refine ⟨fun hdown hhome => ⟨?_, ?_, exec_invalidRequest_unlinked qp psn hdown⟩, fun hup hdead hhome => ⟨?_, ?_, ?_⟩,
    fun p hup hlive => ⟨?_, fun hord hhome hdata hlen => ?_⟩⟩
  · rw [exec_rdmaWrite_of_home qp psn hhome, respond_unlinked hdown, done]
  · rw [exec_rdmaRead_of_home qp psn hhome, respond_unlinked hdown, done]
  · rw [exec_rdmaWrite_of_home qp psn hhome, respond_dead hup hdead, done, State.strayPacket]
  · rw [exec_rdmaRead_of_home qp psn hhome, respond_dead hup hdead, done, State.strayPacket]
  · rw [exec_invalidRequest_linked qp psn hup, hdead, done, State.strayPacket]
  · rw [exec_invalidRequest_linked qp psn hup, hlive]
    rfl
  · have hwrite : exec (.roceRdmaWrite qp psn false rkey va data) s = done (State.writeNext i psn.toNat n a rkey data w p) := by
      rw [exec_rdmaWrite_of_home qp psn hhome, respond_next hup hlive hord]
      rfl
    have hread : exec (.roceRdmaRead qp psn false rkey va len) s = done (d.rdmaRead i psn.toNat p a len.toNat rkey true) := by
      rw [exec_rdmaRead_of_home qp psn hhome, respond_next hup hlive hord]
      rfl
    have hwqp : w.qp i = s.qp i := arrived_qp s port n i
    have hdqp : d.qp i = s.qp i := arrived_qp s port 1 i
    rw [hwrite, hread]
    refine ⟨fun hkey => ⟨?_, ?_⟩, fun hkey => ⟨fun hne hout => ?_, fun hne hout => ?_, fun t hin hok => ?_, fun bs hin hok => ?_⟩⟩
    · rw [writeNext_wrongKey hdata (hwqp.symm ▸ hkey), done]
    · rw [rdmaRead_wrongKey hlen (hdqp.symm ▸ hkey), done]
    · rw [writeNext_outside hdata (hwqp.symm ▸ hkey) hne hout, done]
    · have hpos : len.toNat ≠ 0 := fun h0 => hne (BitVec.eq_of_toNat_eq h0)
      rw [rdmaRead_outside hlen (hdqp.symm ▸ hkey) hpos hout, done]
    · rw [writeNext_placed hdata (hwqp.symm ▸ hkey) hin hok, done]
    · rw [rdmaRead_first hlen (hdqp.symm ▸ hkey) hin hok, done]

end Sys2Proof.Machine
end

section
/-! SUPPORT. Commands family: the errors' rows and the end of a targeted self-test (O57). -/

namespace Sys2Proof.Machine

/-! ### Corrected and uncorrected errors (R153, R478 to R480) -/

/-- In whole-device reset the two rows of errors do nothing. -/
theorem exec_errors_in_reset {s : State} (h : s.alive = false) (site : ErrSite) (users : List CmdRef) :
    exec (.correctedError site) s = done s ∧ exec (.uncorrectedError site users) s = done s :=
  ⟨awake_of_not_alive h _, awake_of_not_alive h _⟩

/-! ### The end of a targeted self-test (R480 to R485) -/

/-- The test leaves the list of tests. -/
def State.dropTest (s : State) (t : Test) : State :=
  { s with errors := { s.errors with tests := s.errors.tests.filter (fun v => v ≠ t) } }

/-- Passes of a site after which it is repaired all the same (R482). -/
def State.mostPasses (s : State) : Nat := max 1 (s.field pgERR oERR_ERR_CFG 3 0)

/-- A pass more of a site. -/
def State.notePass (s : State) (site : ErrSite) : State :=
  { s with errors := { s.errors with passes := s.errors.passes ++ [⟨site, s.strobes⟩] } }

/-- The outcome of a test's log entries. -/
def State.setOutcomes (s : State) (t : Test) (n : Nat) : State := t.entries.foldl (fun w k => w.setOutcome k n) s

/-- The site has passed too many tests: one more pass does not clear it. -/
def State.passedTooOften (s : State) (site : ErrSite) (r : TestResult) : Bool := r = .pass && s.mostPasses ≤ s.passCount site

/-- What a test of a fault leaves: a pass counts as transient, unless it is one too many; all else is repaired and counts as lasting. -/
def State.endTest (s : State) (t : Test) (site : ErrSite) (r : TestResult) (again : Bool) : State :=
  if r = .pass && !again then ((s.notePass site).count pgERR oERR_TRANSIENTS 1).setOutcomes t 1
  else ((s.repair site r).1.count pgERR oERR_LASTING 1).setOutcomes t (if again then 5 else if (s.repair site r).2 then 2 else 3)

section
variable {s : State} {t : Test} {site : ErrSite} {r : TestResult}

theorem exec_selfTestDone_none (h : s.errors.tests.find? (fun t => t.started && t.site = site) = none) :
    exec (.selfTestDone site r) s = done s := by
  simp only [exec_selfTestDone, execSelfTestDone, h]

theorem exec_selfTestDone_some (h : s.errors.tests.find? (fun t => t.started && t.site = site) = some t) :
    exec (.selfTestDone site r) s = done (s.testDone t site r).runsGoOn := by
  simp only [exec_selfTestDone, execSelfTestDone, h]

theorem testDone_ppr (h : t.ppr = true) :
    s.testDone t site r = (if r = .pass then (s.dropTest t).pprPassed site else s.dropTest t).startTests := if_pos h

/-- A test of a fault ends by its result and by whether its site has passed too often. -/
theorem testDone_fault (h : t.ppr = false) : s.testDone t site r =
    (((s.dropTest t).endTest t site r ((s.dropTest t).passedTooOften site r)).unquiesce site).startTests :=
  if_neg (by simp [h])

theorem testDone_transient (h : t.ppr = false) (hp : (s.dropTest t).passCount site < (s.dropTest t).mostPasses) : s.testDone t site .pass =
    (((((s.dropTest t).notePass site).count pgERR oERR_TRANSIENTS 1).setOutcomes t 1).unquiesce site).startTests := by
  have hfew : (s.dropTest t).passedTooOften site .pass = false := by simp [State.passedTooOften, hp]
  rw [testDone_fault h, hfew]
  rfl

theorem testDone_again (h : t.ppr = false) (hp : (s.dropTest t).mostPasses ≤ (s.dropTest t).passCount site) : s.testDone t site .pass =
    (((((s.dropTest t).repair site .pass).1.count pgERR oERR_LASTING 1).setOutcomes t 5).unquiesce site).startTests := by
  have hmany : (s.dropTest t).passedTooOften site .pass = true := by simp [State.passedTooOften, hp]
  rw [testDone_fault h, hmany]
  rfl

theorem testDone_failed (h : t.ppr = false) (hr : r ≠ .pass) : s.testDone t site r =
    (((((s.dropTest t).repair site r).1.count pgERR oERR_LASTING 1).setOutcomes t
      (if ((s.dropTest t).repair site r).2 then 2 else 3)).unquiesce site).startTests := by
  have hnot : (s.dropTest t).passedTooOften site r = false := by simp [State.passedTooOften, hr]
  have hend : (s.dropTest t).endTest t site r false = _ := if_neg (by simp [hr])
  rw [testDone_fault h, hnot, hend]
  rfl

end

/-- Settles O57: each site's clause is its arm of the errors' meaning, and a test ends by its kind, its result and the passes of its site. -/
theorem errorsAndTests : Obligations.ErrorsAndTests := by
  refine ⟨fun s site users => ⟨fun hr => exec_errors_in_reset hr site users, fun ha => ?_⟩,
    fun s site r => ⟨exec_selfTestDone_none, fun t ht => ?_⟩⟩
  · have corrected : exec (.correctedError site) s = _ := awake_of_alive ha _
    have uncorrected : exec (.uncorrectedError site users) s = _ := awake_of_alive ha _
    refine ⟨corrected, ?_, ?_, ?_, ?_, ?_, ?_, ?_, ?_, ?_, ?_, ?_⟩
    all_goals
      intros
      subst_vars
      exact uncorrected
  · rw [exec_selfTestDone_some ht, done]
    refine ⟨fun hppr => by rw [testDone_ppr hppr]; rfl, fun hppr => ?_⟩
    refine ⟨?_, ?_, fun hr => ?_⟩
    · rintro rfl hfew
      rw [testDone_transient hppr hfew]
      rfl
    · rintro rfl hmany
      rw [testDone_again hppr hmany]
      rfl
    · rw [testDone_failed hppr hr]
      rfl

end Sys2Proof.Machine
end

section
/-! SUPPORT. Semaphores family: the state at reset, the semaphore operations, lending and long waits (O8, O29, O30). -/

namespace Sys2Proof.Machine

/-! ### The state at reset (R533) -/

/-- No register is listed at reset: a word of a page reads its reset value (R533). -/
theorem reset_stored {page n : Nat} {k : PageKind} (hk : pageOf page = some (k, n)) (off bank : Nat) :
    State.reset.stored page off bank = resetWord k off bank := by
  simp only [State.stored, hk]
  rfl

/-- RERUN_LIMIT is 15 at reset (R156, R164). -/
theorem reset_rerunLimit {p : Nat} (hp : p < 16) : State.reset.rerunLimit p = 15 := by
  have hpage : ∀ q : Fin 16, pageOf (pgCMD q) = some (.cmd, q.val) := by decide
  have hword : resetWord .cmd oCMD_RERUN_LIMIT 0 = 15#32 := by decide
  rw [State.rerunLimit, State.field, reset_stored (hpage ⟨p, hp⟩), hword]
  rfl

/-- Settles O8: reset lists nothing, so each table reads its default and each register its reset word. -/
theorem resetState : Obligations.ResetState := by
  have trv (off : Nat) : State.reset.stored pgTRV off 0 = resetWord .trv off 0 := reset_stored (n := 0) rfl off 0
  refine ⟨fun _ => rfl, fun _ => rfl, fun _ => ⟨rfl, rfl, rfl⟩, rfl, rfl, rfl, fun _ => rfl, rfl, rfl, rfl, rfl,
    fun _ => reset_rerunLimit, ?_, ?_⟩
  · rw [trv]
    decide
  · rw [trv]
    decide

/-! ### Semaphore operations (R169, R172, R179, R181) -/

section
variable {s : State} {k n m : Nat} {tag : Option (Nat × Nat)}

theorem exec_semValueWrite_of_die_in_reset {die : Fin 4} (v : Word) (h : (s.die die.val).inReset = true) :
    exec (.semValueWrite die v) s = done s := by
  rw [exec_semValueWrite, execSemValueWrite, if_pos h]
  exact ite_self _

theorem exec_semValueWrite_of_answers {die : Fin 4} (v : Word) (ha : s.i3cAnswers (pgSEM die.val) = true)
    (hr : (s.die die.val).inReset = false) : exec (.semValueWrite die v) s =
      done (s.semSet (die.val * 0x4000 + s.field (pgSEM die.val) oSEM_SEM_SEL 13 0) v.toNat) := by
  rw [exec_semValueWrite, execSemValueWrite, onPage_of_answers ha, if_neg (by simp [hr])]

/-- A register word fits a semaphore's value. -/
theorem semSet_word (v : Word) : s.semSet k v.toNat = s.setSem k ⟨v.toNat, (s.sem k).resv, false, false, false⟩ := by
  rw [State.semSet, Nat.mod_eq_of_lt v.isLt]

theorem semAdd_of_poison (hp : (s.sem k).poison = true) : s.semAdd k n m tag = (s.semFault k, false) := if_pos hp

theorem semSub_of_poison (hp : (s.sem k).poison = true) : s.semSub k n m tag = (s.semFault k, false) := if_pos hp

/-- An add past the largest value saturates there; `semAdd_of_room` is the other case. -/
theorem semAdd_of_overflow (hp : (s.sem k).poison = false) (hv : 0xFFFFFFFF < (s.sem k).value + n) : s.semAdd k n m tag =
    ((s.setSem k { s.sem k with value := 0xFFFFFFFF, satHi := true }).semSat k m 0xFFFFFFFF tag, true) := by
  rw [State.semAdd, if_neg (by simp [hp]), if_neg hv.not_ge]

theorem semSub_of_enough (hp : (s.sem k).poison = false) (hv : n ≤ (s.sem k).value) :
    s.semSub k n m tag = (s.setSem k { s.sem k with value := (s.sem k).value - n }, false) := by
  rw [State.semSub, if_neg (by simp [hp]), if_pos hv]

theorem semSub_of_underflow (hp : (s.sem k).poison = false) (hv : (s.sem k).value < n) : s.semSub k n m tag =
    ((s.setSem k { s.sem k with value := 0, satLo := true }).semSat k m 0 tag, true) := by
  rw [State.semSub, if_neg (by simp [hp]), if_neg hv.not_ge]

end

/-- Settles O29: the write by what bars it, add and subtract by POISON and by saturation. -/
theorem semaphoreOperations : Obligations.SemaphoreOperations := by
  refine ⟨fun s die v => ⟨?_, fun ha hr => ?_⟩, fun s k n m tag => ⟨fun hp => ⟨semAdd_of_poison hp, semSub_of_poison hp⟩,
    fun hp => ⟨semAdd_of_room hp, semAdd_of_overflow hp, semSub_of_enough hp, semSub_of_underflow hp⟩⟩⟩
  · rintro (hsilent | hreset)
    · exact onPage_of_silent hsilent _
    · exact exec_semValueWrite_of_die_in_reset v hreset
  · rw [exec_semValueWrite_of_answers v ha hr, semSet_word, done]

/-! ### Lending and long waits (R177, R178, R182) -/

/-- A core waits with its whole share, and lending is enabled. -/
def State.mayLend (s : State) (c : Nat) : Prop :=
  s.coreWaiting c = true ∧ (s.core c).lent = 0 ∧ s.field (pgSEM (c / 52)) oSEM_LEND_TICKS 31 0 ≠ 0

/-- A core waits, its wait is not reported, and reports are enabled. -/
def State.mayReport (s : State) (c : Nat) : Prop :=
  s.coreWaiting c = true ∧ (s.core c).reported = false ∧ s.field (pgSEM (c / 52)) oSEM_REPORT_TICKS 31 0 ≠ 0

/-- The semaphore at which a unit of the command stands: its landing tile's or its stripe's. -/
def Cmd.standsAt (d : Cmd) (u : UnitRef) : Nat :=
  if u.landing then nth 0 d.landSems u.index
  else match d.halo.find? (fun h => h.2 = u.index) with | some h => h.1 | none => 0

/-- The wait of a core marked reported, and its event raised for the unit `u` of `d` (R177, R182). -/
def State.reportWait (s : State) (c : Nat) (d : Cmd) (u : UnitRef) : State :=
  (s.setCore c { s.core c with reported := true }).raise (pgSEM (c / 52)) none 4
    (semInfo (d.standsAt u) c (s.sem (d.standsAt u)).read) d.evTag

section
variable {s : State} {core : Fin 208} {d : Cmd} {u : UnitRef}

theorem standsAt_landing (hl : u.landing = true) : d.standsAt u = nth 0 d.landSems u.index := if_pos hl

theorem standsAt_halo {h : Nat × Nat} (hl : u.landing = false) (hf : d.halo.find? (fun h => h.2 = u.index) = some h) :
    d.standsAt u = h.1 := by
  rw [Cmd.standsAt, if_neg (by simp [hl]), hf]

theorem exec_lend_of_mayLend (h : s.mayLend core.val) : exec (.lend core) s =
    done ((s.setCore core.val { s.core core.val with lent := 4 }).count (pgSEM (core.val / 52)) oSEM_LENDS 1) := by
  obtain ⟨hwait, hwhole, hticks⟩ := h
  exact if_pos (by simp [hwait, hwhole, hticks])

theorem exec_lend_of_barred (h : ¬ s.mayLend core.val) : exec (.lend core) s = done s :=
  if_neg (by simpa [State.mayLend, and_assoc] using h)

theorem exec_longWait_of_barred (h : ¬ s.mayReport core.val) : exec (.longWait core) s = done s :=
  if_neg (by simpa [State.mayReport, and_assoc] using h)

/-- LONG_WAIT reports the first unit in hand, where its command is in flight. -/
theorem exec_longWait_of_mayReport (h : s.mayReport core.val) (hu : ((s.core core.val).hand.filterMap id).head? = some u)
    (hd : s.cmd? u.cmd = some d) : exec (.longWait core) s = done (s.reportWait core.val d u) := by
  obtain ⟨hwait, hnew, hticks⟩ := h
  have hmarked : (s.setCore core.val { s.core core.val with reported := true }).cmd? u.cmd = some d := hd
  rw [exec_longWait, execLongWait, if_pos (by simp [hwait, hnew, hticks])]
  simp only [hu, hmarked]
  rfl

end

/-- Settles O30: each row by its condition, and a report by where the first unit in hand stands. -/
theorem lendAndReport : Obligations.LendAndReport := by
  refine ⟨fun s core => ⟨exec_lend_of_mayLend, exec_lend_of_barred⟩, fun s core => ⟨exec_longWait_of_barred,
    fun on u d hu hd hl => ?_, fun on u d h hu hd hl hf => ?_⟩⟩
  · rw [exec_longWait_of_mayReport on hu hd, State.reportWait, standsAt_landing hl]
    rfl
  · rw [exec_longWait_of_mayReport on hu hd, State.reportWait, standsAt_halo hl hf]
    rfl

end Sys2Proof.Machine
end

section
/-! SUPPORT. Tables and ladles family: a slot's switch and the holders of the old version (O24). -/

namespace Sys2Proof.Machine

/-! ### The end of a drain (R184, R213) -/

section
variable {s : State} {r : CmdRef} {c : Cmd}

theorem exec_tableSwitchDrain_of_absent (h : s.cmd? r = none) : exec (.tableSwitchDrain r) s = done s := by
  rw [exec_tableSwitchDrain, execTableSwitchDrain, h]

theorem exec_tableSwitchDrain_of_present (h : s.cmd? r = some c) : exec (.tableSwitchDrain r) s =
    if c.phase = .draining && !(s.draining c) then done (s.lastOrders c []) else done s := by
  rw [exec_tableSwitchDrain, execTableSwitchDrain, h]

theorem exec_tableSwitchDrain_of_drained (h : s.cmd? r = some c) (hp : c.phase = .draining) (hd : s.draining c = false) :
    exec (.tableSwitchDrain r) s = done (s.lastOrders c []) := by
  rw [exec_tableSwitchDrain_of_present h, if_pos (by simp [hp, hd])]

theorem exec_tableSwitchDrain_of_barred (h : s.cmd? r = some c) (hb : c.phase ≠ .draining ∨ s.draining c = true) :
    exec (.tableSwitchDrain r) s = done s := by
  rw [exec_tableSwitchDrain_of_present h, if_neg]
  rcases hb with hphase | hheld
  · simp [hphase]
  · simp [hheld]

end

/-- Settles O24: by whether the command is in flight, and by its phase and the holders of the old version. -/
theorem switchDrains : Obligations.SwitchDrains := fun _ _ _ => ⟨exec_tableSwitchDrain_of_absent, fun h =>
  ⟨exec_tableSwitchDrain_of_drained h, exec_tableSwitchDrain_of_barred h⟩⟩

end Sys2Proof.Machine
end

section
/-! SUPPORT. Serving family: a step at its boundary, and the prefill passes (O35). -/

namespace Sys2Proof.Machine

/-! ### The end of a step (R319) -/

/-- The end of a step that has no record left: its boundary, once its context and the fate of every row can be read (R318). -/
def State.endStep (s : State) (p : Nat) (m : Model) (t : StepRun) (c : Cmd) : State :=
  match s.contextRead p m t, mapE (s.fateOf p m t) t.batch with
  | .error e, _ | .ok _, .error e => s.failCmd c e.1 e.2
  | .ok _, .ok fates => s.stepBoundary p m t fates

section
variable {s : State} {p : Nat} {m : Model} {t : StepRun} {c : Cmd}

theorem endStep_unread {e : Nat × Nat} (he : s.contextRead p m t = .error e) : s.endStep p m t c = s.failCmd c e.1 e.2 := by
  rw [State.endStep, he]

theorem endStep_unresolved {e : Nat × Nat} (hr : s.contextRead p m t = .ok ()) (he : mapE (s.fateOf p m t) t.batch = .error e) :
    s.endStep p m t c = s.failCmd c e.1 e.2 := by
  rw [State.endStep, hr, he]

theorem endStep_resolved {fates : List Fate} (hr : s.contextRead p m t = .ok ()) (hf : mapE (s.fateOf p m t) t.batch = .ok fates) :
    s.endStep p m t c = s.stepBoundary p m t fates := by
  rw [State.endStep, hr, hf]

end

section
variable {s : State} {p : Fin 16} {mod : Nat} {t : StepRun} {m : Model} {c : Cmd}

theorem exec_stepBoundary_of_no_step (h : (s.srv p.val).steps.find? (fun t => t.model = mod) = none ∨ s.model? p.val mod = none) :
    exec (.stepBoundary p mod) s = done s := by
  rw [exec_stepBoundary, execStepBoundary]
  split
  · rcases h with h | h <;> simp_all
  · rfl

/-- A step's row ends it once its command is issued and none of its records is left. -/
theorem exec_stepBoundary_of_step (ht : (s.srv p.val).steps.find? (fun t => t.model = mod) = some t) (hm : s.model? p.val mod = some m)
    (hc : s.cmd? t.cmd = some c) : exec (.stepBoundary p mod) s =
      if s.recordsLeft t.cmd.seq || c.phase ≠ .issued then done s else done (s.endStep p.val m t c) := by
  rw [exec_stepBoundary, execStepBoundary, ht, hm]
  simp only [hc, State.endStep]
  congr 1
  generalize s.contextRead p.val m t = read, mapE (s.fateOf p.val m t) t.batch = fates
  cases read <;> cases fates <;> rfl

end

/-! ### The end of a prefill pass (R326) -/

/-- The pass's positions enter the request's LENGTH, its pages the directory, its rows the count, and the pass is over. -/
def State.commitPass (s : State) (p r : Nat) (t : PassRun) : State :=
  (((s.setRequest p r { s.request p r with length := t.chunk.start + t.chunk.len }).keepTaken p t.taken).count (pgSTP p)
    oSTP_PREFILL_ROWS t.chunk.len).modSrv p (fun v => { v with passes := v.passes.filter (fun u => u.cmd ≠ t.cmd) })

section
variable {s : State} {p : Fin 16} {r : Nat} {t : PassRun}

theorem exec_prefillPassCommit_of_no_pass (h : (s.srv p.val).passes.find? (fun t => t.chunk.req = r) = none) :
    exec (.prefillPassCommit p r) s = done s := by
  rw [exec_prefillPassCommit, execPrefillPassCommit, h]

theorem exec_prefillPassCommit_of_pass (h : (s.srv p.val).passes.find? (fun t => t.chunk.req = r) = some t) :
    exec (.prefillPassCommit p r) s = if s.recordsLeft t.cmd.seq then done s else done (s.commitPass p.val r t) := by
  rw [exec_prefillPassCommit, execPrefillPassCommit, h]
  rfl

end

/-! ### The start of a prefill pass (R325, R326) -/

/-- A pass of the request may start: serving without chunks in steps, positions left to prefill, no pass of the model in flight, and the
request's turn. -/
def State.passDue (s : State) (p r : Nat) : Bool :=
  let q := s.request p r
  (s.srv p).enabled && r < 2 ^ s.reqLog2 p && (s.part p).st = .active && s.chunkLen p = 0 && (q.st = rqPREFILL || q.st = rqDRAINING)
    && q.length + 1 < q.prompt && !((s.srv p).passes.any (fun t => t.model = q.model)) && s.passTurn p q.model = some r

theorem passDue_iff {s : State} {p r : Nat} : s.passDue p r = true ↔
    let q := s.request p r
    (s.srv p).enabled = true ∧ r < 2 ^ s.reqLog2 p ∧ (s.part p).st = .active ∧ s.chunkLen p = 0 ∧ (q.st = rqPREFILL ∨ q.st = rqDRAINING) ∧
      q.length + 1 < q.prompt ∧ (∀ t ∈ (s.srv p).passes, t.model ≠ q.model) ∧ s.passTurn p q.model = some r := by
  simp only [State.passDue, Bool.and_eq_true, Bool.or_eq_true, decide_eq_true_eq, Bool.not_eq_true', List.any_eq_false, and_assoc, ne_eq]

/-- A pass of the chunk in progress, once it has its pages. -/
def State.openPass (u : State) (p r : Nat) (m : Model) (q : Request) (c : Chunk) (k : Taken) : State :=
  (u.srvReads p [u.srvTable p, dirRange m q.dir]).modSrv p (fun x => { x with
    passes := x.passes ++ [⟨q.model, ⟨passSeq p q.model, 0⟩, c, k⟩]
    filling := (q.model, r) :: x.filling.filter (fun e => e.1 ≠ q.model) })

/-- The context of a pass. -/
def State.fillPass (w : State) (p : Nat) (m : Model) (q : Request) (c : Chunk) : State :=
  w.writeContext p (m.layout m.pfCtx m.pfRows) (w.chunkTokens p q c ⟨passSeq p q.model, 0⟩) (List.range' c.start c.len)
    [ctxEntry q (c.start + c.len) c.start]

/-- The records of a pass spawned; the pass is dropped where its list cannot be read. -/
def State.startPass (v : State) (p : Nat) (m : Model) (q : Request) : State :=
  match v.spawn p (passSeq p q.model) m.pf m.pfCount with
  | .ok x => x
  | .error _ => v.dropPass p (passSeq p q.model) true

theorem startPass_spawned {v x : State} {p : Nat} {m : Model} {q : Request}
    (h : v.spawn p (passSeq p q.model) m.pf m.pfCount = .ok x) : v.startPass p m q = x := by
  rw [State.startPass, h]

theorem startPass_unread {v : State} {p : Nat} {m : Model} {q : Request} {e : Nat × Nat}
    (h : v.spawn p (passSeq p q.model) m.pf m.pfCount = .error e) : v.startPass p m q = v.dropPass p (passSeq p q.model) true := by
  rw [State.startPass, h]

/-- A pass that is due asks for the pages of its chunk; with them it opens and starts. -/
theorem exec_prefillPassStart_eq (s : State) (p : Fin 16) (r : Nat) : exec (.prefillPassStart p r) s =
    let q := s.request p.val r
    (s.model? p.val q.model).elim (done s) (fun m =>
      let c := s.nextChunk p.val r m q
      let x := s.pagesFor p.val r q.model m q c.start c.len
      if s.passDue p.val r then
        x.2.elim (done s) (fun k => done (((x.1.openPass p.val r m q c k).fillPass p.val m q c).startPass p.val m q))
      else done s) := by
  rw [exec_prefillPassStart, execPrefillPassStart]
  cases hm : s.model? p.val (s.request p.val r).model with
  | none => simp only [hm, Option.elim]
  | some m =>
    simp only [hm, Option.elim]
    by_cases hdue : s.passDue p.val r = true
    · rw [if_pos hdue, if_neg (by simpa [State.passDue, ← or_iff_not_imp_left] using hdue)]
      generalize s.pagesFor _ _ _ _ _ _ _ = x
      obtain ⟨u, _ | k⟩ := x
      · rfl
      · unfold State.startPass State.fillPass State.openPass
        dsimp only
        generalize State.spawn _ _ _ _ _ = y
        cases y <;> rfl
    · rw [if_neg hdue, if_pos]
      contrapose! hdue
      simpa [State.passDue, ← or_iff_not_imp_left] using hdue

/-- Settles O35: a step by what of it can be read, a pass's end by its records, and a pass's start by what bars it and by its pages. -/
theorem servingProgress : Obligations.ServingProgress := by
  refine ⟨fun s p mod => ⟨exec_stepBoundary_of_no_step, fun t m c ht hm hc => ?_⟩,
    fun s p r => ⟨exec_prefillPassCommit_of_no_pass, fun t ht => ?_⟩,
    fun s p r => ⟨fun hbar => ?_, fun m hdue hm => ?_⟩⟩
  · rw [exec_stepBoundary_of_step ht hm hc]
    refine ⟨fun h => if_pos (by simpa using h), fun hleft hissued => ?_⟩
    rw [if_neg (by simp [hleft, hissued])]
    exact ⟨fun e he => congrArg done (endStep_unread he), fun hread =>
      ⟨fun e he => congrArg done (endStep_unresolved hread he), fun fates hf => congrArg done (endStep_resolved hread hf)⟩⟩
  · rw [exec_prefillPassCommit_of_pass ht]
    exact ⟨fun h => if_pos h, fun h => if_neg (by simp [h])⟩
  · simp only [exec_prefillPassStart_eq]
    rcases hbar with hbar | hm
    · cases s.model? p.val (s.request p.val r).model with
      | none => rfl
      | some m => exact if_neg (mt passDue_iff.mp hbar)
    · rw [hm]
      rfl
  · simp only [exec_prefillPassStart_eq, hm, Option.elim, if_pos (passDue_iff.mpr hdue)]
    refine ⟨fun u hnone => by rw [hnone]; rfl, fun u k hsome => ⟨fun x hx => ?_, fun e he => ?_⟩⟩
    · rw [hsome]
      exact congrArg done (startPass_spawned hx)
    · rw [hsome]
      exact congrArg done (startPass_unread he)

end Sys2Proof.Machine
end

section
/-! SUPPORT. Serving family: serving switched on and off, and a handle dropped (O36). -/

namespace Sys2Proof.Machine

/-! ### A range zeroed (R353) -/

/-- What looks at neither memory nor errors is the same after a range is zeroed. -/
theorem zeroRange_keeps {α : Type} (g : State → α) (hm : ∀ (u : State) (m : Mem), g { u with mem := m } = g u)
    (he : ∀ (u : State) (e : Errors), g { u with errors := e } = g u) (s : State) (p a n : Nat) : g (s.zeroRange p a n) = g s := by
  unfold State.zeroRange
  refine foldl_keeps g _ (fun t e => ?_) _ _
  split
  · exact (he _ _).trans (hm _ _)
  · rfl

section
variable (s : State) (p a n : Nat)

@[simp] theorem zeroRange_parts : (s.zeroRange p a n).parts = s.parts := zeroRange_keeps State.parts (fun _ _ => rfl) (fun _ _ => rfl) s p a n
@[simp] theorem zeroRange_cmds : (s.zeroRange p a n).cmds = s.cmds := zeroRange_keeps State.cmds (fun _ _ => rfl) (fun _ _ => rfl) s p a n
@[simp] theorem zeroRange_regs : (s.zeroRange p a n).regs = s.regs := zeroRange_keeps State.regs (fun _ _ => rfl) (fun _ _ => rfl) s p a n
@[simp] theorem zeroRange_srv (q : Nat) : (s.zeroRange p a n).srv q = s.srv q := by simp [State.srv, State.part]

@[simp] theorem modSrv_mem (f : Serving → Serving) : (s.modSrv p f).mem = s.mem := rfl
@[simp] theorem modSrv_cmds (f : Serving → Serving) : (s.modSrv p f).cmds = s.cmds := rfl
@[simp] theorem modSrv_regs (f : Serving → Serving) : (s.modSrv p f).regs = s.regs := rfl

end

/-! ### SERVING_ENABLE (R584) -/

/-- The request and handle tables zeroed (R330, R584). -/
def State.zeroTables (s : State) (p : Nat) : State :=
  s.zeroRange p (s.entryAddr p 0) (128 * 2 ^ s.reqLog2 p + 32 * 2 ^ s.handleLog2 p)

/-- Serving as it starts: nothing but the number of requests admitted is kept, and the configuration is latched. -/
def State.freshSrv (t : State) (p : Nat) : Serving :=
  { servingOff with
    enabled := true
    admitted := (t.srv p).admitted
    config := [oSRV_SRV_CFG, oSRV_HBM_POOL_LO, oSRV_HBM_POOL_HI, oSRV_HBM_FRAMES, oSRV_DDR_POOL_LO, oSRV_DDR_POOL_HI, oSRV_DDR_FRAMES].map
      (fun o => (o, t.field (pgSRV p) o 31 0)) }

/-- Serving started over its zeroed tables. -/
def State.startServing (s : State) (p : Nat) : State := (s.zeroTables p).modSrv p (fun _ => (s.zeroTables p).freshSrv p)

section
variable (s : State) (p : Nat)

theorem startServing_mem : (s.startServing p).mem = (s.zeroTables p).mem := by simp [State.startServing]
theorem startServing_cmds : (s.startServing p).cmds = s.cmds := by simp [State.startServing, State.zeroTables]
theorem startServing_regs : (s.startServing p).regs = s.regs := by simp [State.startServing, State.zeroTables]

theorem freshSrv_zeroTables_admitted : ((s.zeroTables p).freshSrv p).admitted = (s.srv p).admitted := by
  simp [State.freshSrv, State.zeroTables]

/-- A partition whose serving started is listed: its serving engine reads back. -/
theorem startServing_srv : (s.startServing p).srv p = (s.zeroTables p).freshSrv p := by
  have hlisted : ({ (s.zeroTables p).part p with srv := (s.zeroTables p).freshSrv p } : Part) ≠ partFree := fun heq =>
    absurd (congrArg (fun x => x.srv.enabled) heq) (by simp [State.freshSrv, partFree, servingOff])
  exact congrArg Part.srv ((tabGet_tabPut_listed (s.zeroTables p).parts hlisted).trans (if_pos rfl))

end

section
variable {s : State} {p : Nat}

theorem serveOn_of_enabled (h : (s.srv p).enabled = true) : s.serveOn p = s := if_pos h

theorem serveOn_of_forbidden (h : (s.srv p).enabled = false) (hb : s.servingBad p = true) : s.serveOn p = s.setErr (pgSRV p) 7 := by
  rw [State.serveOn, if_neg (by simp [h]), if_pos hb]

theorem serveOn_of_allowed (h : (s.srv p).enabled = false) (hb : s.servingBad p = false) : s.serveOn p = s.startServing p := by
  rw [State.serveOn, if_neg (by simp [h]), if_neg (by simp [hb])]
  rfl

end

/-! ### SERVING_DISABLE (R330) -/

/-- The issued STEPs and the passes of a partition ended. -/
def State.endServing (s : State) (p : Nat) : State :=
  let a := s.endWhere (fun c => c.part = p && c.opcode = opSTEP && c.ref.sub = 0 && c.phase = .issued) stCANCELLED 0
  (a.srv p).passes.foldl (fun u t => u.dropPass p t.cmd.seq true) a

/-- The live requests counted as ended, the tables zeroed, serving off. -/
def State.closeServing (b : State) (p : Nat) : State :=
  ((b.count (pgSRV p) oSRV_ENDS (byAdmission (b.liveRequests p)).length).zeroTables p).modSrv p (fun v =>
    { servingOff with admitted := v.admitted })

/-- The end records of the live requests. -/
def State.lastRecords (b : State) (p : Nat) : List Rec := (byAdmission (b.liveRequests p)).map (fun e => b.endRecord e.2 endCANCELLED 0xFF)

section
variable {s : State} {p : Nat}

theorem serveOff_of_disabled (h : (s.srv p).enabled = false) : s.serveOff p = s := if_pos (by simp [h])

theorem serveOff_of_idle (h : (s.srv p).enabled = true) (hl : byAdmission ((s.endServing p).liveRequests p) = []) :
    s.serveOff p = (s.endServing p).closeServing p :=
  (if_neg (by simp [h])).trans (if_pos (List.map_eq_nil_iff.mpr hl))

theorem serveOff_of_serving (h : (s.srv p).enabled = true) (hl : byAdmission ((s.endServing p).liveRequests p) ≠ []) :
    s.serveOff p = ((s.endServing p).closeServing p).postRecs p ((s.endServing p).lastRecords p) :=
  (if_neg (by simp [h])).trans (if_neg (mt List.map_eq_nil_iff.mp hl))

end

/-! ### HANDLE_DROP (R310) -/

/-- The handle in HANDLE_HI and HANDLE_LO. -/
def State.namedHandle (s : State) (p : Nat) : Nat :=
  s.field (pgSRV p) oSRV_HANDLE_LO 31 0 + 2 ^ 32 * s.field (pgSRV p) oSRV_HANDLE_HI 31 0

/-- The registry's slots of a handle read. -/
def State.readSlots (s : State) (p h : Nat) : State := s.srvReads p ((s.probed p h).map (fun k => (s.handleAddr p k, 32)))

/-- The handle of a slot marked deleted, its references left to the next boundary. -/
def State.deleteHandle (w : State) (p k : Nat) : State :=
  (w.setHandle p k { w.handleAt p k with st := 2 }).modSrv p (fun v =>
    { v with drops := v.drops ++ [((w.handleAt p k).dir, (w.handleAt p k).len, (w.handleAt p k).model)] })

/-- RESULT of HANDLE_CTRL. -/
def State.handleResult (s : State) (p n : Nat) : State := s.setField (pgSRV p) oSRV_HANDLE_CTRL 2 1 n

@[simp] theorem setErr_parts (s : State) (g b : Nat) : (s.setErr g b).parts = s.parts := by
  unfold State.setErr
  dsimp only
  split
  · simp
  · split <;> split <;> simp

@[simp] theorem srvReads_srv (s : State) (p q : Nat) (l : List (Nat × Nat)) : (s.srvReads p l).srv q = s.srv q := by
  unfold State.srvReads
  split
  · simp [State.srv, State.part]
  · rfl

section
variable {s : State} {p : Nat}

theorem handleDrop_of_disabled (h : (s.srv p).enabled = false) : s.handleDrop p = s.handleResult p 3 := by
  simp [State.handleDrop, State.handleResult, h]

section
variable (h : (s.srv p).enabled = true)
include h

theorem handleDrop_of_unknown (hf : (s.readSlots p (s.namedHandle p)).findHandle p (s.namedHandle p) = none) :
    s.handleDrop p = (s.readSlots p (s.namedHandle p)).handleResult p 3 := by
  unfold State.readSlots State.namedHandle at *
  simp only [State.handleDrop, State.handleResult, h, if_true, srvReads_srv, hf]

theorem handleDrop_of_live {k : Nat} (hf : (s.readSlots p (s.namedHandle p)).findHandle p (s.namedHandle p) = some k) :
    s.handleDrop p = ((s.readSlots p (s.namedHandle p)).deleteHandle p k).handleResult p 1 := by
  unfold State.readSlots State.namedHandle at *
  simp only [State.handleDrop, State.handleResult, State.deleteHandle, h, if_true, srvReads_srv, hf]

end
end

/-- Settles O36: each row by whether the page answers and serving is on; enabling then by R584, and a drop by whether the handle is live. -/
theorem servingSwitches : Obligations.ServingSwitches := by
  intro s p zeroed
  refine ⟨fun hsil => ⟨onPage_of_silent hsil _, onPage_of_silent hsil _, onPage_of_silent hsil _⟩, fun hans => ?_⟩
  have henable : exec (.servingEnable p) s = done (s.serveOn p.val) := onPage_of_answers hans _
  have hdisable : exec (.servingDisable p) s = done (s.serveOff p.val) := onPage_of_answers hans _
  have hdrop : exec (.handleDrop p) s = done (s.handleDrop p.val) := onPage_of_answers hans _
  rw [henable, hdisable, hdrop]
  refine ⟨fun hon => congrArg done (serveOn_of_enabled hon), fun hoff hbad => congrArg done (serveOn_of_forbidden hoff hbad),
    fun hoff hgood => congrArg done (serveOn_of_allowed hoff hgood), fun hoff hgood => ?_,
    fun hoff => congrArg done (serveOff_of_disabled hoff),
    fun hon => ⟨fun hnone => congrArg done (serveOff_of_idle hon hnone), fun hsome => congrArg done (serveOff_of_serving hon hsome)⟩,
    fun hoff => congrArg done (handleDrop_of_disabled hoff),
    fun hon => ⟨fun hnone => congrArg done (handleDrop_of_unknown hon hnone), fun k hk => congrArg done (handleDrop_of_live hon hk)⟩⟩
  refine ⟨s.startServing p.val, congrArg done (serveOn_of_allowed hoff hgood), ?_, ?_, ?_, startServing_mem s p.val,
    startServing_cmds s p.val, startServing_regs s p.val⟩
  · rw [startServing_srv, State.freshSrv]
  · rw [startServing_srv, State.freshSrv, servingOff]
  · rw [startServing_srv, freshSrv_zeroTables_admitted]

end Sys2Proof.Machine
end

section
/-! SUPPORT. Partition family: how a suspension and a RUN end (O38). -/

namespace Sys2Proof.Machine

section
variable {s : State} {p : Fin 16}

/-! ### The end of a suspension (R343, R482) -/

/-- A command of the partition is past order 2 of its commit (R343). -/
abbrev State.PastOrderTwo (s : State) (p : Nat) : Prop :=
  ∃ c ∈ s.cmds, c.part = p ∧ (c.phase = .applying ∨ c.phase = .answering ∨ c.phase = .draining)

theorem exec_suspendCommitsDone_eq (s : State) (p : Fin 16) : exec (.suspendCommitsDone p) s =
    if (s.part p.val).st = .suspending ∧ (s.part p.val).stage = 0 ∧ ¬ s.PastOrderTwo p.val then done (s.suspendClear p.val) else done s := by
  rw [exec_suspendCommitsDone, execSuspendCommitsDone]
  refine if_congr ?_ rfl rfl
  simp [and_assoc]

theorem exec_suspendCommitsDone_of_clear (hst : (s.part p.val).st = .suspending) (hstage : (s.part p.val).stage = 0)
    (hpast : ¬ s.PastOrderTwo p.val) : exec (.suspendCommitsDone p) s = done (s.suspendClear p.val) := by
  rw [exec_suspendCommitsDone_eq, if_pos ⟨hst, hstage, hpast⟩]

theorem exec_suspendCommitsDone_of_barred
    (h : (s.part p.val).st ≠ .suspending ∨ (s.part p.val).stage ≠ 0 ∨ s.PastOrderTwo p.val) : exec (.suspendCommitsDone p) s = done s := by
  rw [exec_suspendCommitsDone_eq, if_neg]
  rintro ⟨hst, hstage, hpast⟩
  rcases h with h | h | h
  · exact h hst
  · exact h hstage
  · exact hpast h

theorem exec_writebackDone_eq (s : State) (p : Fin 16) : exec (.writebackDone p) s =
    if (s.part p.val).st = .suspending ∧ (s.part p.val).stage = 1 ∧ s.coresUnderTest (s.coresOf p.val) = false then
      done ((s.suspendEnd p.val).suspended p.val)
    else done s := by
  rw [exec_writebackDone, execWritebackDone]
  refine if_congr ?_ rfl rfl
  simp [and_assoc]

theorem exec_writebackDone_of_untested (hst : (s.part p.val).st = .suspending) (hstage : (s.part p.val).stage = 1)
    (htest : s.coresUnderTest (s.coresOf p.val) = false) :
    exec (.writebackDone p) s = done ((s.suspendEnd p.val).suspended p.val) := by
  rw [exec_writebackDone_eq, if_pos ⟨hst, hstage, htest⟩]

theorem exec_writebackDone_of_barred
    (h : (s.part p.val).st ≠ .suspending ∨ (s.part p.val).stage ≠ 1 ∨ s.coresUnderTest (s.coresOf p.val) = true) :
    exec (.writebackDone p) s = done s := by
  rw [exec_writebackDone_eq, if_neg]
  rintro ⟨hst, hstage, htest⟩
  rcases h with h | h | h
  · exact h hst
  · exact h hstage
  · exact Bool.false_ne_true (htest.symm.trans h)

/-! ### A RUN that waits for the tests of its cores (R482) -/

theorem runsGoOn_of_runWaiting {q : Nat} (h : s.runWaiting = some q) : s.runsGoOn = s.runGoOn q := by
  rw [State.runsGoOn, h]

/-- A partition whose RUN waits has not begun to resume. -/
theorem st_of_runWaiting {q : Nat} (h : s.runWaiting = some q) : (s.part q).st = .free ∨ (s.part q).st = .suspended := by
  have hfound := List.find?_some h
  simp only [Bool.and_eq_true, Bool.or_eq_true, decide_eq_true_eq] at hfound
  obtain ⟨⟨-, hst⟩, -⟩ := hfound
  exact hst

theorem runWaiting_ne_of_resuming {q : Nat} (h : (s.part q).st = .resuming) : s.runWaiting ≠ some q := fun hw => by
  rcases st_of_runWaiting hw with hst | hst <;> cases hst.symm.trans h

/-! ### The end of a RUN (R344, R347, R348, R398) -/

/-- The partition has a share of flash or shares flash pages (R398). -/
abbrev Part.NeedsFlash (x : Part) : Prop := x.flsShare.2 ≠ 0 ∨ (x.shared.1 ≠ 0 ∧ zoneOf x.shared.1 = .fls)

/-- A page of the preload list has no copy for the partition yet (R344). -/
abbrev State.PreloadLeft (s : State) (p : Nat) : Prop := ∃ g ∈ s.preloadPages p, (s.page g).own p = none

theorem not_preloadLeft {q : Nat} (hcame : ∀ g ∈ s.preloadPages q, (s.page g).own q ≠ none) : ¬ s.PreloadLeft q :=
  fun ⟨g, hg, hnone⟩ => hcame g hg hnone

/-- Order 5 of R344: the partition is ACTIVE, its switch is timed, counted, answered and raised, and waiting changes begin. -/
def State.runEnd (s : State) (p : Nat) : State :=
  let us := s.choose 0xE8 (2 ^ 32)
  let from' := match (s.part p).changing with | some c => c.1 | none => 31
  let active := (s.setPart p { s.part p with st := .active }).changeOver p
  let timed := active.setStored (pgPRT p) oPRT_SWITCH_US 0 (BitVec.ofNat 32 us)
  let answered := (timed.count (pgPRT p) oPRT_SWITCHES 1).prtResult p runOK 0
  (answered.flagEvent (pgPRT p) 0 1 (from' + us * 2 ^ 32) none).moreChanges

theorem exec_preloadDone_eq (s : State) (p : Fin 16) : exec (.preloadDone p) s =
    if s.runWaiting = some p.val then done s.runsGoOn
    else if (s.part p.val).st ≠ .resuming then done s
    else if s.PreloadLeft p.val then done (s.startPreload p.val)
    else if (s.part p.val).NeedsFlash ∧ s.flash.mapState ≠ 3 then done s
    else done (s.runEnd p.val) := by
  rw [exec_preloadDone, execPreloadDone]
  refine if_congr Iff.rfl rfl (if_congr Iff.rfl rfl (if_congr ?_ rfl (if_congr ?_ rfl rfl)))
  · simp
  · simp

theorem exec_preloadDone_of_waiting (h : s.runWaiting = some p.val) : exec (.preloadDone p) s = done (s.runGoOn p.val) := by
  rw [exec_preloadDone_eq, if_pos h, runsGoOn_of_runWaiting h]

theorem exec_preloadDone_of_not_resuming (hw : s.runWaiting ≠ some p.val) (hst : (s.part p.val).st ≠ .resuming) :
    exec (.preloadDone p) s = done s := by
  rw [exec_preloadDone_eq, if_neg hw, if_pos hst]

section
variable (hst : (s.part p.val).st = .resuming)
include hst

/-- What PRELOAD_DONE does of a RESUMING partition: no RUN of it waits. -/
theorem exec_preloadDone_of_resuming : exec (.preloadDone p) s =
    if s.PreloadLeft p.val then done (s.startPreload p.val)
    else if (s.part p.val).NeedsFlash ∧ s.flash.mapState ≠ 3 then done s
    else done (s.runEnd p.val) := by
  rw [exec_preloadDone_eq, if_neg (runWaiting_ne_of_resuming hst), if_neg (not_not_intro hst)]

theorem exec_preloadDone_of_preloadLeft (hleft : s.PreloadLeft p.val) : exec (.preloadDone p) s = done (s.startPreload p.val) := by
  rw [exec_preloadDone_of_resuming hst, if_pos hleft]

section
variable (hcame : ∀ g ∈ s.preloadPages p.val, (s.page g).own p.val ≠ none)
include hcame

theorem exec_preloadDone_of_map_not_ready (hflash : (s.part p.val).NeedsFlash) (hmap : s.flash.mapState ≠ 3) :
    exec (.preloadDone p) s = done s := by
  rw [exec_preloadDone_of_resuming hst, if_neg (not_preloadLeft hcame), if_pos ⟨hflash, hmap⟩]

theorem exec_preloadDone_of_preloaded (h : ¬ (s.part p.val).NeedsFlash ∨ s.flash.mapState = 3) :
    exec (.preloadDone p) s = done (s.runEnd p.val) := by
  rw [exec_preloadDone_of_resuming hst, if_neg (not_preloadLeft hcame), if_neg]
  rintro ⟨hflash, hmap⟩
  rcases h with h | h
  · exact h hflash
  · exact hmap h

end
end
end

/-- Settles O38: each row by its guard, and PRELOAD_DONE of a RESUMING partition by its pages and the flash map, since no RUN of it waits. -/
theorem partitionChangesEnd : Obligations.PartitionChangesEnd := fun _ _ =>
  ⟨exec_suspendCommitsDone_of_clear, exec_suspendCommitsDone_of_barred, exec_writebackDone_of_untested, exec_writebackDone_of_barred,
    exec_preloadDone_of_waiting, exec_preloadDone_of_not_resuming, exec_preloadDone_of_preloadLeft,
    exec_preloadDone_of_map_not_ready, exec_preloadDone_of_preloaded⟩

end Sys2Proof.Machine
end

section
/-! SUPPORT. Memory family: what memory's writes and clears keep (O9), and how a page's fill starts, its copy ends and its old frames go (O39). -/

namespace Sys2Proof.Machine

/-- Settles O9, from the canonical form that each operation over memory keeps. -/
theorem memoryKeepsForm : Obligations.MemoryKeepsForm :=
  ⟨reset_memWf, fun _ hs => ⟨fun k bs => putPhysList_memWf k bs hs, fun k n => zeroPhys_memWf k n hs,
    fun a b n => copyPhys_memWf a b n hs, fun _ _ _ _ _ hw => writeFor_memWf hs hw⟩⟩

/-! ### The funnel's queue (R364) -/

section
variable {s : State} {p : Fin 16}

/-- The pages queued for partition p that it has no copy of and moves none into its window. -/
def State.unfilled (s : State) (p : Nat) : List Nat :=
  (s.part p).fillQueue.filter (fun g => ((s.page g).own p).isNone && !((s.page g).moves.any (fun m => m.part = p)))

/-- Partition p's fill queue replaced. -/
def State.queueFills (s : State) (p : Nat) (q : List Nat) : State := s.setPart p { s.part p with fillQueue := q }

theorem exec_funnelFillStart_of_filled (hq : s.unfilled p.val = []) :
    exec (.funnelFillStart p) s = done (s.queueFills p.val []) := by
  rw [exec_funnelFillStart]
  unfold execFunnelFillStart
  dsimp only
  split
  · rfl
  · next hcons => cases hq.symm.trans hcons

theorem exec_funnelFillStart_of_unfilled {g : Nat} {rest : List Nat} (hq : s.unfilled p.val = g :: rest) :
    exec (.funnelFillStart p) s = done ((s.startFill p.val g none []).1.queueFills p.val
      (if (s.startFill p.val g none []).2 then rest else s.unfilled p.val)) := by
  rw [exec_funnelFillStart]
  unfold execFunnelFillStart
  dsimp only
  split
  · next hnil => cases hq.symm.trans hnil
  · next hcons =>
    cases hq.symm.trans hcons
    rfl

end

/-! ### The end of a page's copy (R200, R361) -/

section
variable {s : State} {g : Nat}

theorem exec_pageCopyDone_of_map_not_ready (hz : pageZone g = .fls) (hm : s.flash.mapState ≠ 3) :
    exec (.pageCopyDone g) s = done s :=
  if_pos (by simp [hz, hm])

theorem exec_pageCopyDone_of_reachable (h : pageZone g ≠ .fls ∨ s.flash.mapState = 3) :
    exec (.pageCopyDone g) s = done ((s.copyDone g).applyStalls g).resumeScatters :=
  if_neg (by simpa [imp_iff_not_or] using h)

theorem copyDone_of_unmoved (h : (s.page g).moves = []) : s.copyDone g = s := by
  rw [State.copyDone, h]
  rfl

theorem applyStalls_of_no_stalls (h : s.stalls = []) : s.applyStalls g = s := by
  unfold State.applyStalls
  split
  · rfl
  · simp only [h, List.filter_nil, List.foldl_nil, List.filterMap_nil]
    rw [← h]

theorem resumeScatters_of_none_applying (h : ∀ c ∈ s.cmds, c.phase ≠ .applying) : s.resumeScatters = s := by
  have hnone : s.cmds.filter (fun c => c.phase = .applying) = [] := List.filter_eq_nil_iff.mpr (by simpa using h)
  rw [State.resumeScatters, hnone, List.foldl_nil]

end

/-! ### Old frames (R361, R483) -/

section
variable {s : State} {g : Nat} {before after : List (Nat × List CmdRef)} {e : Nat × List CmdRef}

/-- No command that runs read the page before its switch. -/
abbrev State.Unread (s : State) (e : Nat × List CmdRef) : Prop := ∀ c ∈ s.cmds, c.running = true → c.ref ∉ e.2

theorem oldFree_iff : s.oldFree e = true ↔ s.Unread e := by simp [State.oldFree]

/-- The row that a retired frame f of page g was given up for. -/
def State.retiredSite (s : State) (g f : Nat) : ErrSite :=
  if pageZone g = .hbm then s.pprSite true f else s.pprSite false (f - ddrBase / pageBytes)

/-- Frame f of page g let go: the row of one that was retired is repaired and tested. -/
def State.letGo (t : State) (g f : Nat) : State :=
  if pageZone g ≠ .hbm ∧ f < ddrBase / pageBytes then t
  else { t with errors := { t.errors with tests := t.errors.tests ++ [⟨t.retiredSite g f, [], true, false, true⟩] } }

theorem letGo_of_window {f : Nat} (hz : pageZone g ≠ .hbm) (hf : f < ddrBase / pageBytes) : s.letGo g f = s := if_pos ⟨hz, hf⟩

theorem letGo_of_retired {f : Nat} (h : pageZone g = .hbm ∨ ddrBase / pageBytes ≤ f) : s.letGo g f =
    { s with errors := { s.errors with tests := s.errors.tests ++ [⟨s.retiredSite g f, [], true, false, true⟩] } } :=
  if_neg fun ⟨hz, hf⟩ => h.elim hz (Nat.not_le.mpr hf)

theorem exec_oldFrameRelease_of_read (h : ∀ e ∈ (s.page g).old, ¬ s.Unread e) : exec (.oldFrameRelease g) s = done s := by
  have hnone : (s.page g).old.find? s.oldFree = none := List.find?_eq_none.mpr fun e he => mt oldFree_iff.mp (h e he)
  rw [exec_oldFrameRelease, execOldFrameRelease]
  simp only [hnone]

/-- The oldest entry that no reader holds is the one found, and it stands nowhere before. -/
theorem exec_oldFrameRelease_of_unread (hold : (s.page g).old = before ++ e :: after) (hbefore : ∀ b ∈ before, ¬ s.Unread b)
    (he : s.Unread e) :
    exec (.oldFrameRelease g) s = done ((s.setPage g { s.page g with old := before ++ after }).letGo g e.1) := by
  have hfound : (s.page g).old.find? s.oldFree = some e := by
    have hnone : before.find? s.oldFree = none := List.find?_eq_none.mpr fun b hb => mt oldFree_iff.mp (hbefore b hb)
    rw [hold, List.find?_append, hnone, Option.none_or, List.find?_cons_of_pos (oldFree_iff.mpr he)]
  have herase : (s.page g).old.erase e = before ++ after := by
    rw [hold, List.erase_append_right _ fun hmem => hbefore e hmem he, List.erase_cons_head]
  rw [exec_oldFrameRelease, execOldFrameRelease]
  simp only [hfound, herase, State.letGo, State.retiredSite, Bool.and_eq_true, decide_eq_true_eq]
  split <;> rfl

end

/-- Settles O39: a fill by what the queue holds, a copy by what it leaves to do, an old frame by the first entry that no reader holds. -/
theorem pageMoves : Obligations.PageMoves := by
  refine ⟨fun s p => ⟨exec_funnelFillStart_of_filled, fun g rest hq t => ⟨fun ht => ?_, fun ht => ?_⟩⟩,
    fun s g => ⟨exec_pageCopyDone_of_map_not_ready, fun hreach => ⟨exec_pageCopyDone_of_reachable hreach, fun hmoves hstalls hcmds => ?_⟩⟩,
    fun s g => ⟨exec_oldFrameRelease_of_read, fun before after f rs hold hbefore hfree => ?_⟩⟩
  · rw [exec_funnelFillStart_of_unfilled hq, ht]
    rfl
  · rw [exec_funnelFillStart_of_unfilled hq, ht]
    rfl
  · rw [exec_pageCopyDone_of_reachable hreach, copyDone_of_unmoved hmoves, applyStalls_of_no_stalls hstalls,
      resumeScatters_of_none_applying hcmds]
    rfl
  · have hgo := exec_oldFrameRelease_of_unread hold hbefore hfree
    exact ⟨fun hz hf => hgo.trans (congrArg done (letGo_of_window hz hf)), fun h => hgo.trans (congrArg done (letGo_of_retired h))⟩

end Sys2Proof.Machine
end

section
/-! SUPPORT. Memory family: bring-up from boot to READY (O51). -/

namespace Sys2Proof.Machine

/-! ### Boot (R501, R502) -/

section
variable {s : State} {a b : Option (List Byte)}

/-- BOOT_CFG prefers slot B. -/
abbrev State.prefersB (s : State) : Bool := decide (s.field pgMGT oMGT_BOOT_CFG 0 0 = 1)

/-- The image of the slot that is tried first. -/
abbrev State.firstSlot (s : State) (a b : Option (List Byte)) : Option (List Byte) := if s.prefersB then b else a

/-- The image of the slot that is tried where the first fails. -/
abbrev State.secondSlot (s : State) (a b : Option (List Byte)) : Option (List Byte) := if s.prefersB then a else b

/-- The state in which the slots are judged: M0 holds the OTP configuration (R504). -/
abbrev State.otpMeasured (s : State) : State := s.extend 0 (sha256 s.otpBytes)

/-- A slot that passed runs. -/
def State.runSlot (s : State) (inB : Bool) (image : Option (List Byte)) : State :=
  (({ s with start := { s.start with slotB := inB } } : State).measureSlot (image.getD [])).runFirmware

/-- INFO of a slot that failed first. -/
def State.bootInfo (s : State) (fail : Nat) : Nat := fail % 16 * 2 ^ 12 + b2n s.prefersB * 2 ^ 16

theorem exec_bootVerified_of_barred (h : s.alive = false ∨ s.start.halted = true ∨ s.start.stage ≠ 0) :
    exec (.bootVerified a b) s = done s :=
  if_pos (by simpa [or_assoc] using h)

section
variable (halive : s.alive = true) (hhalt : s.start.halted = false) (hstage : s.start.stage = 0)
include halive hhalt hstage

/-- The slots in the order of preference: the first that passes runs, and with none the device halts. -/
theorem exec_bootVerified_of_held : exec (.bootVerified a b) s =
    let m := s.otpMeasured
    let e1 := m.slotFail (s.firstSlot a b)
    let info := s.bootInfo e1
    if e1 = 0 then done (m.runSlot s.prefersB (s.firstSlot a b))
    else if m.slotFail (s.secondSlot a b) = 0 then
      done (((m.flagEvent pgMGT 1 1 info none).logMgmt 0x0201 pgMGT info).runSlot (!s.prefersB) (s.secondSlot a b))
    else done (({ m with start := { m.start with fail := e1 } } : State).halt info) := by
  rw [exec_bootVerified]
  refine (if_neg (by simp [halive, hhalt, hstage])).trans ?_
  by_cases hb : s.field pgMGT oMGT_BOOT_CFG 0 0 = 1
  · simp only [State.firstSlot, State.secondSlot, State.prefersB, State.bootInfo, State.runSlot, hb, decide_true, if_true]
  · simp only [State.firstSlot, State.secondSlot, State.prefersB, State.bootInfo, State.runSlot, hb, decide_false, if_false,
      Bool.false_eq_true]

theorem exec_bootVerified_of_first (h1 : s.otpMeasured.slotFail (s.firstSlot a b) = 0) :
    exec (.bootVerified a b) s = done (s.otpMeasured.runSlot s.prefersB (s.firstSlot a b)) :=
  (exec_bootVerified_of_held halive hhalt hstage).trans (if_pos h1)

theorem exec_bootVerified_of_second (h1 : s.otpMeasured.slotFail (s.firstSlot a b) ≠ 0)
    (h2 : s.otpMeasured.slotFail (s.secondSlot a b) = 0) :
    exec (.bootVerified a b) s =
      let info := s.bootInfo (s.otpMeasured.slotFail (s.firstSlot a b))
      done (((s.otpMeasured.flagEvent pgMGT 1 1 info none).logMgmt 0x0201 pgMGT info).runSlot (!s.prefersB) (s.secondSlot a b)) :=
  (exec_bootVerified_of_held halive hhalt hstage).trans ((if_neg h1).trans (if_pos h2))

theorem exec_bootVerified_of_none (h1 : s.otpMeasured.slotFail (s.firstSlot a b) ≠ 0)
    (h2 : s.otpMeasured.slotFail (s.secondSlot a b) ≠ 0) :
    exec (.bootVerified a b) s =
      let e1 := s.otpMeasured.slotFail (s.firstSlot a b)
      done (({ s.otpMeasured with start := { s.otpMeasured.start with fail := e1 } } : State).halt (s.bootInfo e1)) :=
  (exec_bootVerified_of_held halive hhalt hstage).trans ((if_neg h1).trans (if_neg h2))

end
end

/-! ### Bring-up not under way (R547) -/

section
variable {s : State} (h : s.bringUp = false)
include h

theorem exec_hbmTrained_of_not_bringUp (l : List HbmTrain) : exec (.hbmTrained l) s = done s := if_pos (by simp [h])
theorem exec_ddrTrained_of_not_bringUp (l : List (Option Spd)) : exec (.ddrTrained l) s = done s := if_pos (by simp [h])
theorem exec_tierClearDone_of_not_bringUp (d : Bool) : exec (.tierClearDone d) s = done s := if_pos (by simp [h])
theorem exec_flashChannelsTrained_of_not_bringUp (l : List (List FlashDie)) : exec (.flashChannelsTrained l) s = done s :=
  if_pos (by simp [h])
theorem exec_mapLoadDone_of_not_bringUp : exec .mapLoadDone s = done s := if_neg (by simp [h])
theorem exec_mapRebuildDone_of_not_bringUp (n : Nat) : exec (.mapRebuildDone n) s = done s := if_neg (by simp [h])
theorem readyDue_of_not_bringUp : s.readyDue = false := by simp [State.readyDue, h]

end

theorem exec_readyRise_of_not_due {s : State} {ms : Nat} (h : s.readyDue = false ∨ s.start.ready = true) :
    exec (.readyRise ms) s = done s :=
  if_pos (by simpa using h)

/-! ### HBM (R352, R549) -/

section
variable {s : State} {l : List HbmTrain}

/-- INFO of the stacks that trained at neither rate. -/
def failedStacks (l : List HbmTrain) : Nat :=
  ((List.range 8).map (fun i => if nth .failed l i = .failed then 2 ^ i else 0)).sum * 2 ^ 32

/-- The stacks' results: all eight trained, those at the fallback rate marked. -/
def State.hbmTrainedAs (s : State) (fallback : List Bool) : State :=
  { s with
    start := { s.start with hbmDone := true }
    tiers := { s.tiers with
      hbmTrained := List.replicate 8 true
      hbmFallback := fallback } }

/-- The event of every stack that runs at the fallback rate. -/
def State.fallbackEvents (s : State) : State :=
  (List.range 8).foldl (fun s i => if nth false s.tiers.hbmFallback i then s.flagEvent (pgHBM i) 2 2 i none else s) s

/-- Stacks that all run at the full rate raise nothing. -/
theorem fallbackEvents_of_full {n : Nat} (h : s.tiers.hbmFallback = List.replicate n false) : s.fallbackEvents = s :=
  foldl_fixed fun i _ => if_neg (by simp [h, nth])

section
variable (hup : s.bringUp = true) (hdone : s.start.hbmDone = false) (hrail : (s.rail 7).down = false)
include hup hdone hrail

theorem exec_hbmTrained_of_due : exec (.hbmTrained l) s =
    if l.length ≠ 8 ∨ HbmTrain.failed ∈ l then
      done (s.halt (failedStacks l))
    else done (s.hbmTrainedAs (l.map (fun r => decide (r = .fallback)))).fallbackEvents := by
  rw [exec_hbmTrained]
  refine (if_neg (by simp [hup, hdone, hrail])).trans (if_congr ?_ rfl rfl)
  simp

theorem exec_hbmTrained_of_failed (h : l.length ≠ 8 ∨ HbmTrain.failed ∈ l) : exec (.hbmTrained l) s =
    done (s.halt (failedStacks l)) :=
  (exec_hbmTrained_of_due hup hdone hrail).trans (if_pos h)

theorem exec_hbmTrained_of_full (hlen : l.length = 8) (hfull : ∀ r ∈ l, r = .full) :
    exec (.hbmTrained l) s = done (s.hbmTrainedAs (List.replicate 8 false)) := by
  have hl : l = List.replicate 8 .full := List.eq_replicate_iff.mpr ⟨hlen, hfull⟩
  rw [exec_hbmTrained_of_due hup hdone hrail, hl, if_neg (by decide)]
  exact congrArg done (fallbackEvents_of_full (n := 8) rfl)

end
end

/-! ### DDR5 (R350, R351, R545) -/

section
variable {s : State} {l : List (Option Spd)}

/-- The modules found, channel by channel. -/
abbrev ddrPopulation (l : List (Option Spd)) : List (Option Spd) := (List.range 24).map (fun c => nth none l c)

/-- A population that R350 refuses: the zone stays at capacity 0, and its channels are raised. -/
def State.ddrRefused (s : State) (k : List (Option Spd)) : State :=
  ({ s with
      start := { s.start with ddrDone := true }
      tiers := { s.tiers with ddrSpds := k } } : State).flagEvent (pgDDR 0) 2 2 ((ddrBad k).map (fun c => 2 ^ c)).sum none

/-- A population that R350 allows, trained; the tier's bytes are reused where a warm reset left the same modules (R545). -/
def State.ddrTrainedAs (s : State) (k : List (Option Spd)) (reused : Bool) : State :=
  { s with
    start := { s.start with
      ddrDone := true
      reused := reused }
    tiers := { s.tiers with
      ddrSpds := k
      ddrTrained := true
      ddrRate := if k.all (fun m => match m with | some d => 12800 ≤ d.rate | none => true) then 12800 else 8800 } }

section
variable (hup : s.bringUp = true) (hdone : s.start.ddrDone = false) (hrail : (s.rail 8).down = false)
include hup hdone hrail

theorem exec_ddrTrained_of_due : exec (.ddrTrained l) s =
    if ddrBad (ddrPopulation l) ≠ [] then done (s.ddrRefused (ddrPopulation l))
    else done (s.ddrTrainedAs (ddrPopulation l) (s.start.cause = 0x0211 && s.tiers.ddrSpds = ddrPopulation l)) :=
  if_neg (by simp [hup, hdone, hrail])

theorem exec_ddrTrained_of_bad (hbad : ddrBad (ddrPopulation l) ≠ []) :
    exec (.ddrTrained l) s = done (s.ddrRefused (ddrPopulation l)) :=
  (exec_ddrTrained_of_due hup hdone hrail).trans (if_pos hbad)

theorem exec_ddrTrained_of_good (hgood : ddrBad (ddrPopulation l) = []) : exec (.ddrTrained l) s =
    done (s.ddrTrainedAs (ddrPopulation l) (decide (s.start.cause = 0x0211 ∧ s.tiers.ddrSpds = ddrPopulation l))) := by
  rw [exec_ddrTrained_of_due hup hdone hrail, if_neg (not_not_intro hgood), Bool.decide_and]

end
end

/-! ### The tiers' clears and the flash map (R389, R395, R396, R548) -/

section
variable {s : State}

/-- HBM zeroed, its poison gone. -/
def State.hbmClear (s : State) : State :=
  { s with
    mem := s.mem.filter (fun c => ddrBase ≤ c.1)
    errors := { s.errors with poison := s.errors.poison.filter (fun g => ddrBase ≤ g) }
    start := { s.start with hbmCleared := true } }

/-- DDR5 zeroed, its poison gone. -/
def State.ddrClear (s : State) : State :=
  { s with
    mem := s.mem.filter (fun c => c.1 < ddrBase || potBase ≤ c.1)
    errors := { s.errors with poison := s.errors.poison.filter (fun g => g < ddrBase || potBase ≤ g) }
    start := { s.start with ddrCleared := true } }

section
variable (hup : s.bringUp = true)
include hup

theorem exec_tierClearDone_hbm (hdone : s.start.hbmDone = true) (hclear : s.start.hbmCleared = false) :
    exec (.tierClearDone false) s = done s.hbmClear :=
  (if_neg (by simp [hup])).trans ((if_neg Bool.false_ne_true).trans (if_pos (by simp [hdone, hclear])))

theorem exec_tierClearDone_ddr (htrained : s.tiers.ddrTrained = true) (hclear : s.start.ddrCleared = false) :
    exec (.tierClearDone true) s = done s.ddrClear :=
  (if_neg (by simp [hup])).trans ((if_pos rfl).trans (if_pos (by simp [htrained, hclear])))

theorem exec_flashChannelsTrained_of_due (l : List (List FlashDie)) (hdone : s.start.flashDone = false) (hmap : s.flash.mapState = 0)
    (hrail : (s.rail 10).down = false) : exec (.flashChannelsTrained l) s = done (s.flashTrained l) :=
  if_neg (by simp [hup, hdone, hmap, hrail])

theorem exec_mapLoadDone_of_loading (hmap : s.flash.mapState = 1) : exec .mapLoadDone s = done s.mapLoaded :=
  if_pos (by simp [hup, hmap])

theorem exec_mapRebuildDone_of_unready (n : Nat) (hmap : s.flash.mapState = 1 ∨ s.flash.mapState = 2) :
    exec (.mapRebuildDone n) s = done (s.mapRebuilt n) :=
  if_pos (by simpa [hup] using hmap)

end

theorem exec_mapLoadDone_of_not_loading (hmap : s.flash.mapState ≠ 1) : exec .mapLoadDone s = done s :=
  if_neg (by simp [hmap])

theorem exec_mapRebuildDone_of_other (n : Nat) (h1 : s.flash.mapState ≠ 1) (h2 : s.flash.mapState ≠ 2) :
    exec (.mapRebuildDone n) s = done s :=
  if_neg (by simp [h1, h2])

/-! ### READY (R547, R550, R551) -/

/-- READY rises: the boot's time is kept, the interrupt goes out, and RUNs that waited start. -/
def State.rise (s : State) (ms : Nat) : State :=
  (({ s with start := { s.start with
      ready := true
      bootMs := ms % 2 ^ 32
      answered := false } } : State).send (.ibi 0x01#8)).moreChanges

theorem exec_readyRise_of_due {ms : Nat} (hdue : s.readyDue = true) (hready : s.start.ready = false) :
    exec (.readyRise ms) s = done (s.rise ms) :=
  if_neg (by simp [hdue, hready])

end

/-! ### The ready message (R551) -/

section
variable {s : State}

/-- A counter that resets to 0 and counts up is listed: every other register reads as before, in any table of registers. -/
theorem count_stored_of_ne {page off n : Nat} {k : PageKind} {i : Nat} (hk : pageOf page = some (k, i)) (hz : resetWord k off 0 = 0#32)
    (hn : 0 < n) {page' off' bank' : Nat} (hne : regKey page' off' bank' ≠ regKey page off 0) :
    (s.count page off n).stored page' off' bank' = s.stored page' off' bank' := by
  have hlisted : BitVec.ofNat 32 (satAdd32 (s.stored page off 0).toNat n) ≠ resetWord k off 0 := by
    intro h0
    have hnat := congrArg BitVec.toNat (h0.trans hz)
    simp only [BitVec.toNat_ofNat, satAdd32] at hnat
    omega
  unfold State.count State.setStored
  simp only [hk]
  unfold State.stored at hlisted ⊢
  split
  · rfl
  · exact (tabGet_tabPut_listed _ hlisted).trans (if_neg hne)

/-- The pages of the four front ports (R520). -/
theorem pageOf_pgPORT {j : Nat} (hj : j < 4) : pageOf (pgPORT j) = some (.netp, j) := by
  interval_cases j <;> rfl

/-- Registers of the management page are not a port's counter of frames. -/
theorem regKey_pgMGT_ne {j off : Nat} (hoff : off < 0x1000) : regKey pgMGT off 0 ≠ regKey (pgPORT j) oNETP_TX_FRAMES 0 := by
  simp only [regKey, pgMGT, pgPORT]
  omega

/-- Frames sent from a front sub-port leave the registers of the management page. -/
theorem txFrames_stored_pgMGT {i n off : Nat} (hi : i < 16) (hn : 0 < n) (hoff : off < 0x1000) :
    (s.txFrames i n).stored pgMGT off 0 = s.stored pgMGT off 0 := by
  have hcount : (s.count (pgPORT (i / 4)) oNETP_TX_FRAMES n).stored pgMGT off 0 = s.stored pgMGT off 0 :=
    count_stored_of_ne (pageOf_pgPORT (by omega)) (by decide) hn (regKey_pgMGT_ne hoff)
  unfold State.txFrames
  dsimp only
  split <;> exact hcount

/-- Frames sent from a front sub-port do not change where the ready message goes. -/
theorem txFrames_send_readyTo {i : Nat} (hi : i < 16) (m : Tx) : ((s.txFrames i 1).send m).readyTo = s.readyTo := by
  have hfield : ∀ off hi lo, off < 0x1000 → ((s.txFrames i 1).send m).field pgMGT off hi lo = s.field pgMGT off hi lo :=
    fun off _ _ hoff => congrArg (fun w : Word => bits w.toNat _ _) (txFrames_stored_pgMGT hi Nat.one_pos hoff)
  simp only [State.readyTo, hfield oMGT_READY_CFG _ _ (by decide), hfield oMGT_READY_IP_W0 _ _ (by decide),
    hfield oMGT_READY_IP_W1 _ _ (by decide), hfield oMGT_READY_IP_W2 _ _ (by decide), hfield oMGT_READY_IP_W3 _ _ (by decide)]

/-- The ready message is configured, unanswered, and has an address to leave from. -/
abbrev State.Announces (s : State) : Prop :=
  s.alive = true ∧ s.start.ready = true ∧ s.start.answered = false ∧ s.field pgMGT oMGT_READY_CFG 0 0 = 1 ∧
    ∃ j ∈ [0, 1, 2, 3, 4], (s.frontAddr j).isSome = true

/-- The number of the key slot that signs the ready message. -/
abbrev State.readyKey (s : State) : Nat := s.field pgMGT oMGT_READY_CFG 2 1

/-- The ready message with its tag under a key. -/
def State.signedReady (s : State) (key : List Byte) : List Byte :=
  let m := mgmtHeader 0x0B 1 s.readyKey 0 0 0 32 0 ++ s.readyBody
  m ++ mgmtTag key m

/-- The ready message, under its key, from each front sub-port with its link up. -/
def State.announce (s : State) (key : List Byte) : State :=
  s.frontUp.foldl (fun t i => (t.txFrames i 1).send (.mgmt i s.readyTo (s.signedReady key))) s

/-- Each datagram goes where the first does, since what is sent before it moves no register that says where. -/
theorem foldl_readyTo_eq_announce (key : List Byte) :
    s.frontUp.foldl (fun t i => (t.txFrames i 1).send (.mgmt i t.readyTo (s.signedReady key))) s = s.announce key := by
  refine (List.foldl_rel (r := fun t u => t = u ∧ u.readyTo = s.readyTo) ⟨rfl, rfl⟩ fun i hi t u h => ?_).1
  obtain ⟨rfl, ht⟩ := h
  have hlow : i < 16 := List.mem_range.mp (List.mem_of_mem_filter hi)
  exact ⟨by rw [ht], (txFrames_send_readyTo hlow _).trans ht⟩

theorem execReadyMessage_guard :
    (s.alive && s.start.ready && !s.start.answered && s.field pgMGT oMGT_READY_CFG 0 0 = 1
      && [0, 1, 2, 3, 4].any (fun j => (s.frontAddr j).isSome)) = true ↔ s.Announces := by
  simp only [Bool.and_eq_true, Bool.not_eq_true', decide_eq_true_eq, List.any_eq_true, and_assoc]

theorem exec_readyMessage_of_silent (h : ¬ s.Announces ∨ (s.keySlot s.readyKey).key = none) : exec .readyMessage s = done s := by
  rw [exec_readyMessage, execReadyMessage]
  dsimp only
  split
  · rfl
  · next hon =>
    have hkey : (s.keySlot s.readyKey).key = none :=
      h.resolve_left (not_not_intro (execReadyMessage_guard.mp (by simpa only [Bool.not_eq_true, Bool.not_eq_false'] using hon)))
    rw [hkey]

theorem exec_readyMessage_of_announces {key : List Byte} (hon : s.Announces) (hkey : (s.keySlot s.readyKey).key = some key) :
    exec .readyMessage s = done (s.announce key) := by
  rw [exec_readyMessage, execReadyMessage]
  dsimp only
  rw [if_neg (by rw [execReadyMessage_guard.mpr hon]; decide), hkey, ← foldl_readyTo_eq_announce]
  rfl

end

/-- Settles O51: each row by its guard; the ready message has one destination, since the frames sent before move no register that names it. -/
theorem bringUp : Obligations.BringUp := by
  intro s
  refine ⟨fun a b => ⟨exec_bootVerified_of_barred, fun halive hhalt hstage =>
    ⟨exec_bootVerified_of_first halive hhalt hstage, exec_bootVerified_of_second halive hhalt hstage,
      exec_bootVerified_of_none halive hhalt hstage⟩⟩, fun h => ?_, fun h => ?_,
    exec_readyMessage_of_silent, fun _ => exec_readyMessage_of_announces⟩
  · exact ⟨exec_hbmTrained_of_not_bringUp h, exec_ddrTrained_of_not_bringUp h, exec_tierClearDone_of_not_bringUp h,
      exec_flashChannelsTrained_of_not_bringUp h, exec_mapLoadDone_of_not_bringUp h, exec_mapRebuildDone_of_not_bringUp h,
      fun _ => exec_readyRise_of_not_due (.inl (readyDue_of_not_bringUp h))⟩
  · exact ⟨fun _ hdone hrail => ⟨exec_hbmTrained_of_failed h hdone hrail, exec_hbmTrained_of_full h hdone hrail⟩,
      fun _ hdone hrail => ⟨exec_ddrTrained_of_bad h hdone hrail, exec_ddrTrained_of_good h hdone hrail⟩,
      exec_tierClearDone_hbm h, exec_tierClearDone_ddr h, exec_flashChannelsTrained_of_due h,
      exec_mapLoadDone_of_loading h, exec_mapLoadDone_of_not_loading,
      exec_mapRebuildDone_of_unready h, exec_mapRebuildDone_of_other,
      fun _ => exec_readyRise_of_due, fun _ => exec_readyRise_of_not_due⟩

end Sys2Proof.Machine
end

section
/-! SUPPORT. Arbiter family: requests and grants of an arbiter, and the port that a second bite takes out of service (O40, O41). -/

namespace Sys2Proof.Machine

/-! ### Requests and grants (R338, R375 to R381) -/

/-- The arbiter with a request of age 0 behind those that its port holds. -/
def Arb.enqueue (b : Arb) (p : Nat) (req : ArbReq) : Arb :=
  { b.setPort p { b.port p with queue := (b.port p).queue ++ [⟨req, 0, b.arrivals, false⟩] } with arrivals := b.arrivals + 1 }

@[simp] theorem Arb.enqueue_grant (b : Arb) (p : Nat) (req : ArbReq) : (b.enqueue p req).grant = b.grant := rfl
@[simp] theorem Arb.enqueue_pick (b : Arb) (p : Nat) (req : ArbReq) : (b.enqueue p req).pick = b.pick := rfl

/-- The state with the request queued at arbiter `b`. -/
def State.enqueue (s : State) (a : Nat) (b : Arb) (p : Nat) (req : ArbReq) : State :=
  (s.setArb a b).setArb a (b.enqueue p req)

/-- No other request waits at the arbiter. -/
def Arb.alone (b : Arb) (p : Nat) (req : ArbReq) : Bool := (b.enqueue p req).heads.length = 1 && (b.port p).queue = []

/-- With the request queued a grant starts: its own where it is alone (R380), else that of the best candidate. -/
def State.startQueued (s : State) (a : Nat) (b : Arb) (p : Nat) (req : ArbReq) : State :=
  if b.alone p req then ((s.enqueue a b p req).startGrant a p).count (pgARB a) oARB_BYPASS 1 else (s.enqueue a b p req).arbNext a

/-- The request is the first that comes eligible to an empty port after a spare pick, which is stale from now. -/
def Arb.late (b : Arb) (p : Nat) (req : ArbReq) : Bool :=
  let c := b.enqueue p req
  c.pick.isSome && c.pickSpare && !c.stale && (b.port p).queue = [] && c.eligible req

/-- The queued request waits; a late one counts the held pick in STALE (R379). -/
def State.waitQueued (s : State) (a : Nat) (b : Arb) (p : Nat) (req : ArbReq) : State :=
  if b.late p req then
    ((s.enqueue a b p req).setArb a { b.enqueue p req with stale := true }).count (pgARB a) oARB_STALE 1
  else s.enqueue a b p req

section
variable {s : State} {arb : Fin 36} {cycles : Nat} {port : Fin 32} {req : ArbReq} {b : Arb}

theorem exec_arbRequest_of_reset (h : s.alive = false) : exec (.arbRequest arb port req cycles) s = done s :=
  awake_of_not_alive h _

theorem exec_arbGrantDone_of_reset (h : s.alive = false) : exec (.arbGrantDone arb cycles) s = done s :=
  awake_of_not_alive h _

section
variable (hb : s.refill arb.val cycles (s.arb arb.val) = b) (halive : s.alive = true)
include hb halive

theorem exec_arbGrantDone_of_alive : exec (.arbGrantDone arb cycles) s =
    done (((s.setArb arb.val { b with grant := none }).arbNext arb.val).countThrottled arb.val) := by
  subst hb
  exact awake_of_alive halive _

variable (hvalid : arbPortValid arb.val port.val = true)
include hvalid

theorem exec_arbRequest_of_out (hout : (b.port port.val).out = true) :
    exec (.arbRequest arb port req cycles) s = done ((s.setArb arb.val b).arbKill [req]) := by
  subst hb
  exact (awake_of_alive halive _).trans ((if_neg (by simp [hvalid])).trans (if_pos hout))

section
variable (hin : (b.port port.val).out = false)
include hin

/-- A port in service keeps a request waiting at the handshake or takes it into its queue. -/
theorem exec_arbRequest_of_in_service : exec (.arbRequest arb port req cycles) s =
    if 32 ≤ (b.port port.val).queue.length || 0 < (b.port port.val).backoff then done (s.setArb arb.val b)
    else if (b.enqueue port.val req).grant = none && (b.enqueue port.val req).pick = none &&
        ((s.enqueue arb.val b port.val req).candidates arb.val (b.enqueue port.val req)).1 ≠ [] then
      done ((s.startQueued arb.val b port.val req).countThrottled arb.val)
    else done ((s.waitQueued arb.val b port.val req).countThrottled arb.val) := by
  subst hb
  exact (awake_of_alive halive _).trans ((if_neg (by simp [hvalid])).trans (if_neg (by simpa using hin)))

theorem exec_arbRequest_of_full (h : 32 ≤ (b.port port.val).queue.length ∨ 0 < (b.port port.val).backoff) :
    exec (.arbRequest arb port req cycles) s = done (s.setArb arb.val b) :=
  (exec_arbRequest_of_in_service hb halive hvalid hin).trans (if_pos (by simpa using h))

variable (hroom : (b.port port.val).queue.length < 32) (hback : (b.port port.val).backoff = 0)
include hroom hback

theorem exec_arbRequest_of_busy (hgrant : b.grant.isSome = true) : exec (.arbRequest arb port req cycles) s =
    done ((s.waitQueued arb.val b port.val req).countThrottled arb.val) := by
  rw [exec_arbRequest_of_in_service hb halive hvalid hin, if_neg (by simp; omega),
    if_neg (by simp [Option.ne_none_iff_isSome.mpr hgrant])]

theorem exec_arbRequest_of_idle (hgrant : b.grant = none) (hpick : b.pick = none)
    (hcand : ((s.enqueue arb.val b port.val req).candidates arb.val (b.enqueue port.val req)).1 ≠ []) :
    exec (.arbRequest arb port req cycles) s = done (State.countThrottled
      (if (b.enqueue port.val req).heads.length = 1 ∧ (b.port port.val).queue = [] then
        ((s.enqueue arb.val b port.val req).startGrant arb.val port.val).count (pgARB arb.val) oARB_BYPASS 1
      else (s.enqueue arb.val b port.val req).arbNext arb.val) arb.val) := by
  rw [exec_arbRequest_of_in_service hb halive hvalid hin, if_neg (by simp; omega),
    if_pos (by simp [hgrant, hpick, hcand])]
  simp only [State.startQueued, Arb.alone, Bool.and_eq_true, decide_eq_true_eq]

end
end
end

/-- Settles O40: a request meets the guards of its port in turn, and a grant's end none but the reset's. -/
theorem arbiterGrants : Obligations.ArbiterGrants := by
  intro s arb cycles
  refine ⟨fun hreset => ⟨exec_arbGrantDone_of_reset hreset, fun _ _ => exec_arbRequest_of_reset hreset⟩, fun halive => ?_⟩
  dsimp only
  generalize hb : s.refill arb.val cycles (s.arb arb.val) = b
  exact ⟨exec_arbGrantDone_of_alive hb halive, fun port req hvalid hin => ⟨exec_arbRequest_of_full hb halive hvalid hin,
    exec_arbRequest_of_busy hb halive hvalid hin, exec_arbRequest_of_idle hb halive hvalid hin⟩⟩

/-! ### Bites and ports out of service (R382, R383) -/

/-- Whether a bite now comes at most 1,024 strobe periods after the last at the port. -/
def State.bitesAgain (s : State) (x : ArbPort) : Bool :=
  match x.lastBite with
  | some t => decide (s.strobes ≤ t + 1024)
  | none => false

/-- The arbiter after a bite of its grant at a port. -/
abbrev State.bitten (s : State) (b : Arb) (p : Nat) : Arb :=
  { b.setPort p { arbPortIdle with
      out := (b.port p).out || s.bitesAgain (b.port p)
      lastBite := some s.strobes } with
    grant := none
    pick := if b.pick = some p then none else b.pick }

/-- The tag that the events of a bite name. -/
abbrev State.biteTag (s : State) (q : Queued) : Option (Nat × Nat) := (q.req.cmd.bind s.cmd?).bind Cmd.evTag

/-- A bite: the port is reset, its requesters fail, and the bite is counted and raised. -/
abbrev State.bite (s : State) (a p : Nat) (q : Queued) (ticks : Nat) : State :=
  (((s.setArb a (s.bitten (s.arb a) p)).arbKill (q.req :: ((s.arb a).port p).queue.map (·.req))).count (pgARB a) oARB_BITES 1).flagEvent
    (pgARB a) 1 1 (p + q.req.cls.val * 2 ^ 5 + q.req.master.toNat * 2 ^ 16 + ticks % 2 ^ 32 * 2 ^ 32) (s.biteTag q)

/-- A second bite: PORT_OUT is raised, and the port goes to self-test. -/
abbrev State.portOut (s : State) (arb : Fin 36) (p : Nat) (q : Queued) (ticks : Nat) : State :=
  ((s.bite arb.val p q ticks).flagEvent (pgARB arb.val) 2 2 (p + q.req.master.toNat * 2 ^ 16) (s.biteTag q)).beginTest
    (.arbQueue arb (Fin.ofNat 32 p)) 2

section
variable {s : State} {arb : Fin 36} {ticks p : Nat} {q : Queued}

theorem exec_arbWatchdog_of_no_grant (h : (s.arb arb.val).grant = none) : exec (.arbWatchdog arb ticks) s = done s := by
  simp only [exec_arbWatchdog, execArbWatchdog, h]

section
variable (hgrant : (s.arb arb.val).grant = some (p, q))
include hgrant

theorem exec_arbWatchdog_of_grant : exec (.arbWatchdog arb ticks) s =
    if ticks < (s.arb arb.val).limit then done s
    else done (State.arbNext
      (if s.bitesAgain ((s.arb arb.val).port p) then s.portOut arb p q ticks else s.bite arb.val p q ticks) arb.val) := by
  rw [exec_arbWatchdog, execArbWatchdog]
  simp only [hgrant]
  rfl

theorem exec_arbWatchdog_of_within (h : ticks < (s.arb arb.val).limit) : exec (.arbWatchdog arb ticks) s = done s :=
  (exec_arbWatchdog_of_grant hgrant).trans (if_pos h)

variable (hlimit : (s.arb arb.val).limit ≤ ticks)
include hlimit

theorem exec_arbWatchdog_of_first (hfirst : s.bitesAgain ((s.arb arb.val).port p) = false) :
    exec (.arbWatchdog arb ticks) s = done ((s.bite arb.val p q ticks).arbNext arb.val) := by
  rw [exec_arbWatchdog_of_grant hgrant, if_neg hlimit.not_gt, if_neg (by simp [hfirst])]

theorem exec_arbWatchdog_of_again (hagain : s.bitesAgain ((s.arb arb.val).port p) = true) :
    exec (.arbWatchdog arb ticks) s = done ((s.portOut arb p q ticks).arbNext arb.val) := by
  rw [exec_arbWatchdog_of_grant hgrant, if_neg hlimit.not_gt, if_pos hagain]

end

theorem exec_portRestore_of_answers (h : s.i3cAnswers (pgARB arb.val) = true) :
    exec (.portRestore arb) s = done (s.portRestore arb.val) :=
  onPage_of_answers h _

theorem exec_portRestore_of_silent (h : s.i3cAnswers (pgARB arb.val) = false) : exec (.portRestore arb) s = done s :=
  onPage_of_silent h _

end

/-- Settles O41: the watchdog by its grant, its limit and the port's last bite; a port out of service refuses, and RESTORE is a write of its page. -/
theorem portOutOfService : Obligations.PortOutOfService := by
  refine ⟨fun s arb ticks p q => ⟨exec_arbWatchdog_of_no_grant, fun hgrant => ⟨exec_arbWatchdog_of_within hgrant, fun hlimit => ?_⟩⟩,
    fun s arb port req cycles halive hvalid => exec_arbRequest_of_out rfl halive hvalid,
    fun s arb => ⟨exec_portRestore_of_answers, exec_portRestore_of_silent⟩⟩
  exact ⟨exec_arbWatchdog_of_first hgrant hlimit, exec_arbWatchdog_of_again hgrant hlimit⟩

end Sys2Proof.Machine
end

section
/-! SUPPORT. Flash family: the write buffers reach the media, and FORMAT leaves an empty tier (O42, O43). -/

namespace Sys2Proof.Machine

/-! ### What events leave of the partitions (R163, R527 to R529) -/

section
variable {s t : State}

/-- The partitions' setup blocks. -/
def State.setups (s : State) (p : Nat) : List Byte := (s.part p).setup

theorem setups_of_parts (h : t.parts = s.parts) : t.setups = s.setups := by
  funext p
  simp only [State.setups, State.part, h]

/-- The ring of a non-FREE partition moved on keeps every setup, in any table. -/
theorem setPart_ring_setups {p : Nat} (hst : (s.part p).st ≠ .free) (r : Ring) :
    (s.setPart p { s.part p with ring := r }).setups = s.setups := by
  have hlisted : ({ s.part p with ring := r } : Part) ≠ partFree := fun heq => hst (congrArg Part.st heq)
  funext q
  rw [State.setups, State.part, State.setPart, tabGet_tabPut_listed _ hlisted]
  split
  · next hq => rw [hq, State.setups]
  · rfl

end

section
variable (s : State)

@[simp] theorem charge_parts (k p o b n : Nat) : (s.charge k p o b n).parts = s.parts := by
  unfold State.charge
  split
  · rfl
  · change State.parts (if _ then _ else _) = _
    split <;> simp
@[simp] theorem txFrames_parts (i n : Nat) : (s.txFrames i n).parts = s.parts := by
  unfold State.txFrames
  dsimp only
  split <;> simp
@[simp] theorem chargeFront_parts (q : Nat) (x : Tx) : (s.chargeFront q x).parts = s.parts := by
  unfold State.chargeFront
  dsimp only
  repeat' split
  all_goals simp
@[simp] theorem rdmaOut_parts (q a : Nat) (bs : List Byte) : (s.rdmaOut q a bs).parts = s.parts := by
  unfold State.rdmaOut State.qpFrames
  dsimp only
  split <;> simp
@[simp] theorem writeSlots_parts (p n : Nat) (l : List (List Byte)) : (s.writeSlots p n l).parts = s.parts := by
  unfold State.writeSlots
  dsimp only
  split <;> split <;> simp

end

section
variable {s : State} {p : Nat}

section
variable (hst : (s.part p).st ≠ .free)
include hst

theorem writeRec_setups (l : List (List Byte)) : (s.writeRec p l).setups = s.setups := by
  have hparts : ∀ a m b n, ((s.writeSlots p a m).writeSlots p b n).parts = s.parts := fun a m b n => by simp
  refine (setPart_ring_setups ?_ _).trans (setups_of_parts (hparts ..))
  rwa [State.part, hparts]

theorem writeEvent_setups (g e i x : Nat) : (s.writeEvent p g e i x).setups = s.setups := by
  unfold State.writeEvent
  dsimp only
  split
  · split
    · exact setPart_ring_setups hst _
    · exact setups_of_parts (by simp)
  · exact writeRec_setups hst _

end

variable (s) (g e i : Nat) (x : Option (Nat × Nat))

theorem hdrCount_setups (o : Nat) : (s.hdrCount g o).setups = s.setups := setups_of_parts (by simp)

theorem deliver_setups : (s.deliver g e i x).setups = s.setups := by
  unfold State.deliver
  split
  · next q _ =>
    split
    · next hst =>
      have hcount : (s.hdrCount g oHDR_EVENTS).part q = s.part q := by simp [State.part]
      refine (writeEvent_setups ?_ g e i _).trans (hdrCount_setups s g _)
      rw [hcount]
      intro hfree
      simp [hfree] at hst
    · exact hdrCount_setups s g _
  · exact hdrCount_setups s g _

theorem raise_setups (b : Option Nat) : (s.raise g b e i x).setups = s.setups := by
  unfold State.raise
  split
  · exact deliver_setups s g e i x
  · exact hdrCount_setups s g _

theorem flagEvent_setups (b : Nat) : (s.flagEvent g b e i x).setups = s.setups :=
  (raise_setups _ g e i x _).trans (setups_of_parts (setErr_parts s g b))

end

/-! ### Life of the tier (R402, R409, R410) -/

section
variable {s t : State}

/-- What a check of the tier's life and the events it raises leave: memory, semaphores, commands, setups, and the media manager
but for the two fields the check keeps. -/
def State.beyondLife (s : State) :=
  (s.mem, s.sems, s.cmds, s.setups, ({ s.flash with
    readOnly := false
    lifeSeen := 0 } : Flash))

theorem beyondLife_of_events (hb : t.besideEvents = s.besideEvents) (hs : t.setups = s.setups) : t.beyondLife = s.beyondLife := by
  simp only [State.besideEvents, Prod.mk.injEq] at hb
  simp [State.beyondLife, hb, hs]

theorem raise_beyondLife (s : State) (g : Nat) (b : Option Nat) (e i : Nat) (x : Option (Nat × Nat)) :
    (s.raise g b e i x).beyondLife = s.beyondLife :=
  beyondLife_of_events (raise_beside s g b e i x) (raise_setups s g e i x b)

theorem flagEvent_beyondLife (s : State) (g b e i : Nat) (x : Option (Nat × Nat)) :
    (s.flagEvent g b e i x).beyondLife = s.beyondLife :=
  beyondLife_of_events (flagEvent_beside s g b e i x) (flagEvent_setups s g e i x b)

/-- The tier goes read-only where a channel has too few spare blocks. -/
def State.checkSpare (s : State) : State :=
  match (List.range 32).find? (fun ch => s.spareMargin ch < 0) with
  | some ch =>
    if s.flash.readOnly then s
    else ({ s with flash := { s.flash with readOnly := true } } : State).flagEvent pgFLS 6 5 ch none
  | none => s

/-- The steps of LIFE that a fall to 10 or to 0 passes. -/
def State.lifeStep (s : State) : Nat := if s.life = 0 then 2 else if s.life ≤ 10 then 1 else 0

/-- A fall of LIFE is raised once. -/
def State.noteLife (s : State) : State :=
  if s.flash.lifeSeen < s.lifeStep then
    ({ s with flash := { s.flash with lifeSeen := s.lifeStep } } : State).flagEvent pgFLS 7 6 s.life none
  else s

theorem checkLife_eq (s : State) : s.checkLife = if !s.flash.formatted then s else s.checkSpare.noteLife := rfl

theorem checkSpare_beyondLife (s : State) : s.checkSpare.beyondLife = s.beyondLife := by
  unfold State.checkSpare
  split
  · split
    · rfl
    · exact flagEvent_beyondLife ..
  · rfl

theorem noteLife_beyondLife (s : State) : s.noteLife.beyondLife = s.beyondLife := by
  unfold State.noteLife
  split
  · exact flagEvent_beyondLife ..
  · rfl

theorem checkLife_beyondLife (s : State) : s.checkLife.beyondLife = s.beyondLife := by
  rw [checkLife_eq]
  split
  · rfl
  · rw [noteLife_beyondLife, checkSpare_beyondLife]

/-- The good raw capacity is counted over the dies and the blocks alone. -/
theorem goodRawBytes_of_chans_blocks (hc : t.flash.chans = s.flash.chans) (hb : t.flash.blocks = s.flash.blocks) :
    t.goodRawBytes = s.goodRawBytes := by
  have hchan : t.chan = s.chan := funext fun c => congrArg (tabGet chanEmpty · c) hc
  have hblk : t.blk = s.blk := funext fun k => congrArg (tabGet blkFree · k) hb
  have hfdie : t.fdie = s.fdie := by
    unfold State.fdie
    rw [hchan]
  have hlive : t.liveDies = s.liveDies := by
    unfold State.liveDies
    rw [hchan]
  have hgood : t.goodOn = s.goodOn := by
    unfold State.goodOn
    rw [hfdie, hblk]
  rw [State.goodRawBytes, State.goodRawBytes, hlive, hgood, hfdie]

end

/-! ### FORMAT (R389, R411) -/

section
variable {s : State}

/-- Every good block erased once more. -/
def State.eraseGood (s : State) : State :=
  ((List.range 32).flatMap s.goodBlocks).foldl (fun u k => u.setBlk k { blkFree with erases := (u.blk k).erases + 1 }) s

/-- The blocks that the makers of the dies marked bad. -/
def State.makerBad (s : State) : List Nat :=
  (List.range 32).flatMap fun ch => ((s.chan ch).dies.zipIdx).flatMap fun d => d.1.bad.map fun b => blkKey ⟨ch, d.2, b⟩

/-- The media emptied: good blocks free, bad blocks marked, nothing buffered or on its way. -/
def State.eraseMedia (s : State) : State :=
  (List.range 32).foldl (fun u ch => u.setChan ch { u.chan ch with
      buffer := []
      relocs := [] })
    (s.makerBad.foldl (fun u k => u.setBlk k { blkFree with st := .bad }) s.eraseGood)

/-- The tier's records as FORMAT writes them over emptied media, before the tier's life is checked. -/
def State.formatTier (s : State) (seq : Nat) : State :=
  let raw := s.goodRawBytes
  let t : State := { s with flash := { s.flash with
    map := []
    lostUnits := []
    formatted := true
    marker := none
    mapState := 3
    readOnly := false
    goodRaw := raw / pageBytes
    logical := raw * 7 / 8 / pageBytes
    patrolPos := 0
    patrolElapsed := 0
    patrolDone := 0
    patrolSaved := (0, s.cal.seconds)
    lifeSeen := 0
    seq := seq } }
  { t with
    flash := { t.flash with marginAtFormat := t.tierMargin.toNat }
    start := { t.start with flashDone := true } }

/-- FORMAT's last steps: the check of the new tier's life, and the event that says its capacity. -/
def State.announceFormat (s : State) : State := s.checkLife.raise pgFLS none 7 (s.flash.logical % 2 ^ 32) none

/-- Emptying the media is no matter of anything but the media manager. -/
theorem eraseMedia_keeps {γ : Type} (g : State → γ) (hblk : ∀ (u : State) k x, g (u.setBlk k x) = g u)
    (hchan : ∀ (u : State) c x, g (u.setChan c x) = g u) (s : State) : g s.eraseMedia = g s :=
  (foldl_keeps g _ (fun u c => hchan u c _) _ _).trans
    ((foldl_keeps g _ (fun u k => hblk u k _) _ _).trans (foldl_keeps g _ (fun u k => hblk u k _) _ _))

theorem announceFormat_beyondLife (s : State) : s.announceFormat.beyondLife = s.beyondLife := by
  rw [State.announceFormat, raise_beyondLife, checkLife_beyondLife]

/-- What the check of life and its events leave of a tier just formatted: its empty map, its capacity, the media as they are. -/
theorem flash_of_formatTier {u m : State} {seq : Nat} (h : u.beyondLife = (m.formatTier seq).beyondLife) :
    u.flash.formatted = true ∧ u.flash.mapState = 3 ∧ u.flash.marker = none ∧ u.flash.map = [] ∧ u.flash.lostUnits = [] ∧
      u.flash.patrolPos = 0 ∧ u.flash.patrolElapsed = 0 ∧ u.flash.logical = u.goodRawBytes * 7 / 8 / pageBytes := by
  simp only [State.beyondLife, Prod.mk.injEq] at h
  obtain ⟨-, -, -, -, hflash⟩ := h
  have hchans : u.flash.chans = m.flash.chans := (congrArg Flash.chans hflash :)
  have hblocks : u.flash.blocks = m.flash.blocks := (congrArg Flash.blocks hflash :)
  have hraw := goodRawBytes_of_chans_blocks hchans hblocks
  rw [hraw]
  exact ⟨congrArg Flash.formatted hflash, congrArg Flash.mapState hflash, congrArg Flash.marker hflash, congrArg Flash.map hflash,
    congrArg Flash.lostUnits hflash, congrArg Flash.patrolPos hflash, congrArg Flash.patrolElapsed hflash,
    congrArg Flash.logical hflash⟩

theorem frame_of_formatTier {u m : State} {seq : Nat} (h : u.beyondLife = (m.formatTier seq).beyondLife) :
    u.mem = m.mem ∧ u.sems = m.sems ∧ u.cmds = m.cmds ∧ u.setups = m.setups := by
  simp only [State.beyondLife, Prod.mk.injEq] at h
  obtain ⟨hmem, hsems, hcmds, hsetups, -⟩ := h
  exact ⟨hmem, hsems, hcmds, hsetups⟩

/-- A partition in use has a share of the flash, or the first channel has no die: FORMAT is barred. -/
abbrev State.FormatBarred (s : State) : Prop :=
  (∃ p ∈ partIds, (s.part p).nonFree = true ∧ (s.part p).flsShare.2 ≠ 0) ∨ (s.chan 0).dies = []

theorem flashFormat_guard :
    (partIds.any (fun p => (s.part p).nonFree && (s.part p).flsShare.2 ≠ 0) || (s.chan 0).dies = []) = true ↔ s.FormatBarred := by
  simp only [Bool.or_eq_true, List.any_eq_true, Bool.and_eq_true, decide_eq_true_eq]

theorem flashFormat_of_barred (h : s.FormatBarred) : s.flashFormat = s := if_pos (flashFormat_guard.mpr h)

theorem flashFormat_of_allowed (h : ¬ s.FormatBarred) :
    s.flashFormat = (s.eraseMedia.formatTier (max 1 s.flash.seq)).announceFormat :=
  if_neg (mt flashFormat_guard.mp h)

end

/-- Settles O43: FORMAT empties the media and writes the tier's records, and nothing after that touches what the statement names. -/
theorem flashFormats : Obligations.FlashFormats := by
  intro s hans hshare hdies
  have hallowed : ¬ s.FormatBarred :=
    not_or.mpr ⟨fun ⟨p, hp, hused, hsome⟩ => hsome (hshare p hp hused), hdies⟩
  have hkept := announceFormat_beyondLife (s.eraseMedia.formatTier (max 1 s.flash.seq))
  rw [← flashFormat_of_allowed hallowed] at hkept
  obtain ⟨hformatted, hstate, hmarker, hmap, hlost, hpos, helapsed, hlogical⟩ := flash_of_formatTier hkept
  obtain ⟨hmem, hsems, hcmds, hsetups⟩ := frame_of_formatTier hkept
  refine ⟨s.flashFormat, onPage_of_answers hans _, hformatted, hstate, hmarker, hmap, hlost, hpos, helapsed, hlogical,
    hmem.trans ?_, hsems.trans ?_, hcmds.trans ?_, congrFun (hsetups.trans (setups_of_parts ?_))⟩
  · exact eraseMedia_keeps State.mem (fun _ _ _ => rfl) (fun _ _ _ => rfl) s
  · exact eraseMedia_keeps State.sems (fun _ _ _ => rfl) (fun _ _ _ => rfl) s
  · exact eraseMedia_keeps State.cmds (fun _ _ _ => rfl) (fun _ _ _ => rfl) s
  · exact eraseMedia_keeps State.parts (fun _ _ _ => rfl) (fun _ _ _ => rfl) s

/-! ### Word lines programmed (R390 to R394) -/

section
variable {s : State} {ch : Fin 32} {die : Fin 16}

theorem exec_wordLineProgrammed_of_full (hlive : die.val ∈ s.liveDies ch.val) (hfull : s.lineFull ch.val die.val = true) :
    exec (.wordLineProgrammed ch die) s = done (s.programLine ch.val die.val) :=
  if_pos (by simp [hlive, hfull])

theorem exec_wordLineProgrammed_of_short (h : die.val ∉ s.liveDies ch.val ∨ s.lineFull ch.val die.val = false) :
    exec (.wordLineProgrammed ch die) s = done s :=
  if_neg (by simpa [imp_iff_not_or] using h)

theorem exec_writeBufferTimeout_of_buffered (hlive : die.val ∈ s.liveDies ch.val) (hbuf : (s.chan ch.val).buffer ≠ []) :
    exec (.writeBufferTimeout ch die) s = done (s.programLine ch.val die.val) :=
  if_pos (by simp [hlive, hbuf])

theorem exec_writeBufferTimeout_of_empty (h : die.val ∉ s.liveDies ch.val ∨ (s.chan ch.val).buffer = []) :
    exec (.writeBufferTimeout ch die) s = done s :=
  if_neg (by simpa [imp_iff_not_or] using h)

end

/-! ### SHUTDOWN (R394, R406) -/

/-- Every channel's write buffer is empty. -/
abbrev State.Drained (s : State) : Prop := ∀ ch, ch < 32 → (s.chan ch).buffer = []

/-- The clean marker, with the largest SEQ given, on a formatted tier whose buffers are empty. -/
def State.markClean (s : State) : State :=
  if s.flash.formatted && (List.range 32).all (fun ch => (s.chan ch).buffer = []) then
    { s with flash := { s.flash with marker := some s.lastSeq } }
  else s

section
variable {s t : State}

theorem flashShutdown_eq : s.flashShutdown = s.flashFlush.savePatrol.markClean := rfl

theorem markClean_guard :
    (s.flash.formatted && (List.range 32).all (fun ch => (s.chan ch).buffer = [])) = true ↔ s.flash.formatted = true ∧ s.Drained := by
  simp only [Bool.and_eq_true, List.all_eq_true, List.mem_range, decide_eq_true_eq]

theorem markClean_of_clean (hform : s.flash.formatted = true) (hdrained : s.Drained) :
    s.markClean = { s with flash := { s.flash with marker := some s.lastSeq } } :=
  if_pos (markClean_guard.mpr ⟨hform, hdrained⟩)

theorem markClean_of_unclean (h : s.flash.formatted = false ∨ ∃ ch, ch < 32 ∧ (s.chan ch).buffer ≠ []) : s.markClean = s := by
  refine if_neg fun hclean => ?_
  obtain ⟨hform, hdrained⟩ := markClean_guard.mp hclean
  rcases h with hraw | ⟨ch, hch, hbuf⟩
  · exact absurd hform (by simp [hraw])
  · exact hbuf (hdrained ch hch)

variable (hans : s.i3cAnswers pgFLS = true)
include hans

theorem exec_flashShutdown_of_answers (hflush : s.flashFlush = t) : exec .flashShutdown s = done t.savePatrol.markClean := by
  rw [exec_flashShutdown, execFlashShutdown, onPage_of_answers hans, flashShutdown_eq, hflush]

theorem exec_flashFlush_of_answers (hflush : s.flashFlush = t) : exec .flashFlush s = done t := by
  rw [exec_flashFlush, execFlashFlush, onPage_of_answers hans, hflush]

theorem exec_flashFormat_of_barred (h : s.FormatBarred) : exec .flashFormat s = done s := by
  rw [exec_flashFormat, execFlashFormat, onPage_of_answers hans, flashFormat_of_barred h]

end

/-- Settles O42: each row by its guard; SHUTDOWN judges the tier after its flush, with the patrol saved. -/
theorem flashWrites : Obligations.FlashWrites := by
  refine ⟨fun s ch die => ⟨exec_wordLineProgrammed_of_full, exec_wordLineProgrammed_of_short,
      exec_writeBufferTimeout_of_buffered, exec_writeBufferTimeout_of_empty⟩, ?_⟩
  intro s t saved
  have hflush : s.flashFlush = t := rfl
  clear_value t
  refine ⟨fun hsil => ⟨onPage_of_silent hsil _, onPage_of_silent hsil _, onPage_of_silent hsil _⟩, fun hans =>
    ⟨exec_flashFlush_of_answers hans hflush, fun ⟨hform, hdrained⟩ => ?_, fun hunclean => ?_, exec_flashFormat_of_barred hans⟩⟩
  · exact (exec_flashShutdown_of_answers hans hflush).trans (congrArg done (markClean_of_clean hform hdrained))
  · exact (exec_flashShutdown_of_answers hans hflush).trans (congrArg done (markClean_of_unclean hunclean))

end Sys2Proof.Machine
end

section
/-! SUPPORT. Flash family: the rules by which the live units of a block start to leave it (O44). -/

namespace Sys2Proof.Machine

/-! ### Background work on the block that a rule picks (R398, R399) -/

/-- Where a rule is due, the block that it picks is acted on. -/
def State.leavePicked (s : State) (due : Bool) (pick : Option Nat) (act : Nat → State) : Host.Outcome State Fault Refusal :=
  if due then
    match pick with
    | some k => done (act k)
    | none => done s
  else done s

section
variable {s : State} {due : Bool} {pick : Option Nat} {act : Nat → State} {k : Nat}

theorem leavePicked_of_due (hdue : due = true) (hpick : pick = some k) : s.leavePicked due pick act = done (act k) := by
  subst hpick
  exact if_pos hdue

theorem leavePicked_of_not_due (h : due = false) : s.leavePicked due pick act = done s := if_neg (by simp [h])

theorem leavePicked_of_no_block (h : pick = none) : s.leavePicked due pick act = done s := by
  subst h
  exact ite_self _

end

section
variable {s : State} {ch : Fin 32} {k : Nat}

/-! ### RECLAIM (R403) -/

/-- The channel has less than 2 % of its good blocks free. -/
abbrev State.FewFree (s : State) (c : Nat) : Prop := 50 * (s.freeBlocks c).length < (s.goodBlocks c).length

/-- The block that RECLAIM leaves: closed TLC with the fewest live units, the fewest erases among equals. -/
abbrev State.reclaimed (s : State) (c : Nat) : Option Nat :=
  s.bestBlock c (fun _ b => b.st = .closed && b.mode = 0 && b.leaving = 0)
    (fun x y => s.liveCount x.1 < s.liveCount y.1 || (s.liveCount x.1 = s.liveCount y.1 && x.2.erases < y.2.erases))

theorem exec_reclaim_eq : exec (.reclaim ch) s =
    s.leavePicked (s.flashReady && decide (s.FewFree ch.val)) (s.reclaimed ch.val) (s.startLeaving · 1) := rfl

/-! ### WEAR_LEVEL (R404) -/

/-- The erase counts of a channel's good blocks. -/
abbrev State.wearOf (s : State) (c : Nat) : List Nat := (s.goodBlocks c).map (fun k => (s.blk k).erases)

/-- The least of them. -/
abbrev State.leastWear (s : State) (c : Nat) : Nat := (s.wearOf c).foldl min ((s.wearOf c).headD 0)

/-- The erase counts of the channel differ by more than SPREAD. -/
abbrev State.Uneven (s : State) (c : Nat) : Prop :=
  s.leastWear c + max 16 (s.field pgFLS oFLS_WL_CFG 11 0) < (s.wearOf c).foldl max 0

/-- A block of the channel is being levelled. -/
abbrev State.levelling (s : State) (c : Nat) : Bool := s.flash.blocks.any (fun e => keyCh e.1 = c && e.2.leaving = 2)

/-- The block that WEAR_LEVEL leaves: a closed data block with the fewest erases. -/
abbrev State.levelled (s : State) (c : Nat) : Option Nat :=
  s.bestBlock c (fun _ b => b.st = .closed && b.data && b.leaving = 0 && b.erases = s.leastWear c) (fun _ _ => false)

theorem exec_wearLevel_eq : exec (.wearLevel ch) s =
    s.leavePicked (s.flashReady && decide (s.Uneven ch.val) && !s.levelling ch.val) (s.levelled ch.val) (s.startLeaving · 2) := rfl

theorem levelling_of_none {c : Nat} (h : ∀ e ∈ s.flash.blocks, keyCh e.1 = c → e.2.leaving ≠ 2) : s.levelling c = false := by
  simpa [State.levelling] using h

/-! ### FOLD (R402) -/

/-- SLC data is at or above its target. -/
abbrev State.SlcFull (s : State) : Prop := s.slcTarget ≤ s.slcHeld * 4096

/-- The sequence number of a block's first unit. -/
abbrev Blk.firstSeq (b : Blk) : Nat :=
  match b.units.head? with
  | some u => u.seq
  | none => 0

/-- The block that FOLD leaves: closed SLC with the oldest data. -/
abbrev State.folded (s : State) (c : Nat) : Option Nat :=
  s.bestBlock c (fun _ b => b.st = .closed && b.mode = 1 && b.leaving = 0) (fun x y => x.2.firstSeq < y.2.firstSeq)

theorem exec_fold_eq : exec (.fold ch) s =
    s.leavePicked (s.flashReady && decide s.SlcFull) (s.folded ch.val) (s.startLeaving · 3) := rfl

/-! ### REFRESH (R405) -/

/-- The block that REFRESH leaves: the first closed one queued. -/
abbrev State.refreshed (s : State) (c : Nat) : Option Nat :=
  s.bestBlock c (fun _ b => b.st = .closed && b.refresh && b.leaving = 0) (fun _ _ => false)

/-- REFRESH picks its block before it asks for the map, with the same outcome. -/
theorem exec_refresh_eq : exec (.refresh ch) s =
    s.leavePicked s.flashReady (s.refreshed ch.val) (fun k => (s.startLeaving k 4).count pgFLS oFLS_REFRESHES 1) := by
  rw [exec_refresh, execRefresh]
  split
  · next k hblock =>
    have hpick : s.refreshed ch.val = some k := hblock
    split
    · next hready => rw [leavePicked_of_due hready hpick]
    · next hready => rw [leavePicked_of_not_due (Bool.eq_false_iff.mpr hready)]
  · next hpick => rw [leavePicked_of_no_block hpick]

end

/-- Settles O44: each row leaves the block that its rule picks where the map is ready and the rule due. -/
theorem blocksAreLeft : Obligations.BlocksAreLeft := by
  intro s ch
  refine ⟨fun hmap => ?_, fun hmap => ?_⟩
  · have hready : s.flashReady = false := decide_eq_false hmap
    exact ⟨exec_reclaim_eq.trans (leavePicked_of_not_due (by simp [hready])),
      exec_wearLevel_eq.trans (leavePicked_of_not_due (by simp [hready])),
      exec_fold_eq.trans (leavePicked_of_not_due (by simp [hready])), exec_refresh_eq.trans (leavePicked_of_not_due hready)⟩
  · have hready : s.flashReady = true := decide_eq_true hmap
    refine ⟨fun k hfew hpick => ?_, fun henough => ?_, fun k huneven hnone hpick => ?_, fun k hfull hpick => ?_, fun hbelow => ?_,
      fun k hpick => ?_, fun heven => ?_, fun h => exec_reclaim_eq.trans (leavePicked_of_no_block h),
      fun h => exec_wearLevel_eq.trans (leavePicked_of_no_block h), fun h => exec_fold_eq.trans (leavePicked_of_no_block h),
      fun h => exec_refresh_eq.trans (leavePicked_of_no_block h)⟩
    · have hdue : (s.flashReady && decide (s.FewFree ch.val)) = true := by simp [hready, hfew]
      exact exec_reclaim_eq.trans (leavePicked_of_due hdue hpick)
    · have hdue : (s.flashReady && decide (s.FewFree ch.val)) = false := by simp [henough]
      exact exec_reclaim_eq.trans (leavePicked_of_not_due hdue)
    · have hdue : (s.flashReady && decide (s.Uneven ch.val) && !s.levelling ch.val) = true := by
        rw [hready, decide_eq_true huneven, levelling_of_none hnone]
        rfl
      exact exec_wearLevel_eq.trans (leavePicked_of_due hdue hpick)
    · have hdue : (s.flashReady && decide s.SlcFull) = true := by simp [hready, hfull]
      exact exec_fold_eq.trans (leavePicked_of_due hdue hpick)
    · have hdue : (s.flashReady && decide s.SlcFull) = false := by simp [hbelow]
      exact exec_fold_eq.trans (leavePicked_of_not_due hdue)
    · exact exec_refresh_eq.trans (leavePicked_of_due hready hpick)
    · have hdue : (s.flashReady && decide (s.Uneven ch.val) && !s.levelling ch.val) = false := by
        rw [decide_eq_false (not_lt.mpr heven), Bool.and_false, Bool.false_and]
      exact exec_wearLevel_eq.trans (leavePicked_of_not_due hdue)

end Sys2Proof.Machine
end

section
/-! SUPPORT. Flash family: what becomes of blocks and units: erases, relocations, verification, patrol and failures (O45). -/

namespace Sys2Proof.Machine

/-! ### Erases and program failures (R399, R408, R410) -/

section
variable {s : State} {b : BlockId}

section
variable (h : s.erasable (blkKey b) = true)
include h

theorem exec_oldBlockErase_of_erasable : exec (.oldBlockErase b) s =
    done ((s.setBlk (blkKey b) { blkFree with erases := (s.blk (blkKey b)).erases + 1 }).checkLife) := if_pos h

theorem exec_eraseFailure_of_erasable : exec (.eraseFailure b) s = done ((s.setBlk (blkKey b) { s.blk (blkKey b) with
    units := []
    leaving := 0 }).retireBlk (blkKey b)) := if_pos h

end

section
variable (h : s.erasable (blkKey b) = false)
include h

theorem exec_oldBlockErase_of_held : exec (.oldBlockErase b) s = done s := if_neg (by simp [h])
theorem exec_eraseFailure_of_held : exec (.eraseFailure b) s = done s := if_neg (by simp [h])

end

/-- The block holds data whose band's parity still stands. -/
abbrev State.rebuildable (s : State) (b : BlockId) : Bool :=
  (s.blk (blkKey b)).data && s.parityStands b.ch (s.blk (blkKey b)).band

/-- A block whose units leave it, retired. -/
abbrev State.leaveRetired (s : State) (k : Nat) : State := (s.startLeaving k 5).retireBlk k

theorem exec_programFailure_of_not_open (h : (s.blk (blkKey b)).st ≠ .open) : exec (.programFailure b) s = done s := if_neg h

section
variable (hopen : (s.blk (blkKey b)).st = .open)
include hopen

theorem exec_programFailure_of_open : exec (.programFailure b) s =
    done (if s.rebuildable b then
      (s.leaveRetired (blkKey b)).count pgFLS oFLS_PARITY_RECOV (ceilDiv (s.blk (blkKey b)).units.length 4)
    else s.leaveRetired (blkKey b)) := if_pos hopen

theorem exec_programFailure_of_buffered (h : s.rebuildable b = false) :
    exec (.programFailure b) s = done (s.leaveRetired (blkKey b)) := by
  rw [exec_programFailure_of_open hopen, if_neg (by rw [h]; decide)]

theorem exec_programFailure_of_rebuildable (h : s.rebuildable b = true) : exec (.programFailure b) s =
    done ((s.leaveRetired (blkKey b)).count pgFLS oFLS_PARITY_RECOV (ceilDiv (s.blk (blkKey b)).units.length 4)) := by
  rw [exec_programFailure_of_open hopen, if_pos h]

end
end

/-! ### RELOCATION_DONE (R399) -/

/-- The relocation in progress of a unit on a channel. -/
abbrev State.relocOf (s : State) (c lua : Nat) : Option Reloc := (s.chan c).relocs.find? (fun r => r.unit.lua = lua)

/-- The dies of a channel with a block that takes relocated units. -/
abbrev State.takers (s : State) (c : Nat) : List Nat := (s.liveDies c).filter (fun d => (s.openBlock c d true).isSome)

/-- The map follows a unit to its new place where it still names the old one. -/
def State.followUnit (s : State) (r : Reloc) (lua k i : Nat) : State :=
  if r.unit.kind = 0 && tabFind s.flash.map lua = some (r.blk, r.index) then
    { s with flash := { s.flash with map := tabSet s.flash.map lua (k, i) } }
  else s

/-- A relocated unit programmed into block k: the relocation ends, the map follows, and the old block keeps the reads in progress. -/
def State.landUnit (t : State) (c lua : Nat) (r : Reloc) (k : Nat) : State :=
  let v := (t.program k [r.unit]).countBytes pgFLS oFLS_RELOCATED 4096
  let x := v.setChan c { v.chan c with relocs := (v.chan c).relocs.filter (fun y => y ≠ r) }
  let w := x.followUnit r lua k (t.blk k).units.length
  w.setBlk r.blk { w.blk r.blk with readers := (w.blk r.blk).readers ++ w.homeReaders lua }

section
variable {s : State} {ch : Fin 32} {lua : Nat}

theorem followUnit_eq (r : Reloc) (k i : Nat) : s.followUnit r lua k i =
    if r.unit.kind = 0 ∧ tabFind s.flash.map lua = some (r.blk, r.index) then
      { s with flash := { s.flash with map := tabSet s.flash.map lua (k, i) } }
    else s :=
  if_congr (by simp) rfl rfl

theorem exec_relocationDone_of_no_reloc (h : s.relocOf ch.val lua = none) : exec (.relocationDone ch lua) s = done s := by
  rw [exec_relocationDone, execRelocationDone]
  simp only [h]

/-- A relocation in progress ends in the block that a taker opens. -/
theorem exec_relocationDone_of_reloc {r : Reloc} (h : s.relocOf ch.val lua = some r) : exec (.relocationDone ch lua) s =
    match ((s.takers ch.val)[s.choose 1 (s.takers ch.val).length]?).bind (fun d => s.openBlock ch.val d true) with
    | none => done s
    | some (t, k) => done (t.landUnit ch.val lua r k) := by
  rw [exec_relocationDone, execRelocationDone]
  simp only [h]
  rfl

theorem exec_relocationDone_of_no_taker (h : ∀ d ∈ s.liveDies ch.val, s.openBlock ch.val d true = none) :
    exec (.relocationDone ch lua) s = done s := by
  have hnone : s.takers ch.val = [] := by
    rw [List.filter_eq_nil_iff]
    exact fun d hd => by simp [h d hd]
  cases hr : s.relocOf ch.val lua with
  | none => exact exec_relocationDone_of_no_reloc hr
  | some r => rw [exec_relocationDone_of_reloc hr, hnone, List.getElem?_nil, Option.bind_none]

theorem exec_relocationDone_of_taken {r : Reloc} {d k : Nat} {t : State} (hr : s.relocOf ch.val lua = some r)
    (hd : (s.takers ch.val)[s.choose 1 (s.takers ch.val).length]? = some d) (hopen : s.openBlock ch.val d true = some (t, k)) :
    exec (.relocationDone ch lua) s = done (t.landUnit ch.val lua r k) := by
  rw [exec_relocationDone_of_reloc hr, hd, Option.bind_some, hopen]

end

/-! ### READ_VERIFY (R401) -/

/-- The data blocks of a band. -/
abbrev State.bandBlocks (s : State) (c band : Nat) : List Nat :=
  (s.flash.blocks.filter (fun e => keyCh e.1 = c && e.2.data && e.2.band = band && e.2.st ≠ .free)).map (·.1)

/-- The blocks of the band that failed their verification. -/
abbrev State.failedOf (s : State) (c band : Nat) (failed : List BlockId) : List Nat :=
  (s.bandBlocks c band).filter (fun k => failed.any (fun b => blkKey b = k))

/-- The units of a band's blocks start to leave, and its failed blocks are retired. -/
def State.leaveBand (s : State) (c band : Nat) (bad : List Nat) : State :=
  bad.foldl (fun u k => u.retireBlk k) ((s.bandBlocks c band).foldl (fun u k => u.startLeaving k 5) s)

section
variable {s : State} {ch : Fin 32} {band : Nat} {failed : List BlockId}

/-- The band has nothing to verify: it has no block, a block still open, or no parity any more. -/
abbrev State.Unverifiable (s : State) (c band : Nat) : Prop :=
  s.bandBlocks c band = [] ∨ (∃ k ∈ s.bandBlocks c band, (s.blk k).st = .open) ∨ s.parityStands c band = false

theorem execReadVerify_guard {c : Nat} :
    (s.bandBlocks c band = [] || (s.bandBlocks c band).any (fun k => (s.blk k).st = .open) || !(s.parityStands c band)) = true ↔
      s.Unverifiable c band := by
  simp only [Bool.or_eq_true, List.any_eq_true, decide_eq_true_eq, Bool.not_eq_true', or_assoc]

theorem exec_readVerify_of_unverifiable (h : s.Unverifiable ch.val band) : exec (.readVerify ch band failed) s = done s :=
  if_pos (execReadVerify_guard.mpr h)

section
variable (h : ¬ s.Unverifiable ch.val band)
include h

theorem exec_readVerify_of_verifiable : exec (.readVerify ch band failed) s =
    if s.failedOf ch.val band failed = [] then done (s.releaseParity ch.val band)
    else done ((s.leaveBand ch.val band (s.failedOf ch.val band failed)).releaseParity ch.val band) :=
  if_neg (mt execReadVerify_guard.mp h)

theorem exec_readVerify_of_sound (hbad : s.failedOf ch.val band failed = []) :
    exec (.readVerify ch band failed) s = done (s.releaseParity ch.val band) :=
  (exec_readVerify_of_verifiable h).trans (if_pos hbad)

theorem exec_readVerify_of_failed (hbad : s.failedOf ch.val band failed ≠ []) : exec (.readVerify ch band failed) s =
    done ((s.leaveBand ch.val band (s.failedOf ch.val band failed)).releaseParity ch.val band) :=
  (exec_readVerify_of_verifiable h).trans (if_neg hbad)

end
end

/-! ### PATROL_STEP (R405, R406) -/

/-- A pass of the patrol and its period are over. -/
abbrev State.PassOver (s : State) (seconds : Nat) : Prop :=
  s.patrolTotal ≤ s.flash.patrolPos ∧ s.patrolPeriod ≤ s.flash.patrolElapsed + seconds

/-- Where the patrol reads next. -/
def State.patrolNext (s : State) (seconds : Nat) : Nat := if s.PassOver seconds then 0 else s.flash.patrolPos

/-- The patrol's time and position brought up to a step. -/
def State.patrolPaced (s : State) (seconds : Nat) : State :=
  { s with flash := { s.flash with
    patrolPos := s.patrolNext seconds
    patrolElapsed := if s.PassOver seconds then s.flash.patrolElapsed + seconds - s.patrolPeriod
      else s.flash.patrolElapsed + seconds } }

/-- A page of block k read: the block is queued for refresh where the read calls for it. -/
def State.patrolRead (t : State) (x : PatrolSample) (k : Nat) : State :=
  t.setBlk k { t.blk k with
    reads := (t.blk k).reads + 1
    refresh := (t.blk k).refresh || (x.retry || x.high || decide (t.readLimit < (t.blk k).reads + 1)) }

/-- The step counted, and the patrol saved at every hundredth. -/
def State.patrolCounted (v : State) (pos : Nat) : State :=
  let w : State := { v with flash := { v.flash with
    patrolPos := pos + 1
    patrolDone := v.flash.patrolDone + 1 } }
  if (v.flash.patrolDone + 1) % 100 = 0 then w.savePatrol else w

section
variable {s : State} {x : PatrolSample}

theorem exec_patrolStep_of_not_ready (h : s.flash.mapState ≠ 3) : exec (.patrolStep x) s = done s :=
  if_pos (by simp [State.flashReady, h])

section
variable (h : s.flash.mapState = 3)
include h

theorem exec_patrolStep_of_ready : exec (.patrolStep x) s =
    match patrolAt (s.patrolPaced x.seconds).patrolPages (s.patrolNext x.seconds) with
    | none => done (s.patrolPaced x.seconds)
    | some k => done (((s.patrolPaced x.seconds).patrolRead x k).patrolCounted (s.patrolNext x.seconds)) := by
  rw [exec_patrolStep, execPatrolStep, if_neg (by simp [State.flashReady, h])]
  have hover : (decide (s.patrolTotal ≤ s.flash.patrolPos) && decide (s.patrolPeriod ≤ s.flash.patrolElapsed + x.seconds)) =
      decide (s.PassOver x.seconds) := (Bool.decide_and ..).symm
  simp only [hover, decide_eq_true_eq]
  rfl

theorem exec_patrolStep_of_no_page (hpage : patrolAt (s.patrolPaced x.seconds).patrolPages (s.patrolNext x.seconds) = none) :
    exec (.patrolStep x) s = done (s.patrolPaced x.seconds) := by
  rw [exec_patrolStep_of_ready h, hpage]

theorem exec_patrolStep_of_page {k : Nat} (hpage : patrolAt (s.patrolPaced x.seconds).patrolPages (s.patrolNext x.seconds) = some k) :
    exec (.patrolStep x) s =
      done (((s.patrolPaced x.seconds).patrolRead x k).patrolCounted (s.patrolNext x.seconds)) := by
  rw [exec_patrolStep_of_ready h, hpage]

end
end

/-! ### UNIT_LOST (R408) -/

/-- A unit lost in block k: its event, the block's retirement, and the end of the commands that read it at home. -/
def State.failUnit (s : State) (lua k : Nat) : State :=
  (((s.loseUnit lua).flagEvent pgFLS 4 3 lua none).leaveRetired k).endWhere
    (fun c => (s.homeReaders lua).contains c.ref) stDATA_ERROR 0

section
variable {s : State} {lua k i : Nat}

theorem exec_unitLost_of_unmapped (h : tabFind s.flash.map lua = none) : exec (.unitLost lua) s = done s := by
  rw [exec_unitLost, execUnitLost]
  simp only [h]

section
variable (hmap : tabFind s.flash.map lua = some (k, i))
include hmap

theorem exec_unitLost_of_mapped :
    exec (.unitLost lua) s = if (s.blk k).st = .closed then done (s.failUnit lua k) else done s := by
  rw [exec_unitLost, execUnitLost]
  simp only [hmap]
  rfl

theorem exec_unitLost_of_not_closed (h : (s.blk k).st ≠ .closed) : exec (.unitLost lua) s = done s :=
  (exec_unitLost_of_mapped hmap).trans (if_neg h)

theorem exec_unitLost_of_closed (h : (s.blk k).st = .closed) : exec (.unitLost lua) s = done (s.failUnit lua k) :=
  (exec_unitLost_of_mapped hmap).trans (if_pos h)

end
end

/-! ### DIE_LOST (R408) -/

/-- The blocks of a die that are in use. -/
abbrev State.dieBlocks (s : State) (c d : Nat) : List Nat :=
  (s.flash.blocks.filter (fun e => keyCh e.1 = c && keyDie e.1 = d && e.2.st ≠ .free)).map (·.1)

/-- The LUAs of the live units of block k. -/
abbrev State.liveLuas (u : State) (k : Nat) : List Nat :=
  (((u.blk k).units.zipIdx).filter (fun x => u.unitLive k x.2 x.1)).map (fun x => x.1.lua)

/-- A block of a lost die retired: the units under standing parity leave it, the others are lost. -/
def State.loseBlk (u : State) (c k : Nat) : State :=
  if !(u.blk k).data then u.setBlk k { u.blk k with st := .retired }
  else if u.parityStands c (u.blk k).band then
    ((u.startLeaving k 5).count pgFLS oFLS_PARITY_RECOV (ceilDiv (u.blk k).units.length 4)).setBlk k { u.blk k with
      st := .retired
      leaving := 5 }
  else ((u.liveLuas k).foldl (fun w l => w.loseUnit l) u).setBlk k { u.blk k with st := .retired }

/-- A die marked lost. -/
def State.markLost (s : State) (c d : Nat) : State :=
  s.setChan c { s.chan c with lost := insertNat (s.chan c).lost d }

section
variable {s : State} {ch : Fin 32} {die : Fin 16}

theorem exec_dieLost_of_not_live (h : die.val ∉ s.liveDies ch.val) : exec (.dieLost ch die) s = done s :=
  if_pos (by simp [h])

theorem exec_dieLost_of_live (h : die.val ∈ s.liveDies ch.val) : exec (.dieLost ch die) s =
    done ((((s.dieBlocks ch.val die.val).foldl (fun u k => u.loseBlk ch.val k) (s.markLost ch.val die.val)).flagEvent pgFLS 5 4
      (ch.val + die.val * 2 ^ 8) none).checkLife) :=
  if_neg (by simp [h])

end

/-- Settles O45: each row by its guards; what it does then is what its definition says. -/
theorem blocksChange : Obligations.BlocksChange := by
  refine ⟨fun s b => ?_, fun s ch lua => ?_, fun s ch band => ?_, fun s x => ?_, fun s lua => ?_, fun s ch die => ?_⟩
  · exact ⟨fun h => ⟨exec_oldBlockErase_of_erasable h, exec_eraseFailure_of_erasable h⟩,
      fun h => ⟨exec_oldBlockErase_of_held h, exec_eraseFailure_of_held h⟩, exec_programFailure_of_not_open,
      exec_programFailure_of_buffered, exec_programFailure_of_rebuildable⟩
  · refine ⟨exec_relocationDone_of_no_reloc, exec_relocationDone_of_no_taker, fun r d k t hr hd hopen => ?_⟩
    rw [exec_relocationDone_of_taken hr hd hopen, State.landUnit]
    simp only [followUnit_eq]
    rfl
  · refine ⟨fun hsome hclosed hparity failed => ?_, fun h failed => exec_readVerify_of_unverifiable h⟩
    have hverifiable : ¬ s.Unverifiable ch.val band := by
      rintro (hnone | ⟨k, hk, hopen⟩ | hgone)
      · exact hsome hnone
      · exact hclosed k hk hopen
      · exact absurd hparity (by simp [hgone])
    exact ⟨exec_readVerify_of_sound hverifiable, exec_readVerify_of_failed hverifiable⟩
  · exact ⟨exec_patrolStep_of_not_ready, fun hmap => ⟨exec_patrolStep_of_no_page hmap, fun k => exec_patrolStep_of_page hmap⟩⟩
  · exact ⟨exec_unitLost_of_unmapped, fun k i hmap => ⟨exec_unitLost_of_not_closed hmap, exec_unitLost_of_closed hmap⟩⟩
  · refine ⟨exec_dieLost_of_not_live, fun hlive => ?_⟩
    intro ks lose
    have hlose : lose = fun u k => u.loseBlk ch.val k := by
      funext u k
      exact if_congr (by simp) rfl rfl
    rw [hlose]
    exact exec_dieLost_of_live hlive

end Sys2Proof.Machine
end

section
/-! SUPPORT. Repair family: every command answers a settled state (O1, O2), and settling leaves no uncovered frame without a reserve frame that is
no hole (O5). -/

namespace Sys2Proof.Machine

/-! ### What events leave of the partitions but for their rings (R163, R527 to R529) -/

section
variable {s t : State}

/-- The partitions, their rings put aside. -/
def State.ringless (s : State) (p : Nat) : Part := { s.part p with ring := ringEmpty }

theorem ringless_of_parts (h : t.parts = s.parts) : t.ringless = s.ringless := by
  funext p
  simp only [State.ringless, State.part, h]

/-- The ring of a non-FREE partition moved on is all that changes, in any table. -/
theorem setPart_ring_ringless {p : Nat} (hst : (s.part p).st ≠ .free) (r : Ring) :
    (s.setPart p { s.part p with ring := r }).ringless = s.ringless := by
  have hlisted : ({ s.part p with ring := r } : Part) ≠ partFree := fun heq => hst (congrArg Part.st heq)
  funext q
  rw [State.ringless, State.part, State.setPart, tabGet_tabPut_listed _ hlisted]
  split
  · next hq => rw [hq, State.ringless]
  · rfl

section
variable {p : Nat} (hst : (s.part p).st ≠ .free)
include hst

theorem writeRec_ringless (l : List (List Byte)) : (s.writeRec p l).ringless = s.ringless := by
  have hparts : ∀ a m b n, ((s.writeSlots p a m).writeSlots p b n).parts = s.parts := fun a m b n => by simp
  refine (setPart_ring_ringless ?_ _).trans (ringless_of_parts (hparts ..))
  rwa [State.part, hparts]

theorem writeEvent_ringless (g e i x : Nat) : (s.writeEvent p g e i x).ringless = s.ringless := by
  unfold State.writeEvent
  dsimp only
  split
  · split
    · exact setPart_ring_ringless hst _
    · exact ringless_of_parts (by simp)
  · exact writeRec_ringless hst _

end

variable (s) (g e i : Nat) (x : Option (Nat × Nat))

/-- An event reaches the ring of a partition that is ACTIVE or RESUMING alone. -/
theorem deliver_ringless : (s.deliver g e i x).ringless = s.ringless := by
  have hcount : ∀ o, (s.hdrCount g o).ringless = s.ringless := fun o => ringless_of_parts (by simp)
  unfold State.deliver
  split
  · next q _ =>
    split
    · next hst =>
      have hsame : (s.hdrCount g oHDR_EVENTS).part q = s.part q := by simp [State.part]
      refine (writeEvent_ringless ?_ g e i _).trans (hcount _)
      rw [hsame]
      intro hfree
      simp [hfree] at hst
    · exact hcount _
  · exact hcount _

theorem flagEvent_ringless (b : Nat) : (s.flagEvent g b e i x).ringless = s.ringless := by
  refine Eq.trans ?_ (ringless_of_parts (setErr_parts s g b))
  unfold State.flagEvent State.raise
  split
  · exact deliver_ringless ..
  · exact ringless_of_parts (by simp)

end

/-! ### Frames without a reserve frame (R485) -/

/-- What tells whether a frame is a hole or covered: the errors' records, the pages' copies, and the partitions but for their rings. -/
def State.frameScene (s : State) := (s.errors, s.pages, s.ringless)

/-- Of these, what a new hole leaves. -/
def State.coverScene (s : State) := (s.errors.noSpare, s.errors.hbmMap, s.errors.ddrMap, s.pages, s.ringless)

/-- A site is no frame, or its frame is a hole or covered. -/
def State.FrameSettled (s : State) : ErrSite → Prop
  | .hbm a => s.hbmPageOf (a / pageBytes) ∈ s.errors.hbmHoles ∨ s.frameCovered false (s.hbmPageOf (a / pageBytes)) = true
  | .ddr a => s.ddrPageOf (a / pageBytes) ∈ s.errors.ddrHoles ∨ s.frameCovered true (s.ddrPageOf (a / pageBytes)) = true
  | _ => True

/-- One site of `State.settleHoles`: its frame becomes a hole where nothing covers it. -/
def State.settleHole (s : State) (site : ErrSite) : State :=
  match site with
  | .hbm a =>
    let f := s.hbmPageOf (a / pageBytes)
    if s.errors.hbmHoles.contains f || s.frameCovered false f then s
    else ({ s with errors := { s.errors with hbmHoles := insertNat s.errors.hbmHoles f } }).flagEvent pgERR 4 4 (f * 2 ^ 32) none
  | .ddr a =>
    let f := s.ddrPageOf (a / pageBytes)
    if s.errors.ddrHoles.contains f || s.frameCovered true f then s
    else ({ s with errors := { s.errors with ddrHoles := insertNat s.errors.ddrHoles f } }).flagEvent pgERR 4 4 (1 + f * 2 ^ 32) none
  | _ => s

theorem settleHoles_eq (s : State) : s.settleHoles = s.errors.noSpare.foldl State.settleHole s := rfl

theorem mem_insertNat {l : List Nat} {n m : Nat} : m ∈ insertNat l n ↔ m = n ∨ m ∈ l := by
  induction l with
  | nil => simp [insertNat]
  | cons h l ih =>
    unfold insertNat
    split_ifs with hlt heq
    · simp
    · simp [heq]
    · simp only [List.mem_cons, ih]
      tauto

section
variable {s t : State}

theorem frameCovered_of_pages_ringless (hp : t.pages = s.pages) (hr : t.ringless = s.ringless) : t.frameCovered = s.frameCovered := by
  have hring : ∀ p, ({ t.part p with ring := ringEmpty } : Part) = { s.part p with ring := ringEmpty } := congrFun hr
  have hfree : ∀ p, (t.part p).nonFree = (s.part p).nonFree := fun p => (congrArg Part.nonFree (hring p) :)
  have hsetup : ∀ p, (t.part p).setup = (s.part p).setup := fun p => (congrArg Part.setup (hring p) :)
  funext d f
  simp only [State.frameCovered, State.framesHeld, Part.ddrShare, Part.resBase, Part.resBytes, Part.f, hp, hfree, hsetup]

/-- A settled frame stays settled while the holes only grow. -/
theorem frameSettled_mono {site : ErrSite} (hs : t.coverScene = s.coverScene) (hh : s.errors.hbmHoles ⊆ t.errors.hbmHoles)
    (hd : s.errors.ddrHoles ⊆ t.errors.ddrHoles) (h : s.FrameSettled site) : t.FrameSettled site := by
  simp only [State.coverScene, Prod.mk.injEq] at hs
  obtain ⟨-, hhbm, hddr, hpages, hparts⟩ := hs
  have hcover := frameCovered_of_pages_ringless hpages hparts
  cases site <;> simp only [State.FrameSettled, State.hbmPageOf, State.ddrPageOf, hcover, hhbm, hddr] at h ⊢
  · exact h.imp_left fun hm => hh hm
  · exact h.imp_left fun hm => hd hm

theorem coverScene_of_frameScene (h : t.frameScene = s.frameScene) : t.coverScene = s.coverScene := by
  simp only [State.frameScene, Prod.mk.injEq] at h
  simp [State.coverScene, h]

theorem frameSettled_of_frameScene {site : ErrSite} (hs : t.frameScene = s.frameScene) : s.FrameSettled site → t.FrameSettled site := by
  have herrors : t.errors = s.errors := congrArg (·.1) hs
  exact frameSettled_mono (coverScene_of_frameScene hs) (by rw [herrors]; exact fun _ => id) (by rw [herrors]; exact fun _ => id)

/-! ### What moves no frame -/

theorem frameScene_of_beside (h : t.besideEvents = s.besideEvents) (hr : t.ringless = s.ringless) : t.frameScene = s.frameScene := by
  simp only [State.besideEvents, Prod.mk.injEq] at h
  simp [State.frameScene, h, hr]

variable (s)

theorem flagEvent_frameScene (g b e i : Nat) (x : Option (Nat × Nat)) : (s.flagEvent g b e i x).frameScene = s.frameScene :=
  frameScene_of_beside (flagEvent_beside ..) (flagEvent_ringless ..)

theorem raiseMark_frameScene (m : Mark) (v : Nat) : (s.raiseMark m v).frameScene = s.frameScene :=
  frameScene_of_beside (peak_beside ..) (ringless_of_parts (State.peak_parts ..))

theorem notePn_frameScene : s.notePn.frameScene = s.frameScene := by
  unfold State.notePn
  refine foldl_keeps State.frameScene _ (fun t e => ?_) _ _
  exact foldl_keeps State.frameScene _ (fun u a => flagEvent_frameScene ..) _ _

theorem peaks_frameScene : s.peaks.frameScene = s.frameScene := by
  rw [peaks_eq, trayPeaks_eq]
  refine (foldl_keeps State.frameScene _ (fun t p => ?_) _ _).trans
    ((raiseMark_frameScene ..).trans (foldl_keeps State.frameScene _ (fun t e => raiseMark_frameScene ..) _ _))
  exact (raiseMark_frameScene ..).trans (raiseMark_frameScene ..)

/-! ### Settling makes the holes -/

/-- A state whose frames are covered as in s, and that has at least its holes. -/
def State.HolesGrown (s t : State) : Prop :=
  t.coverScene = s.coverScene ∧ s.errors.hbmHoles ⊆ t.errors.hbmHoles ∧ s.errors.ddrHoles ⊆ t.errors.ddrHoles

theorem subset_insertNat (l : List Nat) (n : Nat) : l ⊆ insertNat l n := fun _ hm => mem_insertNat.mpr (.inr hm)

theorem flagEvent_holesGrown {t : State} (h : s.HolesGrown t) (g b e i : Nat) (x : Option (Nat × Nat)) :
    s.HolesGrown (t.flagEvent g b e i x) := by
  have hscene := flagEvent_frameScene t g b e i x
  have herrors : (t.flagEvent g b e i x).errors = t.errors := congrArg (·.1) hscene
  rw [State.HolesGrown, herrors]
  exact ⟨(coverScene_of_frameScene hscene).trans h.1, h.2⟩

theorem settleHole_holesGrown (site : ErrSite) : s.HolesGrown (s.settleHole site) := by
  have same : s.HolesGrown s := ⟨rfl, fun _ => id, fun _ => id⟩
  cases site with
  | hbm a =>
    refine iteInduction (motive := s.HolesGrown) (fun _ => same) fun _ => flagEvent_holesGrown s ?_ ..
    exact ⟨rfl, subset_insertNat .., fun _ => id⟩
  | ddr a =>
    refine iteInduction (motive := s.HolesGrown) (fun _ => same) fun _ => flagEvent_holesGrown s ?_ ..
    exact ⟨rfl, fun _ => id, subset_insertNat ..⟩
  | _ => exact same

/-- After its own step a site's frame is a hole or covered. -/
theorem settleHole_settles (site : ErrSite) : (s.settleHole site).FrameSettled site := by
  have settled : ∀ {f : Nat} {holes : List Nat} {d : Bool}, (holes.contains f || s.frameCovered d f) = true →
      f ∈ holes ∨ s.frameCovered d f = true := fun h => by simpa using h
  cases site with
  | hbm a =>
    refine iteInduction (motive := fun u : State => u.FrameSettled (.hbm a)) (fun h => settled h) fun _ => ?_
    exact frameSettled_of_frameScene (flagEvent_frameScene ..) (.inl (mem_insertNat.mpr (.inl rfl)))
  | ddr a =>
    refine iteInduction (motive := fun u : State => u.FrameSettled (.ddr a)) (fun h => settled h) fun _ => ?_
    exact frameSettled_of_frameScene (flagEvent_frameScene ..) (.inl (mem_insertNat.mpr (.inl rfl)))
  | _ => trivial

/-- After all of them every site without a reserve frame is settled: no later step undoes an earlier one. -/
theorem settleHoles_settled : ∀ site ∈ s.settleHoles.errors.noSpare, s.settleHoles.FrameSettled site := by
  have hsites : s.settleHoles.errors.noSpare = s.errors.noSpare := by
    rw [settleHoles_eq]
    exact foldl_keeps (fun u : State => u.errors.noSpare) _ (fun u site => congrArg (·.1) (settleHole_holesGrown u site).1) _ _
  rw [hsites, settleHoles_eq]
  refine foldl_reaches (P := fun site u => State.FrameSettled u site) (fun u site _ => settleHole_settles u site) ?_ s
  intro u site _ other _ h
  obtain ⟨hscene, hhbm, hddr⟩ := settleHole_holesGrown u site
  exact frameSettled_mono hscene hhbm hddr h

theorem fresh_frameScene : s.fresh.frameScene = s.frameScene := rfl

/-- What follows the holes in settling moves no frame. -/
theorem afterHoles_frameScene : s.notePn.peaks.fresh.frameScene = s.frameScene := by
  rw [fresh_frameScene, peaks_frameScene, notePn_frameScene]

/-- After settling every site without a reserve frame is settled. -/
theorem settle_settled : ∀ site ∈ s.settle.errors.noSpare, s.settle.FrameSettled site := by
  have after : ∀ u : State, ∀ site ∈ u.settleHoles.notePn.peaks.fresh.errors.noSpare, u.settleHoles.notePn.peaks.fresh.FrameSettled site := by
    intro u site hsite
    have hscene := afterHoles_frameScene u.settleHoles
    have herrors := congrArg (·.1) hscene
    simp only [State.frameScene] at herrors
    rw [herrors] at hsite
    exact frameSettled_of_frameScene hscene (settleHoles_settled u site hsite)
  exact after s.tallyFlash.settleLoans.failDown.resumeLinks.releaseOwed

end

/-- Settles O5: every command ends settled, and settling goes through every site without a reserve frame. -/
theorem uncoveredFramesAreHoles : Obligations.UncoveredFramesAreHoles := by
  intro i s t hexec
  obtain ⟨u, hu⟩ := exec_settles i s
  obtain rfl := Host.Outcome.next.inj (hu.symm.trans hexec)
  exact ⟨fun a => settle_settled u (.hbm a), fun a => settle_settled u (.ddr a)⟩

/-- Settles O2: the branches of every meaning end in `done`. -/
theorem everyCommandAnswersNext : Obligations.EveryCommandAnswersNext := exec_settles

/-- Settles O1: `step` takes the front of the queue, and an empty queue leaves the state. -/
theorem stepRunsFront : Obligations.StepRunsFront := by
  refine ⟨fun c rest s => rfl, fun s hempty => ?_⟩
  rw [step, hempty]

end Sys2Proof.Machine
end

section
/-! SUPPORT. Security and calendar family: the SVN floor, the rows of the SEC page with attestation and the debug port, and the calendar's
rows (O58, O59, O60). -/

namespace Sys2Proof.Machine

/-! ### Settling and the security state -/

theorem settle_sec (s : State) : s.settle.sec = s.sec := by
  have h := settle_steady s
  simp only [State.steady, Prod.mk.injEq] at h
  simp [h]

theorem setErr_sec (s : State) (g b : Nat) : (s.setErr g b).sec = s.sec := by
  have h := setErr_steady s g b
  simp only [State.steady, Prod.mk.injEq] at h
  simp [h]

/-! ### SVN_COMMIT (R503) -/

section
variable {s : State}

/-- The OTP increments that are burned once the running SVN is the floor. -/
abbrev State.burnedAfter (s : State) : Nat := s.sec.burned + (s.sec.runningSvn - s.sec.svnFloor)

theorem svnCommit_of_reached (h : s.sec.runningSvn ≤ s.sec.svnFloor) : s.svnCommit = s := if_pos h

theorem svnCommit_of_above (h : s.sec.svnFloor < s.sec.runningSvn) : s.svnCommit =
    if 32 < s.burnedAfter then s.setErr pgMGT 3
    else { s with sec := { s.sec with
      burned := s.burnedAfter
      svnFloor := s.sec.runningSvn } } := if_neg h.not_ge

/-- A commit never lowers the floor. -/
theorem svnFloor_le_svnCommit (s : State) : s.sec.svnFloor ≤ s.svnCommit.sec.svnFloor := by
  rcases le_or_gt s.sec.runningSvn s.sec.svnFloor with h | h
  · rw [svnCommit_of_reached h]
  · rw [svnCommit_of_above h]
    split
    · rw [setErr_sec]
    · exact h.le

end

/-- Settles O58: by whether the page answers, by the running SVN against the floor, and by the increments left. -/
theorem svnFloor : Obligations.SvnFloor := by
  intro s n
  have hanswers : s.i3cAnswers pgMGT = true → exec .svnCommit s = done s.svnCommit := fun h => onPage_of_answers h _
  have hsilent : s.i3cAnswers pgMGT = false → exec .svnCommit s = done s := fun h => onPage_of_silent h _
  refine ⟨fun h => ⟨fun hlt hfit => ?_, fun hlt hfull => ?_, fun hle => ?_⟩, hsilent, fun t ht => ?_⟩
  · rw [hanswers h, svnCommit_of_above hlt, if_neg hfit.not_gt]
    rfl
  · rw [hanswers h, svnCommit_of_above hlt, if_pos hfull]
    rfl
  · rw [hanswers h, svnCommit_of_reached hle]
    rfl
  · cases h : s.i3cAnswers pgMGT
    · obtain rfl := Host.Outcome.next.inj ((hsilent h).symm.trans ht)
      rw [settle_sec]
    · obtain rfl := Host.Outcome.next.inj ((hanswers h).symm.trans ht)
      rw [settle_sec]
      exact svnFloor_le_svnCommit s

/-! ### Key slots (R498, R514) -/

section
variable {s : State}

section
variable (h : (s.keySlot s.keySel).locked = true)
include h

theorem keyLoad_of_locked : s.keyLoad = s := if_pos h
theorem keyClear_of_locked : s.keyClear = s := if_pos h

end

section
variable (h : (s.keySlot s.keySel).locked = false)
include h

theorem keyLoad_of_unlocked : s.keyLoad = s.setKeySlot s.keySel ⟨some s.keyBytes, false, 0, [], []⟩ := if_neg (by simp [h])
theorem keyClear_of_unlocked : s.keyClear = s.setKeySlot s.keySel keyEmpty := if_neg (by simp [h])

end

/-! ### Attestation (R507 to R509) -/

theorem attGo_of_running (h : s.sec.attResult = 0xF) : s.attGo = s := if_pos h

/-- GO captures eight words of nonce and the address. -/
theorem attGo_of_idle (h : s.sec.attResult ≠ 0xF) : s.attGo = { s with sec := { s.sec with
    att := some ⟨(List.range 8).flatMap (fun i => leBytes 4 (s.stored pgSEC (oSEC_NONCE_W0 + 4 * i) 0).toNat),
      (s.stored pgSEC oSEC_ATT_ADDR_LO 0).toNat + (s.stored pgSEC oSEC_ATT_ADDR_HI 0).toNat * 2 ^ 32⟩
    attResult := 0xF } } := if_neg h

theorem attAddrOk_iff {a : Nat} : attAddrOk a = true ↔ a % 64 = 0 ∧ (zoneOf a = .hbm ∨ zoneOf a = .ddr) := by simp [attAddrOk]

theorem exec_attestationDone_of_none (h : s.sec.att = none) : exec .attestationDone s = done s := by
  rw [exec_attestationDone, execAttestationDone, h]

section
variable {r : AttRun} (hr : s.sec.att = some r)
include hr

theorem exec_attestationDone_of_exhausted (h : s.sec.exhausted = true) : exec .attestationDone s = done (s.attEnd 3) := by
  rw [exec_attestationDone, execAttestationDone, hr]
  exact if_pos h

variable (hleaves : s.sec.exhausted = false)
include hleaves

theorem exec_attestationDone_of_bad_address (h : attAddrOk r.addr = false) : exec .attestationDone s = done (s.attEnd 4) := by
  simp [exec_attestationDone, execAttestationDone, hr, hleaves, h]

theorem exec_attestationDone_of_written {t : State} (haddr : attAddrOk r.addr = true) (htier : s.tierWaits r.addr = false)
    (hw : s.writeFor mgmtPart none r.addr (s.reportBody r.nonce ++ signature s.sec.leafNext (s.reportBody r.nonce)) = .ok t) :
    exec .attestationDone s = done (t.useLeaf.attEnd 1) := by
  simp [exec_attestationDone, execAttestationDone, hr, hleaves, haddr, htier, hw]

end
end

/-- Settles O59: each register row by whether its page answers and by its lock or report; ATTESTATION_DONE by the end codes in their order. -/
theorem securityRows : Obligations.SecurityRows := by
  intro s k words
  refine ⟨fun h => ?_, fun h => ?_, fun h => onPage_of_silent h _, fun h => onPage_of_answers h _, rfl, fun _ => rfl,
    exec_attestationDone_of_none, fun r hr => ?_⟩
  · have silent : ∀ o, onPage s pgSEC o = done s := onPage_of_silent h
    exact ⟨silent _, silent _, silent _, silent _, silent _⟩
  · have row : ∀ u, onPage s pgSEC (done u) = done u := fun u => onPage_of_answers h _
    refine ⟨fun hlock => ⟨?_, ?_⟩, fun hlock => ⟨?_, ?_⟩, row _, row _, fun hrun => ?_, fun hidle => ?_⟩
    · exact (row _).trans (congrArg done (keyLoad_of_locked hlock))
    · exact (row _).trans (congrArg done (keyClear_of_locked hlock))
    · exact (row _).trans (congrArg done (keyLoad_of_unlocked hlock))
    · exact (row _).trans (congrArg done (keyClear_of_unlocked hlock))
    · exact (row _).trans (congrArg done (attGo_of_running hrun))
    · exact (row _).trans (congrArg done (attGo_of_idle hidle))
  · refine ⟨exec_attestationDone_of_exhausted hr, fun hleaves hbad => ?_, fun t hleaves halign hzone htier hw => ?_⟩
    · refine exec_attestationDone_of_bad_address hr hleaves (Bool.eq_false_iff.mpr fun hok => ?_)
      obtain ⟨halign, hzone⟩ := attAddrOk_iff.mp hok
      tauto
    · exact exec_attestationDone_of_written hr hleaves (attAddrOk_iff.mpr ⟨halign, hzone⟩) htier hw

/-! ### The calendar (R510, R511) -/

/-- A loss of the calendar sets its error bit out of reset. -/
theorem done_lost_calendar (t : State) (b : Nat) : (t.alive = true → done (if t.alive then t.setErr pgRTC b else t) = done (t.setErr pgRTC b)) ∧
    (t.alive = false → done (if t.alive then t.setErr pgRTC b else t) = done t) :=
  ⟨fun h => by rw [if_pos h], fun h => by rw [if_neg (by simp [h])]⟩

/-- Settles O60: the register rows by whether their page answers, the losses by whether the device is in reset. -/
theorem calendarRows : Obligations.CalendarRows := by
  intro s
  refine ⟨fun h => ⟨onPage_of_silent h _, onPage_of_silent h _⟩, fun h => onPage_of_silent h _,
    fun h => ⟨onPage_of_answers h _, onPage_of_answers h _⟩, fun h => onPage_of_answers h _, fun h => ⟨?_, ?_⟩, fun h => ⟨?_, ?_⟩⟩
  · exact (done_lost_calendar _ 0).1 h
  · exact (done_lost_calendar _ 1).1 h
  · exact (done_lost_calendar _ 0).2 h
  · exact (done_lost_calendar _ 1).2 h

end Sys2Proof.Machine
end

section
/-! SUPPORT. Reset family: the pins, rails and trips that reset the device and what a reset keeps (O56), and the I3C target (O34). -/

namespace Sys2Proof.Machine

/-! ### Pins, rails and trips (R467, R541, R544 to R547) -/

section
variable {s : State}

/-- POR_N low, and no trip stands any more. -/
abbrev State.porPulled (s : State) : State := { s with start := { s.start with
  porLow := true
  tripped := false } }

theorem exec_porNAssert_of_untripped (h : s.start.tripped = false) :
    exec .porNAssert s = done (s.porPulled.deviceReset false 0x0210 0) := congrArg done (if_neg (by simp [h]))

theorem exec_porNAssert_of_tripped (h : s.start.tripped = true) :
    exec .porNAssert s = done (s.porPulled.deviceReset false 0x0213 s.start.causeInfo) := congrArg done (if_pos h)

/-- WARM_N low. -/
abbrev State.warmPulled (s : State) : State := { s with start := { s.start with warmLow := true } }

theorem exec_warmNAssert_of_held (h : s.start.porLow = true ∨ s.start.tripped = true) : exec .warmNAssert s = done s :=
  if_pos (by simpa using h)

section
variable (hpor : s.start.porLow = false) (htrip : s.start.tripped = false)
include hpor htrip

theorem exec_warmNAssert_of_free : exec .warmNAssert s =
    done (if s.start.inReset then s.warmPulled else s.warmPulled.deviceReset true 0x0211 0) := if_neg (by simp [hpor, htrip])

theorem exec_warmNAssert_of_inReset (h : s.start.inReset = true) : exec .warmNAssert s = done s.warmPulled := by
  rw [exec_warmNAssert_of_free hpor htrip, if_pos h]

theorem exec_warmNAssert_of_running (h : s.start.inReset = false) :
    exec .warmNAssert s = done (s.warmPulled.deviceReset true 0x0211 0) := by
  rw [exec_warmNAssert_of_free hpor htrip, if_neg (by simp [h])]

end

/-- What keeps the device in reset, or out of a release. -/
abbrev State.ResetHeld (s : State) : Prop :=
  s.start.inReset = false ∨ s.start.tripped = true ∨ ∃ r ∈ [4, 5, 6, 11], (s.rail r).down = true

theorem releasable_iff : (s.start.inReset && !s.start.tripped && !(wholeRails.any (fun r => (s.rail r).down))) = true ↔ ¬ s.ResetHeld := by
  simp [State.ResetHeld, wholeRails, and_assoc]

theorem exec_resetRelease_of_held (h : s.ResetHeld) : exec .resetRelease s = done s := if_neg fun hrel => releasable_iff.mp hrel h

theorem exec_resetRelease_of_free (h : ¬ s.ResetHeld) : exec .resetRelease s = done { s with start := { s.start with
    porLow := false
    warmLow := false
    inReset := false } } := if_pos (releasable_iff.mpr h)

section
variable {rail : Fin 12}

theorem exec_deviceRailReset_of_island (h : rail.val ∉ [4, 5, 6, 11]) : exec (.deviceRailReset rail) s = done s :=
  if_neg (by simpa [wholeRails] using h)

/-- A rail's marks once it is at its reset level. -/
abbrev State.railDown (s : State) (r : Nat) : State := s.setRail r { s.rail r with
  warn := true
  down := true }

theorem exec_deviceRailReset_of_whole (h : rail.val ∈ [4, 5, 6, 11]) : exec (.deviceRailReset rail) s =
    done (if s.start.porLow || s.start.tripped then s.railDown rail.val else (s.railDown rail.val).deviceReset false 0x0212 rail.val) :=
  if_pos (by simpa [wholeRails] using h)

end

theorem exec_thermalTrip_of_cool (h : s.alive = false ∨ s.tripInfo = none) : exec .thermalTrip s = done s := by
  rcases h with h | h <;> simp [exec_thermalTrip, execThermalTrip, h]

theorem exec_thermalTrip_of_hot {info : Nat} (ha : s.alive = true) (hi : s.tripInfo = some info) : exec .thermalTrip s =
    (let l := s.logMgmt 0x0606 pgTRV info
    let t := ({ l with start := { l.start with tripped := true } } : State).deviceReset true 0x0213 info
    done (({ t with start := { t.start with faultLow := true } } : State).send (.ibi 0x03#8))) := by
  simp only [exec_thermalTrip, execThermalTrip, ha, hi]
  rfl

end

/-- Settles O56: each pin, rail and trip by what holds it off; what a reset keeps is read off its definition. -/
theorem resetPins : Obligations.ResetPins := by
  intro s low
  refine ⟨exec_porNAssert_of_untripped, exec_porNAssert_of_tripped,
    ⟨exec_warmNAssert_of_held, exec_warmNAssert_of_inReset, exec_warmNAssert_of_running⟩,
    ⟨exec_resetRelease_of_held, exec_resetRelease_of_free⟩,
    fun rail => ⟨exec_deviceRailReset_of_island, fun hwhole => ⟨fun hheld => ?_, fun hpor htrip => ?_⟩⟩,
    exec_thermalTrip_of_cool, fun info => exec_thermalTrip_of_hot, fun w c n => ?_⟩
  · rw [exec_deviceRailReset_of_whole hwhole, if_pos (by simpa using hheld)]
    rfl
  · rw [exec_deviceRailReset_of_whole hwhole, if_neg (by simp [hpor, htrip])]
    rfl
  · exact ⟨rfl, rfl, rfl, rfl, rfl, rfl, rfl, rfl, rfl, rfl, rfl, rfl, rfl, rfl, rfl, rfl, rfl, rfl, rfl⟩

/-! ### The I3C target (R531, R534) -/

section
variable {s : State} {bytes : List Byte} {words : Nat}

theorem exec_i3cEntdaa_of_alive (h : s.alive = true) (a : BitVec 7) : exec (.i3cEntdaa a) s = done { s with i3cAddr := some a } :=
  congrArg done (if_pos h)

theorem exec_i3cEntdaa_of_not_alive (h : s.alive = false) (a : BitVec 7) : exec (.i3cEntdaa a) s = done s :=
  congrArg done (if_neg (by simp [h]))

section
variable (h : s.alive = false ∨ s.i3cAddr = none)
include h

theorem i3c_deaf : (!s.alive || s.i3cAddr.isNone) = true := by simpa using h

theorem exec_i3cPrivateWrite_of_deaf : exec (.i3cPrivateWrite bytes) s = done s := if_pos (i3c_deaf h)
theorem exec_i3cPrivateRead_of_deaf : exec (.i3cPrivateRead words) s = done s := if_pos (i3c_deaf h)

end

/-- A write over I3C that R531 refuses, or that no page answers. -/
abbrev State.I3cWriteBad (s : State) (bytes : List Byte) : Prop :=
  bytes.length < 8 ∨ (bytes.length - 8) % 4 ≠ 0 ∨ 264 < bytes.length ∨ regSpan (fld bytes 0 8) ((bytes.length - 8) / 4) = false ∨
    s.i3cAnswers ((fld bytes 0 8 - regBase) / 0x1000) = false

/-- A read over I3C that R531 refuses, or that no page answers. -/
abbrev State.I3cReadBad (s : State) (words : Nat) : Prop :=
  64 < words ∨ regSpan s.i3cPtr words = false ∨ s.i3cAnswers ((s.i3cPtr - regBase) / 0x1000) = false

section
variable {a7 : BitVec 7} (ha : s.alive = true) (hd : s.i3cAddr = some a7)
include ha hd

theorem i3c_hears : ¬ (!s.alive || s.i3cAddr.isNone) = true := by simp [ha, hd]

theorem exec_i3cPrivateWrite_of_hears : exec (.i3cPrivateWrite bytes) s =
    if s.I3cWriteBad bytes then done (s.send .i3cNack)
    else done (i3cWrites ((fld bytes 0 8 - regBase) / 0x1000) (fld bytes 0 8 % 0x1000) (bytes.drop 8) { s with i3cPtr := fld bytes 0 8 }) := by
  refine (if_neg (i3c_hears ha hd)).trans (if_congr ?_ rfl rfl)
  have hlong : 256 < bytes.length - 8 ↔ 264 < bytes.length := by omega
  simp [State.I3cWriteBad, or_assoc, hlong]

theorem exec_i3cPrivateRead_of_hears : exec (.i3cPrivateRead words) s =
    if s.I3cReadBad words then done (s.send .i3cNack)
    else
      let r := s.readWords .i3c ((s.i3cPtr - regBase) / 0x1000) (s.i3cPtr % 0x1000) words
      done (r.1.send (.i3cData r.2)) := by
  refine (if_neg (i3c_hears ha hd)).trans (if_congr ?_ rfl rfl)
  simp [State.I3cReadBad, or_assoc]

end
end

theorem i3cWrites_one (s : State) (g o : Nat) (b0 b1 b2 b3 : Byte) :
    i3cWrites g o [b0, b1, b2, b3] s = s.regWrite .i3c g o (BitVec.ofNat 32 (leNat [b0, b1, b2, b3])) := by
  simp only [i3cWrites]

/-- A read of one word sends what one register answers. -/
theorem send_readWords_one (s : State) (g o : Nat) : (s.readWords .i3c g o 1).1.send (.i3cData (s.readWords .i3c g o 1).2) =
    (s.regRead .i3c g o).1.send (.i3cData [(s.regRead .i3c g o).2]) := by
  simp only [State.readWords]

/-- Settles O34: by whether the target hears, and by what R531 refuses; one word is a write or a read of one register. -/
theorem i3cTarget : Obligations.I3cTarget := by
  refine ⟨fun s a => ⟨fun h => exec_i3cEntdaa_of_alive h a, fun h => exec_i3cEntdaa_of_not_alive h a⟩,
    fun s bytes words h => ⟨exec_i3cPrivateWrite_of_deaf h, exec_i3cPrivateRead_of_deaf h⟩, fun s a7 ha hd =>
      ⟨fun bytes hbad => ?_, fun ad b0 b1 b2 b3 hlen hspan hpage => ?_, fun words hbad => ?_, fun hspan hpage => ?_⟩⟩
  · rw [exec_i3cPrivateWrite_of_hears ha hd, if_pos hbad]
    rfl
  · have hfld : fld (ad ++ [b0, b1, b2, b3]) 0 8 = leNat ad := by
      rw [fld, List.drop_zero, ← hlen, List.take_left]
    have hdata : (ad ++ [b0, b1, b2, b3]).drop 8 = [b0, b1, b2, b3] := by rw [← hlen, List.drop_left]
    have hgood : ¬ s.I3cWriteBad (ad ++ [b0, b1, b2, b3]) := by
      simp [State.I3cWriteBad, hfld, hlen, hspan, hpage]
    rw [exec_i3cPrivateWrite_of_hears ha hd, if_neg hgood, hfld, hdata, i3cWrites_one]
    rfl
  · rw [exec_i3cPrivateRead_of_hears ha hd, if_pos hbad]
    rfl
  · have hgood : ¬ s.I3cReadBad 1 := by simp [State.I3cReadBad, hspan, hpage]
    rw [exec_i3cPrivateRead_of_hears ha hd, if_neg hgood]
    exact congrArg done (send_readWords_one s _ _)

end Sys2Proof.Machine
end

section
/-! SUPPORT. Network family: links, address queries and pauses (O46), answers to the requester and stray frames (O48). -/

namespace Sys2Proof.Machine

/-! ### Links (R415 to R417, R569) -/

section
variable {s : State} {sub : Fin 32}

/-- A sub-port may rise (R416, R569): it is down, started up, in its port's mode, with power and a clock. -/
structure State.MayRise (s : State) (i : Nat) : Prop where
  down : (s.sub i).up = false
  alive : s.alive = true
  running : s.start.halted = false
  started : 2 ≤ s.start.stage
  inMode : i % 4 < modeSubs (s.portMode (i / 4))
  powered : (s.rail 9).down = false
  clocked : (if i < 16 then 1 else 2) ∉ s.start.clocksLost

theorem exec_linkUp_of_lanes {ls : List Nat} (h : s.MayRise sub.val) (hl : s.goodLanes sub.val = some ls) : exec (.linkUp sub) s =
    done ((s.setSub sub.val { s.sub sub.val with up := true, lanes := ls.length }).flagEvent (pgPORT (sub.val / 4)) 1 1
      (sub.val + 2 ^ 8) none) := by
  obtain ⟨hdown, halive, hrun, hstage, hmode, hpower, hclock⟩ := h
  refine (if_neg ?_).trans ?_
  · simp [hdown, halive, hrun, hstage.not_gt, hmode.not_ge, hpower, hclock]
  · rw [hl]

theorem exec_linkUp_of_barred (h : (s.sub sub.val).up = true ∨ s.alive = false ∨ (s.rail 9).down = true ∨ s.goodLanes sub.val = none) :
    exec (.linkUp sub) s = done s := by
  simp only [exec_linkUp, execLinkUp]
  rcases h with h | h | h | h <;> simp [h]

theorem linkFall_of_up {i : Nat} (h : (s.sub i).up = true) :
    s.linkFall i = (s.setSub i { s.sub i with up := false }).flagEvent (pgPORT (i / 4)) 1 1 i none := if_pos h

theorem linkFall_of_down {i : Nat} (h : (s.sub i).up = false) : s.linkFall i = s := if_neg (by simp [h])

end

/-! ### Address queries (R418) -/

section
variable {s : State} {i : Nat} {own : Bool} {o a b : Host.Outcome State Fault Refusal}

/-- The three ways of an address query: for an own address on a linked sub-port, for another there, and on a sub-port without a link. -/
theorem query_own (hl : s.linked i = true) (ho : own = true) : (if s.linked i && own then o else if s.linked i then a else b) = o :=
  if_pos (by simp [hl, ho])

theorem query_other (hl : s.linked i = true) (ho : own = false) : (if s.linked i && own then o else if s.linked i then a else b) = a :=
  (if_neg (by simp [ho])).trans (if_pos hl)

theorem query_unlinked (hl : s.linked i = false) : (if s.linked i && own then o else if s.linked i then a else b) = b :=
  (if_neg (by simp [hl])).trans (if_neg (by simp [hl]))

end

/-! ### PFC (R427) -/

section
variable {s : State} {port prio : Fin 8} {quanta : Half}

/-- A PFC frame of this priority is honoured at this port. -/
abbrev State.Pauses (s : State) (port prio : Nat) : Prop :=
  port < 4 ∧ s.alive = true ∧ s.field (pgPORT port) oNETP_PORT_CFG 3 3 = 1 ∧ s.field (pgPORT port) oNETP_PORT_CFG 6 4 = prio

/-- Sub-port j of a port paused, or its pause ended, where it is up. -/
def State.pauseSub (port : Nat) (paused : Bool) (s : State) (j : Nat) : State :=
  if (s.sub (4 * port + j)).up then s.setSub (4 * port + j) { s.sub (4 * port + j) with paused := paused } else s

theorem pauses_iff {p q : Nat} :
    (p < 4 && s.alive && s.field (pgPORT p) oNETP_PORT_CFG 3 3 = 1 && s.field (pgPORT p) oNETP_PORT_CFG 6 4 = q) = true ↔
    s.Pauses p q := by simp [and_assoc]

theorem exec_pfcFrame_of_honoured (h : s.Pauses port.val prio.val) : exec (.pfcFrame port prio quanta) s =
    done ([0, 1, 2, 3].foldl (State.pauseSub port.val (decide (quanta ≠ 0#16))) s) := if_pos (pauses_iff.mpr h)

theorem exec_pfcFrame_of_other (h : ¬ s.Pauses port.val prio.val) : exec (.pfcFrame port prio quanta) s = done s :=
  if_neg fun hc => h (pauses_iff.mp hc)

end

/-- Settles O46: a link by what bars it, an address query by its address, a PFC frame by its port and priority. -/
theorem links : Obligations.Links := by
  refine ⟨fun s sub => ⟨fun ls hdown halive hrun hstage hmode hpower hclock hlanes => ?_, exec_linkUp_of_barred, fun h => ?_, fun h => ?_⟩,
    fun s sub q n e => ⟨fun hl => ⟨query_own hl, query_other hl, query_own hl, fun ho hs => ?_, fun ho hs => ?_, query_own hl,
      query_other hl⟩, fun hl => ⟨query_unlinked hl, query_unlinked hl, query_unlinked hl⟩⟩,
    fun s port prio quanta => ⟨exec_pfcFrame_of_honoured, exec_pfcFrame_of_other⟩⟩
  · exact exec_linkUp_of_lanes ⟨hdown, halive, hrun, hstage, hmode, hpower, hclock⟩ hlanes
  · exact congrArg done (linkFall_of_up h)
  · exact congrArg done (linkFall_of_down h)
  · exact (query_other hl ho).trans (congrArg done (if_pos hs))
  · exact (query_other hl ho).trans (congrArg done (if_neg (by simp [hs])))

/-! ### Answers to the requester (R421, R422, R426, R427) -/

section
variable {s : State} {qp : Fin 4096} {psn : BitVec 24} {p : Nat}

/-- On a live queue pair of a linked sub-port an answer is counted as a frame and acted on. -/
theorem onRequester_live {i : Nat} {act : State → State} (h : s.linked (s.qp i).subport = true) (hl : s.qpLive i = some p) :
    s.onRequester i act = act (s.rxFrame (s.qp i).subport false) := by
  simp [State.onRequester, h, hl]

/-- What an RNR NAK does once the messages before it are acknowledged. -/
def State.rnrNak (i : Nat) (s : State) : State :=
  let x := s.qp i
  if x.unacked = [] then s
  else if fldBe x.ctx 0x16 1 < 7 && fldBe x.ctx 0x16 1 ≤ x.rnr then s.qpError i 0xFF
  else (s.setQp i { x with rnr := x.rnr + 1 }).resendQp i

theorem exec_roceRnrNak_eq (s : State) (qp : Fin 4096) (psn : BitVec 24) : exec (.roceRnrNak qp psn) s =
    done (s.onRequester qp.val fun t => (t.qpAcked qp.val ((psn.toNat + 2 ^ 24 - 1) % 2 ^ 24)).rnrNak qp.val) := rfl

/-- A partition's records go over queue pair i. -/
abbrev State.CarriesRecords (s : State) (i : Nat) : Prop := ∃ q ∈ partIds, (s.part q).nonFree = true ∧ (s.part q).complQp = i

/-- A window wholly marked: the sending rate falls (R427, R442). -/
def State.slowDown (s : State) (i : Nat) : State :=
  let a := (s.qp i).alpha + (1 - (s.qp i).alpha) / 16
  s.setQp i { s.qp i with
    alpha := a
    throttle := (s.qp i).throttle * (1 - a / 2) }

/-- What a CNP does once it is counted. -/
def State.cnp (i : Nat) (s : State) : State :=
  if partIds.any (fun q => (s.part q).nonFree && (s.part q).complQp = i) then s.slowDown i else s

theorem exec_cnpReceived_eq (s : State) (qp : Fin 4096) : exec (.cnpReceived qp) s =
    done (s.onRequester qp.val fun t => (t.count pgFRONT oNETF_CNP_RECV 1).cnp qp.val) := rfl

theorem carriesRecords_iff {i : Nat} : partIds.any (fun q => (s.part q).nonFree && (s.part q).complQp = i) = true ↔ s.CarriesRecords i := by
  simp [State.CarriesRecords]

theorem cnp_of_carrier {i : Nat} (h : s.CarriesRecords i) : s.cnp i = s.slowDown i := if_pos (carriesRecords_iff.mpr h)

theorem cnp_of_idle {i : Nat} (h : ¬ s.CarriesRecords i) : s.cnp i = s := if_neg (mt carriesRecords_iff.mp h)

@[simp] theorem rxFrame_part (s : State) (i p : Nat) (ce : Bool) : (s.rxFrame i ce).part p = s.part p := by
  unfold State.rxFrame State.part
  cases ce <;> simp

@[simp] theorem count_part (s : State) (g o n p : Nat) : (s.count g o n).part p = s.part p := by simp [State.part]

/-! ### The ACK timeout (R426) -/

theorem exec_roceAckTimeout_of_none (h : (s.qp qp.val).unacked = []) : exec (.roceAckTimeout qp) s = done s := if_pos (by simp [h])

theorem exec_roceAckTimeout_of_left (h : (s.qp qp.val).unacked ≠ []) (hl : s.qpLive qp.val = some p) : exec (.roceAckTimeout qp) s =
    if fldBe (s.qp qp.val).ctx 0x15 1 ≤ (s.qp qp.val).retries then done (s.qpError qp.val 0xFF)
    else done ((s.setQp qp.val { s.qp qp.val with retries := (s.qp qp.val).retries + 1 }).resendQp qp.val) := if_neg (by simp [h, hl])

end

/-! ### Stray frames (R417, R419, R420, R422, R448) -/

/-- What a stray frame does on a linked sub-port: it is counted where its reason says. -/
def State.strayAt (s : State) (i : Nat) : StrayWhy → State
  | .wrongMac => s.count (pgPORT (i / 4)) oNETP_RX_DROP 1
  | .oversize n => if s.subMtu i < n then s.count (pgPORT (i / 4)) oNETP_RX_DROP 1 else s
  | .wrongPort | .wrongNetwork => (s.rxFrame i false).strayPacket
  | .macsec _ _ => if s.field (pgPORT (i / 4)) oNETP_PORT_CFG 8 8 = 1 then s.count (pgPORT (i / 4)) oNETP_MACSEC_DROP 1 else s
  | .badQp qp => if (s.qpLive qp.val).isNone then (s.rxFrame i false).strayPacket else s
  | .noContext => s.rxFrame i false

section
variable {s : State} {sub : Fin 32}

theorem exec_stray_of_unlinked (h : s.linked sub.val = false) (why : StrayWhy) : exec (.stray sub why) s = done s := if_pos (by simp [h])

theorem exec_stray_of_linked (h : s.linked sub.val = true) (why : StrayWhy) : exec (.stray sub why) s = done (s.strayAt sub.val why) := by
  refine (if_neg (by simp [h])).trans ?_
  cases why <;> rfl

end

/-- Settles O48: an answer is acted on at a live queue pair, a timeout where a message is left, a stray frame on a linked sub-port. -/
theorem requesterAnswers : Obligations.RequesterAnswers := by
  refine ⟨?_, ?_, ?_⟩
  · intro s qp psn p i hlink hlive r before
    have act : ∀ f, done (s.onRequester i f) = done (f r) := fun f => congrArg done (onRequester_live hlink hlive)
    have hrnr : exec (.roceRnrNak qp psn) s = done ((r.qpAcked i before).rnrNak i) := (exec_roceRnrNak_eq ..).trans (act _)
    have hcnp : exec (.cnpReceived qp) s = done ((r.count pgFRONT oNETF_CNP_RECV 1).cnp i) := (exec_cnpReceived_eq ..).trans (act _)
    have hcarries : (r.count pgFRONT oNETF_CNP_RECV 1).CarriesRecords i ↔ s.CarriesRecords i := by simp [State.CarriesRecords, r]
    refine ⟨act _, act _, fun c hc => ?_, fun hnone => ?_, fun hleft => ⟨fun hspent => ?_, fun hmore => ?_⟩, fun hno => ?_, fun hyes => ?_⟩
    · exact (act _).trans (congrArg done (if_neg hc))
    · rw [hrnr, State.rnrNak, if_pos hnone, done]
    · rw [hrnr, State.rnrNak, if_neg hleft, if_pos (by simpa using hspent), done]
    · rw [hrnr, State.rnrNak, if_neg hleft, if_neg (by simpa using hmore), done]
    · refine hcnp.trans (congrArg done (cnp_of_idle fun hany => ?_))
      obtain ⟨q, hq, hcarry⟩ := hcarries.mp hany
      exact hno q hq hcarry
    · exact hcnp.trans (congrArg done (cnp_of_carrier (hcarries.mpr hyes)))
  · intro s qp i
    refine ⟨exec_roceAckTimeout_of_none, fun p hleft hlive => ?_⟩
    have hexec := exec_roceAckTimeout_of_left hleft hlive
    exact ⟨fun hspent => hexec.trans (if_pos hspent), fun hmore => hexec.trans (if_neg hmore.not_ge)⟩
  · intro s sub i
    refine ⟨exec_stray_of_unlinked, fun h => ?_⟩
    have hexec : ∀ why, exec (.stray sub why) s = done (s.strayAt i why) := exec_stray_of_linked h
    refine ⟨hexec _, fun n hn => ?_, hexec _, fun n hn => ?_, fun a b hon => ?_, fun a b hoff => ?_, fun q hdead => ?_, fun q hlive => ?_,
      hexec _, hexec _⟩
    · exact (hexec _).trans (congrArg done (if_pos hn))
    · exact (hexec _).trans (congrArg done (if_neg hn.not_gt))
    · exact (hexec _).trans (congrArg done (if_pos hon))
    · exact (hexec _).trans (congrArg done (if_neg hoff))
    · exact (hexec _).trans (congrArg done (if_pos (Option.isNone_iff_eq_none.mpr hdead)))
    · exact (hexec _).trans (congrArg done (if_neg fun hnone => hlive (Option.isNone_iff_eq_none.mp hnone)))

end Sys2Proof.Machine
end

section
/-! SUPPORT. Network family: acknowledgements, timers and the rate of the sending side of a connection (O53). -/

namespace Sys2Proof.Machine

/-! ### ACK and NACK from the far end (R433, R435, R436, R438) -/

section
variable {s : State} {h : FabHdr} {a : AckBody} {rtt p : Nat} {psn : Word} {code : Byte}

section
variable (hn : (s.rxBack h.ce).deviceId = 0xFFFF ∨ h.dstDev.toNat ≠ (s.rxBack h.ce).deviceId)
include hn

theorem exec_fabricAck_not_here : exec (.fabricAck h a rtt) s = done (s.rxBack h.ce) := if_pos (by simpa using hn)
theorem exec_fabricNack_not_here : exec (.fabricNack h psn code) s = done (s.rxBack h.ce) := if_pos (by simpa using hn)

end

section
variable (hid : (s.rxBack h.ce).deviceId ≠ 0xFFFF) (hd : h.dstDev.toNat = (s.rxBack h.ce).deviceId)
include hid hd

theorem exec_fabricAck_mapped (hm : (s.rxBack h.ce).mapPacket h = some p) :
    exec (.fabricAck h a rtt) s = done (((s.rxBack h.ce).peerUp p h).fabAck h a rtt p) := by
  refine (if_neg (named_here_not_dropped hid hd)).trans ?_
  rw [hm]

theorem exec_fabricNack_mapped (hc : code ≠ 3#8) (hm : (s.rxBack h.ce).mapPacket h = some p) :
    exec (.fabricNack h psn code) s = done (((s.rxBack h.ce).peerUp p h).fabNack h psn.toNat code.toNat p) := by
  refine (if_neg (named_here_not_dropped hid hd)).trans ((if_neg hc).trans ?_)
  rw [hm]

/-- The connection that a NACK NO_MAP is about: its device, its communicator, and an outstanding packet of the PSN (R435). -/
abbrev TxConn.refused (h : FabHdr) (psn : Word) (t : TxConn) : Bool :=
  t.conn.dev = h.srcDev && (t.conn.peer = 16) = (h.comm = 0xFFFF#16)
    && t.outstanding.any (fun k => k.psn % 2 ^ 32 = psn.toNat && k.hdr.comm = h.comm)

theorem exec_fabricNack_noMap_of_none (hf : (s.rxBack h.ce).net.txConns.find? (TxConn.refused h psn) = none) :
    exec (.fabricNack h psn 3#8) s = done (s.rxBack h.ce) := by
  refine (if_neg (named_here_not_dropped hid hd)).trans ((if_pos rfl).trans ?_)
  rw [hf]

theorem exec_fabricNack_noMap_of_some {t : TxConn} (hf : (s.rxBack h.ce).net.txConns.find? (TxConn.refused h psn) = some t) :
    exec (.fabricNack h psn 3#8) s =
      done ((s.rxBack h.ce).fabNack { h with srcPart := BitVec.ofNat 4 t.conn.peer.val } psn.toNat 3 t.conn.part.val) := by
  refine (if_neg (named_here_not_dropped hid hd)).trans ((if_pos rfl).trans ?_)
  rw [hf]

end
end

/-! ### Timers and the rate (R438 to R440, R442) -/

section
variable {s : State} {conn : ConnId} {psn : Word}

section
variable (h : s.txConn? conn = none)
include h

theorem exec_fabricRto_of_no_conn : exec (.fabricRto conn psn) s = done s := by rw [exec_fabricRto, execFabricRto, h]
theorem exec_nackResendTimer_of_no_conn : exec (.nackResendTimer conn psn) s = done s := by
  rw [exec_nackResendTimer, execNackResendTimer, h]
theorem exec_rateUpdate_of_no_conn : exec (.rateUpdate conn) s = done s := by rw [exec_rateUpdate, execRateUpdate, h]

end

/-- The packet of a PSN that awaits its acknowledgement. -/
abbrev TxConn.unanswered (t : TxConn) (psn : Word) : Option Sent := t.outstanding.find? (fun k => k.psn % 2 ^ 32 = psn.toNat && !k.waiting)

/-- The packet of a PSN that waits to be sent again. -/
abbrev TxConn.putOff (t : TxConn) (psn : Word) : Option Sent := t.outstanding.find? (fun k => k.psn % 2 ^ 32 = psn.toNat && k.waiting)

section
variable {t : TxConn} {k : Sent} (ht : s.txConn? conn = some t)
include ht

theorem exec_fabricRto_of_none (hk : t.unanswered psn = none) : exec (.fabricRto conn psn) s = done s := by
  rw [exec_fabricRto, execFabricRto, ht]
  simp only [hk]

theorem exec_fabricRto_of_some (hk : t.unanswered psn = some k) : exec (.fabricRto conn psn) s =
    if s.fabRetry ≤ t.rtos + 1 then done (s.peerDown conn) else done ((s.setTxConn { t with rtos := t.rtos + 1 }).resend conn k true) := by
  rw [exec_fabricRto, execFabricRto, ht]
  simp only [hk]

theorem exec_nackResendTimer_of_none (hk : t.putOff psn = none) : exec (.nackResendTimer conn psn) s = done s := by
  rw [exec_nackResendTimer, execNackResendTimer, ht]
  simp only [hk]

theorem exec_nackResendTimer_of_some (hk : t.putOff psn = some k) : exec (.nackResendTimer conn psn) s = done (s.resend conn k false) := by
  rw [exec_nackResendTimer, execNackResendTimer, ht]
  simp only [hk]

/-- The connection after a rate update: its window starts again at the rate that R442 gives. -/
def State.rateMoved (s : State) (conn : ConnId) (t : TxConn) : TxConn :=
  let top : Rat := 1600 * ((min 4096 (s.field (pgPRT conn.part.val) oPRT_REG_BACK 12 0) : Nat) : Rat) / 4096
  let low : Rat := ((max 1 (s.field pgFABRIC oNETB_FAB_RATE 23 16) : Nat) : Rat)
  let ai : Rat := ((s.field pgFABRIC oNETB_FAB_RATE 15 0 : Nat) : Rat) / 10
  let alpha := t.alpha + ((t.winCe : Rat) / (t.winAcked : Rat) - t.alpha) / 16
  let now := if t.rate = 0 then top else t.rate
  { t with
    rate := if 0 < (t.winCe : Rat) / (t.winAcked : Rat) then max (now * (1 - alpha / 2)) low else min (now + ai) top
    alpha := alpha
    winCe := 0
    winAcked := 0 }

theorem exec_rateUpdate_of_some : exec (.rateUpdate conn) s =
    if t.winAcked = 0 then done s else done (s.setTxConn (s.rateMoved conn t)) := by
  rw [exec_rateUpdate, execRateUpdate, ht]
  rfl

end
end

/-! ### CONNECTION_IDLE (R434) -/

section
variable {s : State} {conn : ConnId}

/-- A send context is not that of the connection, or something of it is left to do. -/
def TxConn.stays (conn : ConnId) (t : TxConn) : Bool := !(t.conn = conn && t.outstanding = [] && t.backlog = [] && !t.down)

/-- The idle contexts of a connection closed. -/
abbrev State.closeIdle (s : State) (conn : ConnId) : State := { s with net := { s.net with
  txConns := s.net.txConns.filter (TxConn.stays conn)
  rxConns := s.net.rxConns.filter (fun x => !(x.conn = conn && x.pkts = 0)) } }

theorem exec_connectionIdle_eq (s : State) (conn : ConnId) : exec (.connectionIdle conn) s =
    done (((s.closeIdle conn).net.txConns.filter (fun t => t.backlog ≠ [])).foldl
      (fun u t => State.fabPump t.conn t.backlog.length u) (s.closeIdle conn)) := rfl

/-- With no send context left, nothing waits to be pumped. -/
theorem exec_connectionIdle_of_none_left (h : (s.closeIdle conn).net.txConns = []) :
    exec (.connectionIdle conn) s = done (s.closeIdle conn) := by
  rw [exec_connectionIdle_eq, h]
  rfl

end

/-- Settles O53: an answer by whom it names, a timer by its packet, and an idle connection by the contexts it leaves. -/
theorem fabricSends : Obligations.FabricSends := by
  refine ⟨?_, ?_⟩
  · intro h s a rtt psn code r
    refine ⟨fun hn => ⟨exec_fabricAck_not_here hn, exec_fabricNack_not_here hn⟩,
      fun hid hd => ⟨exec_fabricNack_noMap_of_none hid hd, fun t => exec_fabricNack_noMap_of_some hid hd⟩,
      fun p hid hd hm => ⟨exec_fabricAck_mapped hid hd hm, fun hc => exec_fabricNack_mapped hid hd hc hm⟩⟩
  · intro s conn psn
    refine ⟨fun h => ⟨exec_fabricRto_of_no_conn h, exec_nackResendTimer_of_no_conn h, exec_rateUpdate_of_no_conn h⟩, fun t ht => ?_, rfl,
      exec_connectionIdle_eq s conn, fun hnone => ?_, fun t hone hconn hout hback hup => ?_⟩
    · refine ⟨fun k hk => ?_, exec_fabricRto_of_none ht, fun k => exec_nackResendTimer_of_some ht, exec_nackResendTimer_of_none ht,
        fun h0 => ?_, fun h0 => ?_⟩
      · have hexec := exec_fabricRto_of_some ht hk
        exact ⟨fun hspent => hexec.trans (if_pos hspent), fun hmore => hexec.trans (if_neg hmore.not_ge)⟩
      · exact (exec_rateUpdate_of_some ht).trans (if_pos h0)
      · exact (exec_rateUpdate_of_some ht).trans (if_neg h0)
    · have hkept : s.net.txConns.filter (TxConn.stays conn) = s.net.txConns := by rw [hnone, List.filter_nil]
      rw [exec_connectionIdle_of_none_left (hkept.trans hnone), State.closeIdle, hkept, done]
    · have hgone : s.net.txConns.filter (TxConn.stays conn) = [] := by simp [TxConn.stays, hone, hconn, hout, hback, hup]
      rw [exec_connectionIdle_of_none_left hgone, State.closeIdle, hgone, done]

end Sys2Proof.Machine
end

section
/-! SUPPORT. Management family: a request is judged, answered from the kept responses or acted on (O49), and what each operation answers
(O50). -/

namespace Sys2Proof.Machine

/-! ### Judging a request (R429, R431) -/

section
variable {s : State} {op : Nat} {r : MgmtReq} {waits : State → Bool} {act : State → List Byte → State × MgmtAnswer} {key : List Byte}

theorem mgmtRequest_unheard (h : s.mgmtHears r = false) : s.mgmtRequest op r waits act = s := if_pos (by simp [h])

section
variable (hh : s.mgmtHears r = true)
include hh

theorem mgmtRequest_dropped (hk : s.mgmtKey op r = none) :
    s.mgmtRequest op r waits act = (s.rxFrame s.mgmtPort false).mgmtDropped r := by
  refine (if_neg (by simp [hh])).trans ?_
  rw [hk]

theorem mgmtRequest_repeated {e : Nat × List Byte} (hk : s.mgmtKey op r = some key)
    (he : (s.keySlot r.keyId.toNat).kept.find? (fun e => e.1 = r.reqId.toNat) = some e) :
    s.mgmtRequest op r waits act = ((s.mgmtTake r).txFrames s.mgmtPort 1).send (.mgmt s.mgmtPort r.src e.2) := by
  refine (if_neg (by simp [hh])).trans ?_
  simp only [hk, he]

end

/-- A valid request that is no repeat. -/
structure State.MgmtFresh (s : State) (op : Nat) (r : MgmtReq) (key : List Byte) : Prop where
  hears : s.mgmtHears r = true
  keyed : s.mgmtKey op r = some key
  unkept : (s.keySlot r.keyId.toNat).kept.find? (fun e => e.1 = r.reqId.toNat) = none

/-- A request that state t answers, its response kept ahead of those its key slot had. -/
abbrev State.mgmtAnswered (s : State) (op : Nat) (r : MgmtReq) (key : List Byte) (t : State) (a : MgmtAnswer) : State :=
  t.mgmtReply s.mgmtPort r (s.keySlot r.keyId.toNat).kept (mgmtResponse key op r a.status a.body)

theorem mgmtRequest_acts (h : s.MgmtFresh op r key) (hw : waits s = false) : s.mgmtRequest op r waits act =
    s.mgmtAnswered op r key (act (s.mgmtTake r) key).1 (act (s.mgmtTake r) key).2 := by
  obtain ⟨hh, hk, hu⟩ := h
  refine (if_neg (by simp [hh])).trans ?_
  simp only [hk, hu, hw]
  rfl

end

/-- Every row of R430 is a request of its operation, and only the two memory operations wait: for their tier. -/
theorem exec_of_mgmtRow {i : Instr} {op : Nat} {r : MgmtReq} (h : mgmtRow i = some (op, r)) : ∃ waits act,
    (∀ s, exec i s = done (s.mgmtRequest op r waits act)) ∧
    ∀ s : State, ((op = 0x03 ∨ op = 0x04) → s.tierWaits r.addr.toNat = false) → waits s = false := by
  unfold mgmtRow at h
  split at h
  case h_3 | h_4 =>
    obtain ⟨rfl, rfl⟩ := Prod.mk.inj (Option.some.inj h)
    exact ⟨_, _, fun _ => rfl, fun _ hw => hw (by decide)⟩
  case h_11 => cases h
  all_goals
    obtain ⟨rfl, rfl⟩ := Prod.mk.inj (Option.some.inj h)
    exact ⟨_, _, fun _ => rfl, fun _ _ => rfl⟩

/-- Settles O49: a repeat meets its kept response, and another request acts and has its response kept. -/
theorem keptResponses : Obligations.KeptResponses := by
  intro i op r s key hrow hh hk old
  obtain ⟨waits, act, hexec, hwaits⟩ := exec_of_mgmtRow hrow
  refine ⟨fun e he => ?_, fun hu hw => ?_⟩
  · rw [hexec, mgmtRequest_repeated hh hk he, done]
  · rw [hexec, mgmtRequest_acts ⟨hh, hk, hu⟩ (hwaits s hw), done]
    exact ⟨_, _, rfl⟩

/-! ### What each operation answers (R422, R426, R430, R443 to R445, R449) -/

section
variable {s : State} {r : MgmtReq} {key : List Byte}

/-- A row whose request acts answers what its operation answers of the state that has taken it. -/
theorem done_mgmtRequest_of_act {op : Nat} {waits : State → Bool} {act : State → List Byte → State × MgmtAnswer} {t : State} {a : MgmtAnswer}
    (h : s.MgmtFresh op r key) (hw : waits s = false) (hact : act (s.mgmtTake r) key = (t, a)) :
    done (s.mgmtRequest op r waits act) = done (s.mgmtAnswered op r key t a) := by
  rw [mgmtRequest_acts h hw, hact]

section
variable (h : s.MgmtFresh 0x01 r key)
include h

theorem exec_mgmtReadReg_of_bad_length (hl : r.body.length ≠ 4) :
    exec (.mgmtReadReg r) s = done (s.mgmtAnswered 0x01 r key (s.mgmtTake r) ansBadLength) :=
  done_mgmtRequest_of_act h rfl (if_pos hl)

theorem exec_mgmtReadReg_of_bad_range {e : MgmtAnswer} (hl : r.body.length = 4) (hr : regRangeBad r.addr.toNat (beNat r.body) = some e) :
    exec (.mgmtReadReg r) s = done (s.mgmtAnswered 0x01 r key (s.mgmtTake r) e) := by
  refine done_mgmtRequest_of_act h rfl ((if_neg (not_not.mpr hl)).trans ?_)
  rw [hr]

theorem exec_mgmtReadReg_of_range (hl : r.body.length = 4) (hr : regRangeBad r.addr.toNat (beNat r.body) = none) :
    exec (.mgmtReadReg r) s =
      (let v := (s.mgmtTake r).readWords .mgmt ((r.addr.toNat - regBase) / 0x1000) (r.addr.toNat % 0x1000) (beNat r.body)
      done (s.mgmtAnswered 0x01 r key v.1 (ansOK (v.2.flatMap (fun w => leBytes 4 w.toNat))))) := by
  refine done_mgmtRequest_of_act h rfl ((if_neg (not_not.mpr hl)).trans ?_)
  rw [hr]

end

section
variable (h : s.MgmtFresh 0x02 r key)
include h

theorem exec_mgmtWriteReg_of_bad_length (hl : r.body.length % 4 ≠ 0) :
    exec (.mgmtWriteReg r) s = done (s.mgmtAnswered 0x02 r key (s.mgmtTake r) ansBadLength) :=
  done_mgmtRequest_of_act h rfl (if_pos hl)

theorem exec_mgmtWriteReg_of_bad_range {e : MgmtAnswer} (hl : r.body.length % 4 = 0)
    (hr : regRangeBad r.addr.toNat (r.body.length / 4) = some e) :
    exec (.mgmtWriteReg r) s = done (s.mgmtAnswered 0x02 r key (s.mgmtTake r) e) := by
  refine done_mgmtRequest_of_act h rfl ((if_neg (not_not.mpr hl)).trans ?_)
  rw [hr]

theorem exec_mgmtWriteReg_of_range (hl : r.body.length % 4 = 0) (hr : regRangeBad r.addr.toNat (r.body.length / 4) = none) :
    exec (.mgmtWriteReg r) s = done (s.mgmtAnswered 0x02 r key
      (mgmtWrites ((r.addr.toNat - regBase) / 0x1000) (r.addr.toNat % 0x1000) r.body (s.mgmtTake r)) (ansOK [])) := by
  refine done_mgmtRequest_of_act h rfl ((if_neg (not_not.mpr hl)).trans ?_)
  rw [hr]

end

/-! Memory: a tier that is clear is not waited for. -/

/-- What a read or a write of memory that fails answers (R430). -/
def memAnswer : MemErr → MgmtAnswer
  | .access _ => ansBadAddr
  | .data _ => ansDataError

theorem readMem_length_ok (hl : r.body.length = 4) (hlo : 1 ≤ beNat r.body) (hhi : beNat r.body ≤ 1024) :
    ¬ (r.body.length ≠ 4 || beNat r.body = 0 || 1024 < beNat r.body) = true := by
  simp [hl, hhi.not_gt, Nat.one_le_iff_ne_zero.mp hlo]

section
variable (h : s.MgmtFresh 0x03 r key) (hw : s.tierWaits r.addr.toNat = false)
include h hw

theorem exec_mgmtReadMem_of_bad_length (hl : r.body.length ≠ 4 ∨ beNat r.body = 0 ∨ 1024 < beNat r.body) :
    exec (.mgmtReadMem r) s = done (s.mgmtAnswered 0x03 r key (s.mgmtTake r) ansBadLength) :=
  done_mgmtRequest_of_act h hw (if_pos (by simpa [or_assoc] using hl))

section
variable (hl : r.body.length = 4) (hlo : 1 ≤ beNat r.body) (hhi : beNat r.body ≤ 1024)
include hl hlo hhi

theorem exec_mgmtReadMem_of_read {bs : List Byte} (hr : (s.mgmtTake r).readBytes mgmtPart r.addr.toNat (beNat r.body) = .ok bs) :
    exec (.mgmtReadMem r) s = done (s.mgmtAnswered 0x03 r key (s.mgmtTake r) (ansOK bs)) := by
  refine done_mgmtRequest_of_act h hw ((if_neg (readMem_length_ok hl hlo hhi)).trans ?_)
  rw [hr]

theorem exec_mgmtReadMem_of_error {e : MemErr} (hr : (s.mgmtTake r).readBytes mgmtPart r.addr.toNat (beNat r.body) = .error e) :
    exec (.mgmtReadMem r) s = done (s.mgmtAnswered 0x03 r key (s.mgmtTake r) (memAnswer e)) := by
  refine done_mgmtRequest_of_act h hw ((if_neg (readMem_length_ok hl hlo hhi)).trans ?_)
  rw [hr]
  cases e <;> rfl

end
end

section
variable (h : s.MgmtFresh 0x04 r key) (hw : s.tierWaits r.addr.toNat = false)
include h hw

theorem exec_mgmtWriteMem_of_empty (hl : r.body = []) :
    exec (.mgmtWriteMem r) s = done (s.mgmtAnswered 0x04 r key (s.mgmtTake r) ansBadLength) :=
  done_mgmtRequest_of_act h hw (if_pos hl)

section
variable (hl : r.body ≠ [])
include hl

theorem exec_mgmtWriteMem_of_written {u : State} (hr : (s.mgmtTake r).writeFor mgmtPart none r.addr.toNat r.body = .ok u) :
    exec (.mgmtWriteMem r) s = done (s.mgmtAnswered 0x04 r key
      (u.cloudOver none (fun _ => false) [(r.addr.toNat, r.addr.toNat + r.body.length)]) (ansOK [])) := by
  refine done_mgmtRequest_of_act h hw ((if_neg hl).trans ?_)
  rw [hr]

theorem exec_mgmtWriteMem_of_error {e : MemErr} (hr : (s.mgmtTake r).writeFor mgmtPart none r.addr.toNat r.body = .error e) :
    exec (.mgmtWriteMem r) s = done (s.mgmtAnswered 0x04 r key (s.mgmtTake r) (memAnswer e)) := by
  refine done_mgmtRequest_of_act h hw ((if_neg hl).trans ?_)
  rw [hr]
  cases e <;> rfl

end
end

/-! Queue pairs. -/

section
variable (h : s.MgmtFresh 0x05 r key)
include h

theorem exec_qpSet_of_bad_length (hl : r.body.length ≠ 64) :
    exec (.qpSet r) s = done (s.mgmtAnswered 0x05 r key (s.mgmtTake r) ansBadLength) :=
  done_mgmtRequest_of_act h rfl (if_pos hl)

section
variable (hl : r.body.length = 64)
include hl

theorem exec_qpSet_of_bad_index (ha : 4096 ≤ r.addr.toNat) :
    exec (.qpSet r) s = done (s.mgmtAnswered 0x05 r key (s.mgmtTake r) ansBadAddr) :=
  done_mgmtRequest_of_act h rfl ((if_neg (not_not.mpr hl)).trans (if_pos ha))

variable (ha : r.addr.toNat < 4096)
include ha

/-- A queue pair in RTS that is set to neither RESET nor ERROR (R422). -/
abbrev State.QpBusy (t : State) (r : MgmtReq) : Prop :=
  (t.qp r.addr.toNat).state = 1 ∧ fldBe r.body 0 1 ≠ 0 ∧ fldBe r.body 0 1 ≠ 2

theorem exec_qpSet_of_busy (hb : (s.mgmtTake r).QpBusy r) :
    exec (.qpSet r) s = done (s.mgmtAnswered 0x05 r key (s.mgmtTake r) ansBusy) :=
  done_mgmtRequest_of_act h rfl ((if_neg (not_not.mpr hl)).trans ((if_neg ha.not_ge).trans (if_pos (by simpa [and_assoc] using hb))))

theorem exec_qpSet_of_free (hb : ¬ (s.mgmtTake r).QpBusy r) :
    exec (.qpSet r) s = done (s.mgmtAnswered 0x05 r key ((s.mgmtTake r).qpSet r.addr.toNat r.body) (ansOK [])) :=
  done_mgmtRequest_of_act h rfl ((if_neg (not_not.mpr hl)).trans ((if_neg ha.not_ge).trans (if_neg (by simpa [and_assoc] using hb))))

end
end

section
variable (h : s.MgmtFresh 0x06 r key)
include h

theorem exec_qpGet_of_bad_length (hl : r.body ≠ []) :
    exec (.qpGet r) s = done (s.mgmtAnswered 0x06 r key (s.mgmtTake r) ansBadLength) :=
  done_mgmtRequest_of_act h rfl (if_pos hl)

section
variable (hl : r.body = [])
include hl

theorem exec_qpGet_of_bad_index (ha : 4096 ≤ r.addr.toNat) :
    exec (.qpGet r) s = done (s.mgmtAnswered 0x06 r key (s.mgmtTake r) ansBadAddr) :=
  done_mgmtRequest_of_act h rfl ((if_neg (not_not.mpr hl)).trans (if_pos ha))

theorem exec_qpGet_of_index (ha : r.addr.toNat < 4096) : exec (.qpGet r) s =
    done (s.mgmtAnswered 0x06 r key (s.mgmtTake r) (ansOK (padTo 64 ((s.mgmtTake r).qp r.addr.toNat).ctx))) :=
  done_mgmtRequest_of_act h rfl ((if_neg (not_not.mpr hl)).trans (if_neg ha.not_ge))

end
end

/-! The fabric and its communicators. -/

/-- The fabric table's entry of a FABRIC_SET (R444). -/
abbrev fabricEntry (r : MgmtReq) : Nat := fabKey (fldBe r.body 0 2) (fldBe r.body 2 1)

/-- An entry of the fabric table set. -/
abbrev State.putFabric (t : State) (r : MgmtReq) (n : Nat) : State :=
  { t with net := { t.net with fabric := tabPut 0 t.net.fabric (fabricEntry r) n } }

section
variable (h : s.MgmtFresh 0x07 r key)
include h

theorem exec_fabricSet_of_bad_length (hl : r.body.length ≠ 5) :
    exec (.fabricSet r) s = done (s.mgmtAnswered 0x07 r key (s.mgmtTake r) ansBadLength) :=
  done_mgmtRequest_of_act h rfl (if_pos hl)

section
variable (hl : r.body.length = 5)
include hl

theorem exec_fabricSet_of_cleared (hv : fldBe r.body 4 1 = 0) :
    exec (.fabricSet r) s = done (s.mgmtAnswered 0x07 r key ((s.mgmtTake r).putFabric r 0) (ansOK [])) := by
  refine done_mgmtRequest_of_act h rfl ((if_neg (not_not.mpr hl)).trans ?_)
  simp [hv]

section
variable (hv : fldBe r.body 4 1 ≠ 0)
include hv

theorem exec_fabricSet_of_bad_part (hp : 16 ≤ fldBe r.body 3 1) :
    exec (.fabricSet r) s = done (s.mgmtAnswered 0x07 r key (s.mgmtTake r) ansBadAddr) :=
  done_mgmtRequest_of_act h rfl ((if_neg (not_not.mpr hl)).trans (if_pos (by simp [hv, hp])))

variable (hp : fldBe r.body 3 1 < 16)
include hp

/-- A new entry for a full table (R444). -/
abbrev State.FabricFull (t : State) (r : MgmtReq) : Prop := tabGet 0 t.net.fabric (fabricEntry r) = 0 ∧ 16384 ≤ t.net.fabric.length

theorem exec_fabricSet_of_full (hf : (s.mgmtTake r).FabricFull r) :
    exec (.fabricSet r) s = done (s.mgmtAnswered 0x07 r key (s.mgmtTake r) ansBusy) :=
  done_mgmtRequest_of_act h rfl ((if_neg (not_not.mpr hl)).trans ((if_neg (by simp [hp])).trans
    (if_pos (by simpa [hv, and_assoc] using hf))))

theorem exec_fabricSet_of_entered (hf : ¬ (s.mgmtTake r).FabricFull r) : exec (.fabricSet r) s =
    done (s.mgmtAnswered 0x07 r key ((s.mgmtTake r).putFabric r (fldBe r.body 3 1 + 1)) (ansOK [])) := by
  refine done_mgmtRequest_of_act h rfl ((if_neg (not_not.mpr hl)).trans ((if_neg (by simp [hp])).trans
    ((if_neg (by simpa [hv, and_assoc] using hf)).trans ?_)))
  rw [if_pos hv]

end
end
end

/-- The fields of a communicator record that R445 allows. -/
abbrev State.CommGood (t : State) (r : MgmtReq) : Prop :=
  let a := r.addr.toNat
  let p := fldBe r.body 0 1
  let n := fldBe r.body 1 4
  let rank := fldBe r.body 5 4
  let list := fldBe r.body 9 8
  a < 1024 ∧ p < 16 ∧ (t.part p).nonFree = true ∧ within a 1 (t.part p).commsRange.1 (t.part p).commsRange.2 = true ∧ 2 ≤ n ∧
    n ≤ 4096 ∧ rank < n ∧ within list (4 * n) (t.part p).resBase (t.part p).resBytes = true

theorem commRefused_iff {t : State} {r : MgmtReq} :
    (16 ≤ fldBe r.body 0 1 || !(t.part (fldBe r.body 0 1)).nonFree ||
      !(within r.addr.toNat 1 (t.part (fldBe r.body 0 1)).commsRange.1 (t.part (fldBe r.body 0 1)).commsRange.2) || 1024 ≤ r.addr.toNat ||
      fldBe r.body 1 4 < 2 || 4096 < fldBe r.body 1 4 || fldBe r.body 1 4 ≤ fldBe r.body 5 4 ||
      !(within (fldBe r.body 9 8) (4 * fldBe r.body 1 4) (t.part (fldBe r.body 0 1)).resBase (t.part (fldBe r.body 0 1)).resBytes)) = true ↔
    ¬ t.CommGood r := by
  simp only [State.CommGood, not_and_or, Nat.not_lt, Nat.not_le, Bool.not_eq_true, Bool.not_eq_true', Bool.or_eq_true, decide_eq_true_eq]
  tauto

section
variable (h : s.MgmtFresh 0x08 r key)
include h

theorem exec_commSet_of_bad_length (hl : r.body.length ≠ 18) :
    exec (.commSet r) s = done (s.mgmtAnswered 0x08 r key (s.mgmtTake r) ansBadLength) :=
  done_mgmtRequest_of_act h rfl (if_pos hl)

section
variable (hl : r.body.length = 18)
include hl

theorem exec_commSet_of_refused (hb : ¬ (s.mgmtTake r).CommGood r) :
    exec (.commSet r) s = done (s.mgmtAnswered 0x08 r key (s.mgmtTake r) ansBadAddr) :=
  done_mgmtRequest_of_act h rfl ((if_neg (not_not.mpr hl)).trans (if_pos (commRefused_iff.mpr hb)))

theorem exec_commSet_of_good (hg : (s.mgmtTake r).CommGood r) : exec (.commSet r) s =
    done (s.mgmtAnswered 0x08 r key { s.mgmtTake r with net := { (s.mgmtTake r).net with
      comms := tabPut commNone (s.mgmtTake r).net.comms r.addr.toNat ⟨fldBe r.body 0 1, fldBe r.body 1 4, fldBe r.body 5 4, fldBe r.body 9 8,
        decide (fldBe r.body 17 1 ≠ 0), 0, 0, [], 0, 0⟩ } } (ansOK [])) :=
  done_mgmtRequest_of_act h rfl ((if_neg (not_not.mpr hl)).trans (if_neg fun hb => commRefused_iff.mp hb hg))

end
end

/-! MACsec and IDENTIFY. -/

/-- The association that an SA record describes, with its unwrapped key (R449). -/
abbrev saOf (r : MgmtReq) (sak : List Byte) : Sa :=
  ⟨fldBe r.body 1 1, BitVec.ofNat 32 (fldBe r.body 2 4), (r.body.drop 6).take 12, fldBe r.body 18 8,
    BitVec.ofNat 64 (fldBe r.body 26 8), sak, false⟩

section
variable (h : s.MgmtFresh 0x09 r key)
include h

theorem exec_saSet_of_bad_length (hl : r.body.length ≠ 74) :
    exec (.saSet r) s = done (s.mgmtAnswered 0x09 r key (s.mgmtTake r) ansBadLength) :=
  done_mgmtRequest_of_act h rfl (if_pos hl)

section
variable (hl : r.body.length = 74)
include hl

theorem exec_saSet_of_bad_field (hb : 32 ≤ r.addr.toNat ∨ 1 < fldBe r.body 0 1 ∨ 3 < fldBe r.body 1 1) :
    exec (.saSet r) s = done (s.mgmtAnswered 0x09 r key (s.mgmtTake r) ansBadAddr) :=
  done_mgmtRequest_of_act h rfl ((if_neg (not_not.mpr hl)).trans (if_pos (by simpa [or_assoc] using hb)))

section
variable (ha : r.addr.toNat < 32) (hd : fldBe r.body 0 1 ≤ 1) (hn : fldBe r.body 1 1 ≤ 3)
include ha hd hn

theorem exec_saSet_of_not_unwrapped (hk : keyUnwrap key (r.body.drop 34) = none) :
    exec (.saSet r) s = done (s.mgmtAnswered 0x09 r key (s.mgmtTake r) ansBadLength) := by
  refine done_mgmtRequest_of_act h rfl ((if_neg (not_not.mpr hl)).trans ((if_neg (by simp [ha, hd, hn])).trans ?_))
  rw [hk]

theorem exec_saSet_of_unwrapped {sak : List Byte} (hk : keyUnwrap key (r.body.drop 34) = some sak) : exec (.saSet r) s =
    done (s.mgmtAnswered 0x09 r key ((s.mgmtTake r).setSub r.addr.toNat (if fldBe r.body 0 1 = 0
      then { (s.mgmtTake r).sub r.addr.toNat with
        tx := putSa ((s.mgmtTake r).sub r.addr.toNat).tx (saOf r sak)
        txAn := fldBe r.body 1 1 }
      else { (s.mgmtTake r).sub r.addr.toNat with rx := putSa ((s.mgmtTake r).sub r.addr.toNat).rx (saOf r sak) })) (ansOK [])) := by
  refine done_mgmtRequest_of_act h rfl ((if_neg (not_not.mpr hl)).trans ((if_neg (by simp [ha, hd, hn])).trans ?_))
  rw [hk]

end
end
end

section
variable (h : s.MgmtFresh 0x0A r key)
include h

theorem exec_identify_of_body (hl : r.body ≠ []) :
    exec (.identify r) s = done (s.mgmtAnswered 0x0A r key (s.mgmtTake r) ansBadLength) :=
  done_mgmtRequest_of_act h rfl (if_pos hl)

theorem exec_identify_of_empty (hl : r.body = []) : exec (.identify r) s = done (s.mgmtAnswered 0x0A r key (s.mgmtTake r)
    (ansOK (leBytes 4 0x4816B100 ++ leBytes 8 (s.mgmtTake r).fitted.serial ++ leBytes 4 (s.mgmtTake r).deviceId))) :=
  done_mgmtRequest_of_act h rfl (if_neg (not_not.mpr hl))

end
end

/-- Settles O50: a request by how it is judged, and each operation by its length, its fields and what it accesses. -/
theorem managementActs : Obligations.ManagementActs := by
  refine ⟨fun i op r s hrow => ?_, ?_⟩
  · obtain ⟨waits, act, hexec, -⟩ := exec_of_mgmtRow hrow
    refine ⟨fun hh => ?_, fun hh hk => ?_⟩
    · rw [hexec, mgmtRequest_unheard hh, done]
    · rw [hexec, mgmtRequest_dropped hh hk, done]
  · intro r s key hh hu t a ans
    have fresh : ∀ {op}, s.mgmtKey op r = some key → s.MgmtFresh op r key := fun hk => ⟨hh, hk, hu⟩
    refine ⟨fun hk hl hr => exec_mgmtReadReg_of_range (fresh hk) hl hr,
      fun hk => ⟨exec_mgmtReadReg_of_bad_length (fresh hk), fun e => exec_mgmtReadReg_of_bad_range (fresh hk)⟩,
      fun hk => ⟨exec_mgmtWriteReg_of_bad_length (fresh hk), fun e => exec_mgmtWriteReg_of_bad_range (fresh hk)⟩,
      fun hk hw => exec_mgmtReadMem_of_bad_length (fresh hk) hw, fun hk hw => exec_mgmtWriteMem_of_empty (fresh hk) hw,
      fun hk => ⟨exec_qpSet_of_bad_length (fresh hk), exec_qpSet_of_bad_index (fresh hk)⟩,
      fun hk => ⟨exec_qpGet_of_bad_length (fresh hk), exec_qpGet_of_bad_index (fresh hk)⟩,
      fun hk => exec_identify_of_body (fresh hk), fun hk => exec_mgmtWriteReg_of_range (fresh hk),
      fun hk hw hl hlo hhi => ?_, fun hk hw hl => ?_,
      fun hk hl ha => ⟨exec_qpSet_of_busy (fresh hk) hl ha, exec_qpSet_of_free (fresh hk) hl ha⟩,
      fun hk => exec_qpGet_of_index (fresh hk), fun hk => ?_, fun hk => exec_commSet_of_bad_length (fresh hk),
      fun hk hl => ⟨exec_commSet_of_refused (fresh hk) hl, exec_commSet_of_good (fresh hk) hl⟩,
      fun hk => ⟨exec_saSet_of_bad_length (fresh hk), exec_saSet_of_bad_field (fresh hk)⟩, fun hk hl ha hd hn => ?_,
      fun hk => exec_identify_of_empty (fresh hk)⟩
    · have error := fun e => exec_mgmtReadMem_of_error (e := e) (fresh hk) hw hl hlo hhi
      exact ⟨fun bs => exec_mgmtReadMem_of_read (fresh hk) hw hl hlo hhi, fun d => error (.access d), fun d => error (.data d)⟩
    · have error := fun e => exec_mgmtWriteMem_of_error (e := e) (fresh hk) hw hl
      exact ⟨fun u => exec_mgmtWriteMem_of_written (fresh hk) hw hl, fun d => error (.data d), fun d => error (.access d)⟩
    · exact ⟨exec_fabricSet_of_bad_length (fresh hk), exec_fabricSet_of_cleared (fresh hk), exec_fabricSet_of_bad_part (fresh hk),
        fun hl hv hp => ⟨exec_fabricSet_of_full (fresh hk) hl hv hp, exec_fabricSet_of_entered (fresh hk) hl hv hp⟩⟩
    · cases hunwrap : keyUnwrap key (r.body.drop 34) with
      | none => exact exec_saSet_of_not_unwrapped (fresh hk) hl ha hd hn hunwrap
      | some sak => exact exec_saSet_of_unwrapped (fresh hk) hl ha hd hn hunwrap

end Sys2Proof.Machine
end
